-- ==== Sys2Proof/Word.lean ====
section
/-! DEFINITION. The plainest data of the model: bytes, words and sparse stores. -/

namespace Sys2Proof

/-- One byte of a frame, a record, a descriptor or a memory. -/
abbrev Byte := BitVec 8

/-- A string of bytes, the byte at offset 0 first (R10). -/
abbrev Bytes := List Byte

/-- A 64-bit word: an engine register, a register of BAR0 read whole, a key word. -/
abbrev Word := BitVec 64

/-- A sparse store: pairs of a key and a value with keys strictly rising, in which no key holds the
value that an unlisted key reads as.  The value of an unlisted key is said where the store is read. -/
abbrev Store (α : Type) := List (Nat × α)

end Sys2Proof
end

