-- ==== Sys2Proof/Syntax.lean ====
section
/-! DEFINITION. The commands of the block: one constructor of `Instr` for each row of the opcode table,
with what comes from outside the device as its operands.  A command row also carries how its descriptor
came in (`Cmd`); data that the device reads from host memory stands in the operands (log 5). -/

namespace Sys2Proof

/-- A host port, H0 or H1 (R431). -/
abbrev HostNo := Fin 2

/-- A master (R469): 0 H0, 1 H1, 2 management, 3 quoin. -/
abbrev Master := Fin 4

/-- A device subport number (R34). -/
abbrev SubNo := Fin 384

/-- A device lane number (R33). -/
abbrev LaneNo := Fin 768

/-- A slice S0 to S16. -/
abbrev SliceNo := Fin 17

/-- A pier. -/
abbrev PierNo := Fin 4

/-- Where a command descriptor comes from (R447). -/
inductive Source where
  | cmdRing (host : HostNo) (ring : Fin 64)
  | mailbox
  | relay
  deriving DecidableEq, Repr

/-- The descriptor fields that every command carries besides its operands (R445, R446), and whether
reading its payload and writing its result block succeed in host memory (R450). -/
structure Cmd where
  src : Source
  cpl : BitVec 8 := 0
  seq : BitVec 32 := 0
  fence : Bool := false
  quiet : Bool := false
  inst : BitVec 16 := 0
  result : BitVec 64 := 0
  payloadOk : Bool := true
  resultOk : Bool := true
  deriving DecidableEq, Repr

/-- The straps of R630. -/
structure Straps where
  bootSrc : BitVec 2 := 0
  hostMode : BitVec 2 := 0
  stackId : BitVec 2 := 0
  quoin : Bool := false
  ownPrio : BitVec 2 := 0
  learnMode : BitVec 1 := 0
  portProfile : BitVec 3 := 0
  refclkSel : BitVec 1 := 0
  deriving DecidableEq, Repr

/-- The kinds of block that sleep and wake (R517), numbered in the order of that table. -/
inductive BlockKind where
  | lane | port | slice | course | channel | cluster | engine
  deriving DecidableEq, Repr

/-- A received shed handshake message (R56), REQ, ACK, NAK, READY or HELLO by its row. -/
structure ShedMsg where
  src : Bytes := []
  seq : BitVec 16 := 0
  width : BitVec 8 := 0
  target : BitVec 8 := 0
  healthy : BitVec 8 := 0
  floor : BitVec 8 := 0
  reason : BitVec 8 := 0
  delay : BitVec 8 := 0
  deriving DecidableEq, Repr

/-- How a read of protected memory ends (R157, R177). -/
inductive ReadOutcome where
  | clean
  | corrected
  | uncorrectable
  deriving DecidableEq, Repr

/-- A chain of R454: a ring of a host port by its page, or a DMA channel. -/
inductive ChainNo where
  | ring (host : HostNo) (page : Fin 184)
  | dma (ch : Fin 32)
  deriving DecidableEq, Repr

/-- The units that the boot self-test checks (R634). -/
inductive TestUnit where
  | slice (n : SliceNo)
  | engine (n : Fin 136)
  | cluster (n : Fin 17)
  | course (pier : PierNo) (n : Fin 7)
  deriving DecidableEq, Repr

/-- A source of tasks (R322, R329): the lane of a slice's setup queue toward a cluster, the open fold of a slot, an
internal queue, or an accepted command with the task descriptor that the command processor makes of it. -/
inductive TaskSrc where
  | lane (slice : SliceNo) (cluster : Fin 16)
  | fold (slot : Nat)
  | internal (queue : Fin 16)
  | mgmt (aseq : BitVec 32) (desc : Bytes)
  deriving DecidableEq, Repr

/-- An image location (R478, R592): space and address, what host memory holds from there, whether its read succeeds
unpoisoned, and how a read of LPDDR6 or staging SRAM ends.  The length follows from the header (log 45). -/
structure ImageLoc where
  space : BitVec 8
  addr : BitVec 64
  host : Bytes := []
  hostOk : Bool := true
  outcome : ReadOutcome := .clean
  deriving DecidableEq, Repr

/-- An entry of the index of tier A or, with `dir`, of the directory of tier B, by 8 × bucket + entry (R172, R191). -/
structure FlowEntry where
  key : Nat
  dir : Bool := false
  deriving DecidableEq, Repr

/-- A read of a cold slot, and how it ends (R157, R252). -/
structure ColdRead where
  cold : Nat
  outcome : ReadOutcome := .clean
  deriving DecidableEq, Repr

/-- The thread whose load completes, and whether the SECDED code of data memory corrected an error (R299, R306). -/
structure LoadEnd where
  thread : Fin 8
  corrected : Bool := false
  deriving DecidableEq, Repr

/-- The locator that a release names, and how the read of the cell's header ends (R359, R368). -/
structure CellName where
  loc : BitVec 64
  header : ReadOutcome := .clean
  deriving DecidableEq, Repr

/-- A link that goes down; `far` says that the far end has lost a lane (R69, R76). -/
structure LinkLoss where
  sub : SubNo
  far : Bool := false
  deriving DecidableEq, Repr

/-- The commands and events of the block: one constructor for each row of the opcode table. -/
inductive Instr where
  /-- R666: A rate-grid refill tick every 1,500 cycles refills every token bucket and per-interval
  limit. -/
  | refillTick
  /-- R666: A 1-ms interval of the rate grid begins, and every per-interval limit restarts at 0.
  -/
  | intervalStart
  /-- R244: The epoch advances at least every 1,024 cc while a deletion, demotion or refused
  promotion waits on a fence. -/
  | periodicEpochAdvance
  /-- R22: A shadowed set-up register write is applied at the next epoch boundary. -/
  | shadowApply
  /-- R644: A write to a register with no behaviour of its own is judged for ownership, combined
  by halves and applied or shadowed. -/
  | registerWrite (m : Master) (off : BitVec 26) (size : Nat) (v : BitVec 64)
  /-- R112: A frame's first byte reaches a port head queue, is timestamped and has buffer cells
  allocated, or is dropped on overrun. -/
  | frameArrival (sub : SubNo) (bytes : Bytes) (fcsOk whole : Bool) (cws : List (BitVec 4))
  /-- R41: The FEC decoder meets an uncorrectable codeword, dropping or stomping the frame that
  overlaps it. -/
  | uncorrectableCodeword (sub : SubNo)
  /-- R111: In each cc the slice admits up to 8 heads from its head queues into the parser. -/
  | headAdmit (slice : SliceNo)
  /-- R171: The pier returns buckets and records and the flow lookup records a hit, tier-B
  resolution or setup. -/
  | flowLookupResult (fid : Nat) (prim alt rec0 rec1 : ReadOutcome)
  /-- R193: Both directory buckets of a fetch return and name candidate cold slots, joining
  existing fetches where found. -/
  | tierBDirectoryReturn (fetch : Nat) (prim alt : ReadOutcome)
  /-- R194: A cold record returns and the fetch ends as hit, miss or check failure. -/
  | tierBRecordReturn (fetch : Nat) (r : ReadOutcome)
  /-- R280: An LPM or ACL search result is written to the workspace. -/
  | lpmAclResult (fid : Nat) (lpmBad aclBad : List (Nat × Bytes))
  /-- R130: A secondary exact-match lookup writes its result to workspace offset 0x240. -/
  | secondaryLookupResult (fid : Nat)
  /-- R399: A policer updates its buckets and writes the result colour to the verdict. -/
  | policerResult (fid : Nat)
  /-- R122: A frame waiting for a sequencer context takes one when it is freed. -/
  | seqContextGrant (slice : SliceNo)
  /-- R125: A microcode word whose WAIT results are present executes its slots, issues LOOKUP and
  ACCOUNT and forms the next address. -/
  | seqWordExecute (fid : Nat) (err : BitVec 320)
  /-- R139: A frame without a verdict at its deadline is a deadline fault handled by its class
  action and budget. -/
  | deadlineFault (fid : Nat)
  /-- R151: A parity error in a standby-bank word marks that bank invalid and posts bank-invalid.
  -/
  | standbyBankParity (slice : SliceNo) (addr : BitVec 12) (bad : BitVec 8)
  /-- R179: A combiner entry is applied as an add to the record's counters and hit bits within 32
  cc of opening. -/
  | combinerApply (slot : Nat) (tierB : Bool)
  /-- R231: The controller applies a tracking update to the record's state and flags. -/
  | trackingUpdateApply
  /-- R181: A record's insertion ends, PEND is cleared and frames parked on it are released or
  dropped. -/
  | insertionEnd (id : Nat)
  /-- R185: After the 192-cc hold a moved index entry's old copy is invalidated and MOVING
  cleared. -/
  | relocationFlip (src : FlowEntry)
  /-- R264: After the 4-cc hold a moved hashed-table entry's old copy is invalidated. -/
  | hashedMoveFlip (id : BitVec 8) (src : Nat)
  /-- R220: A frame parked for a setup longer than HOLD_US is dropped as a setup timeout. -/
  | setupHoldExpire (fid : Nat)
  /-- R199: The demotion unit visits a slot, builds its age histogram and selects records older
  than T. -/
  | demotionVisit (slot : Nat)
  /-- R200: After the fence and combiner flush the demoted record is written to its cold copy and
  the slot freed. -/
  | demotionComplete (slot : Nat)
  /-- R249: A new sweeper round of 128 coarse units begins. -/
  | sweeperRoundStart
  /-- R250: A judged visit clears the hit bits, marks AGE, or deletes the record as AGED. -/
  | sweeperVisit (slot : Nat)
  /-- R252: The cold sweeper reads a cold slot and deletes an idle LIVE record. -/
  | coldSweeperRead (read : ColdRead)
  /-- R245: After the fence, combiner flush and any fold, a deletion takes the final harvest and
  frees the slot. -/
  | deletionFencePassed (slot : Nat) (tierB : Bool)
  /-- R157: A 1-s window of course corrected errors ends and may raise a course fault. -/
  | courseCeWindowEnd (pier : PierNo) (course : Fin 7) (count : Nat)
  /-- R574: A granule of a retired course is copied to course 6 and its address redirected. -/
  | rebuildGranuleCopy (pier : PierNo) (bank : Fin 64) (off : BitVec 16) (bad : Bool)
  /-- R576: Each pier rescans its records to re-place keys whose buckets were lost. -/
  | bucketRescan (pier : PierNo)
  /-- R577: A course rebuild completes, the course retires and course-rebuilt is posted. -/
  | rebuildComplete (pier : PierNo)
  /-- R258: The fence of an invalidated entry passes and the write and validate steps run. -/
  | tableFenceWaitEnd (aseq : BitVec 32)
  /-- R259: The fence of a batch's invalidate step passes and all writes then all validates run.
  -/
  | batchFenceWaitEnd (aseq : BitVec 32)
  /-- R274: A direct-mode learn or move insertion completes or is refused for limit or space. -/
  | learnInsertDone (mac : Bytes) (ten : BitVec 16)
  /-- R275: A notify-mode pending-cache entry expires after PENDING_MS. -/
  | pendingEntryExpire (mac : Bytes) (ten : BitVec 16)
  /-- R276: A move candidate not confirmed within 4 × MOVE_HOLD_US is cleared. -/
  | moveCandidateExpire (mac : Bytes) (ten : BitVec 16)
  /-- R278: The MAC sweeper applies the two-pass ageing rule to a dynamic entry. -/
  | macSweepVisit (idx : Nat)
  /-- R288: The repointing engine compares an associative slot with its shadow and rewrites it if
  it differs. -/
  | repointCompare (inst : BitVec 8) (slot : Nat) (found : Bytes) (shadowBad : Bool)
  /-- R288: A granule of exact-match SRAM is read through SECDED and corrected data written back.
  -/
  | emScrubRead (id inst : BitVec 8) (idx : Nat) (r : ReadOutcome)
  /-- R330: A task enters a cluster's matching store and its operand fetches start. -/
  | taskArrive (src : TaskSrc)
  /-- R325: A declared operand arrives, or fails uncorrectably and faults the task. -/
  | operandArrive (task : Nat) (k : Fin 4) (ok : Bool)
  /-- R335: A ready task is dispatched to an idle enabled thread and its task area written. -/
  | taskDispatch (cluster : Fin 16)
  /-- R336: A MGMT thread is pre-empted at its next clean boundary and its context saved. -/
  | preempt (en : Fin 128) (t : Fin 8)
  /-- R337: A task ready for 256 cc with no idle thread requests the wake of a gated engine. -/
  | engineWakeRequest (cluster : Fin 16)
  /-- R308: The NOP instruction does nothing. -/
  | instrNop (en : Fin 128) (t : Fin 8)
  /-- R308: RD = RA + B on 64 bits. -/
  | add (en : Fin 128) (t : Fin 8)
  /-- R308: RD = RA − B on 64 bits. -/
  | sub (en : Fin 128) (t : Fin 8)
  /-- R308: RD = RA and B. -/
  | and (en : Fin 128) (t : Fin 8)
  /-- R308: RD = RA or B. -/
  | or (en : Fin 128) (t : Fin 8)
  /-- R308: RD = RA xor B. -/
  | xor (en : Fin 128) (t : Fin 8)
  /-- R308: RD = RA shifted left by B[5:0]. -/
  | shl (en : Fin 128) (t : Fin 8)
  /-- R308: RD = RA shifted right logically by B[5:0]. -/
  | shr (en : Fin 128) (t : Fin 8)
  /-- R308: RD = RA shifted right arithmetically by B[5:0]. -/
  | sar (en : Fin 128) (t : Fin 8)
  /-- R308: RD = low 64 bits of RA × B. -/
  | mul (en : Fin 128) (t : Fin 8)
  /-- R308: RD = high 64 bits of the unsigned product RA × B. -/
  | mulhu (en : Fin 128) (t : Fin 8)
  /-- R308: RD = the lesser of RA and B. -/
  | min (en : Fin 128) (t : Fin 8)
  /-- R308: RD = the greater of RA and B. -/
  | max (en : Fin 128) (t : Fin 8)
  /-- R308: RD = 1 if RA equals B, else 0. -/
  | seq (en : Fin 128) (t : Fin 8)
  /-- R308: RD = 1 if RA is less than B signed, else 0. -/
  | slt (en : Fin 128) (t : Fin 8)
  /-- R308: RD = 1 if RA is less than B unsigned, else 0. -/
  | sltu (en : Fin 128) (t : Fin 8)
  /-- R308: RD = IMM sign-extended. -/
  | movi (en : Fin 128) (t : Fin 8)
  /-- R308: RD[63:32] = IMM, low half unchanged. -/
  | movhi (en : Fin 128) (t : Fin 8)
  /-- R309: RD = flow_hash of 40 B of data memory with the selected polynomial and seed. -/
  | fhash (en : Fin 128) (t : Fin 8)
  /-- R308: RD = RA with byte order reversed in the selected width. -/
  | bswap (en : Fin 128) (t : Fin 8)
  /-- R308: PC = PC + IMM. -/
  | br (en : Fin 128) (t : Fin 8)
  /-- R308: Branch if RA equals RB. -/
  | beq (en : Fin 128) (t : Fin 8)
  /-- R308: Branch if RA differs from RB. -/
  | bne (en : Fin 128) (t : Fin 8)
  /-- R308: Branch if RA is less than RB signed. -/
  | blt (en : Fin 128) (t : Fin 8)
  /-- R308: Branch if RA is less than RB unsigned. -/
  | bltu (en : Fin 128) (t : Fin 8)
  /-- R308: RD = PC + 1 and PC = PC + IMM. -/
  | call (en : Fin 128) (t : Fin 8)
  /-- R308: PC = RA. -/
  | jmp (en : Fin 128) (t : Fin 8)
  /-- R308: Loads one byte of data memory into RD, zero-extended. -/
  | ld8 (en : Fin 128) (t : Fin 8)
  /-- R308: Loads 2 B of data memory into RD, zero-extended. -/
  | ld16 (en : Fin 128) (t : Fin 8)
  /-- R308: Loads 4 B of data memory into RD, zero-extended. -/
  | ld32 (en : Fin 128) (t : Fin 8)
  /-- R308: Loads 8 B of data memory into RD. -/
  | ld64 (en : Fin 128) (t : Fin 8)
  /-- R306: A data-memory load completes after 3 cc and its thread becomes READY. -/
  | loadComplete (en : Fin 128) (load : LoadEnd)
  /-- R308: Stores the low byte of RB to data memory. -/
  | st8 (en : Fin 128) (t : Fin 8)
  /-- R308: Stores the low 2 B of RB to data memory. -/
  | st16 (en : Fin 128) (t : Fin 8)
  /-- R308: Stores the low 4 B of RB to data memory. -/
  | st32 (en : Fin 128) (t : Fin 8)
  /-- R308: Stores RB to data memory. -/
  | st64 (en : Fin 128) (t : Fin 8)
  /-- R314: Stages a word in the thread's channel staging buffer. -/
  | chWr (en : Fin 128) (t : Fin 8)
  /-- R314: Stages the last word and commits the message, or blocks for room. -/
  | chCommit (en : Fin 128) (t : Fin 8)
  /-- R314: A commit blocked for room finds room and writes its whole message. -/
  | chCommitRoom (cl : Fin 17) (ch : Fin 64)
  /-- R315: Committed words become visible in a channel and blocked readers are served. -/
  | chWordsVisible (cl : Fin 17) (ch : Fin 64)
  /-- R316: Reads the next word of a channel, blocking while none is visible. -/
  | chRd (en : Fin 128) (t : Fin 8)
  /-- R316: Reads the next word of a channel without blocking. -/
  | chTry (en : Fin 128) (t : Fin 8)
  /-- R308: Discards the thread's staged words. -/
  | chDiscard (en : Fin 128) (t : Fin 8)
  /-- R319: Acquires a lock, blocking until granted. -/
  | lkAcq (en : Fin 128) (t : Fin 8)
  /-- R319: Tries to acquire a lock without blocking. -/
  | lkTry (en : Fin 128) (t : Fin 8)
  /-- R320: Releases a lock, granting it to the oldest waiter. -/
  | lkRel (en : Fin 128) (t : Fin 8)
  /-- R310: Probes the flow store for a key and writes the record found. -/
  | fsProbe (en : Fin 128) (t : Fin 8)
  /-- R310: Inserts a twinned record under R181 to R187. -/
  | fsInsert (en : Fin 128) (t : Fin 8)
  /-- R310: Writes bytes 80–109 of the record the task inserted or names. -/
  | fsWrite (en : Fin 128) (t : Fin 8)
  /-- R310: Starts the deletion of a record by key. -/
  | fsDelete (en : Fin 128) (t : Fin 8)
  /-- R310: Reads a configuration table entry under the current epoch. -/
  | tblRead (en : Fin 128) (t : Fin 8)
  /-- R240: Reads and subtracts a record's counts for a fold. -/
  | fsCounts (en : Fin 128) (t : Fin 8)
  /-- R240: Adds folded counts to the extension and tenant totals and closes the fold. -/
  | fsFoldAdd (en : Fin 128) (t : Fin 8)
  /-- R310: Reads up to 1,024 B of the policy region into data memory. -/
  | memRead (en : Fin 128) (t : Fin 8)
  /-- R310: A flow-store, table or policy operation completes and its thread becomes READY. -/
  | memoryOpComplete (en : Fin 128) (t : Fin 8) (r : ReadOutcome)
  /-- R311: Sends a frame from data memory to a destination as an engine frame. -/
  | frameSend (en : Fin 128) (t : Fin 8)
  /-- R308: Arms or disarms the thread's timer. -/
  | timerArm (en : Fin 128) (t : Fin 8)
  /-- R308: Blocks until the thread's timer expires. -/
  | timerWait (en : Fin 128) (t : Fin 8)
  /-- R303: A thread timer expires and a waiting thread becomes READY. -/
  | timerExpire (en : Fin 128) (t : Fin 8)
  /-- R308: RD = primary time in ns or coarse time. -/
  | timeRead (en : Fin 128) (t : Fin 8)
  /-- R312: Ends the task with its outcome or completion status. -/
  | taskEnd (en : Fin 128) (t : Fin 8)
  /-- R308: Halts the thread as a debugger halt with cause BREAK. -/
  | breakHalt (en : Fin 128) (t : Fin 8)
  /-- R308: An instruction with an unknown opcode faults the task. -/
  | illegalOp (en : Fin 128) (t : Fin 8)
  /-- R352: A requested halt takes effect at the thread's next instruction boundary. -/
  | threadHalt (en : Fin 128) (t : Fin 8)
  /-- R343: An engine blocked for 65,536 cc is declared stalled, its tasks withdrawn and replaced.
  -/
  | engineStall (en : Fin 128)
  /-- R344: A task in service longer than TASK_LIMIT_US is aborted as a fault. -/
  | taskLimit (en : Fin 128) (t : Fin 8)
  /-- R346: An instruction parity or uncorrectable data error acts as a stall and retires the
  engine. -/
  | engineFault (en : Fin 128) (cause : Fin 2) (addr : BitVec 32)
  /-- R349: A fault of a cluster's shared units loses its tasks and remaps the cluster if
  possible. -/
  | clusterFault (cl : Fin 16) (unit : Fin 3)
  /-- R347: A spare engine finishes loading and takes tasks for its logical engine. -/
  | spareLoaded (en : Fin 128)
  /-- R348: A stalled engine's self-test ends and it becomes a spare or is retired. -/
  | engineSelfTestDone (phys : Fin 136) (pass : Bool)
  /-- R368: A release of a cell is checked and decrements REFS, freeing the cell at 0. -/
  | cellRelease (cell : CellName) (party : BitVec 8)
  /-- R370: Every CENSUS_MS the cell census starts walking all cell headers. -/
  | censusWalkStart
  /-- R371: A census walk ends, sums are compared and a cell-leak event may be posted. -/
  | censusWalkEnd
  /-- R379: The replicator takes a frame from a replication queue and makes its member copies. -/
  | replicate
  /-- R382: At a frame boundary the scheduler selects the next frame of a subport and the egress
  rewrites it. -/
  | egressSelect (sub : SubNo)
  /-- R391: At the computed change time a new gate list takes effect. -/
  | gateListChange (sub : SubNo)
  /-- R391: A gate-list entry interval ends and the next entry's gate states apply. -/
  | gateEntryAdvance (sub : SubNo)
  /-- R465: PUNT DMA writes a frame into posted buffers once enough are available. -/
  | puntWrite (ring : Fin 16) (addrs : List (BitVec 64)) (readOk writeOk : Bool)
  /-- R467: A frame is read from an INJ ring and presented at the named slice's internal input. -/
  | injFetch (host : HostNo) (ring : Fin 16) (entry frame : Bytes) (entryOk frameOk : Bool)
  /-- R45: A MAC control frame is received and consumed, acted on, or counted as ignored or
  unsupported. -/
  | pauseFrameReceive (sub : SubNo) (op : BitVec 16) (params : Bytes)
  /-- R47: A received PAUSE or PFC reaches its effect point and starts, replaces or releases a
  pause. -/
  | pauseEffect (sub : SubNo)
  /-- R47: A pause time runs out and frames may start again. -/
  | pauseExpire (sub : SubNo) (prio : Fin 9)
  /-- R53: The MAC sends a PAUSE or PFC frame for XOFF or XON at the next frame boundary. -/
  | pauseSend (sub : SubNo)
  /-- R53: While XOFF persists the MAC resends after half the sent time. -/
  | pauseRepeat (sub : SubNo)
  /-- R57: A shed HELLO frame is received, making the peer answering and answered. -/
  | hello (sub : SubNo) (m : ShedMsg)
  /-- R57: Every 250 µs after link-up a subport resends HELLO until it receives one. -/
  | helloRetry (sub : SubNo)
  /-- R57: No HELLO within 1 ms makes the peer non-answering. -/
  | helloTimeout (sub : SubNo)
  /-- R59: A load window ends and a narrowing or widening REQ may be sent. -/
  | shedWindowEnd (sub : SubNo)
  /-- R60: A shed REQ is received and answered ACK or NAK. -/
  | req (sub : SubNo) (m : ShedMsg)
  /-- R60: A shed ACK is received, starting the switch delay or the widening. -/
  | ack (sub : SubNo) (m : ShedMsg)
  /-- R62: A shed NAK is received and the step is not taken. -/
  | nak (sub : SubNo) (m : ShedMsg)
  /-- R61: A shed READY is received for a widening step. -/
  | ready (sub : SubNo) (m : ShedMsg)
  /-- R63: An unanswered REQ is resent after 100 µs, suspending shedding after three. -/
  | reqRetry (sub : SubNo)
  /-- R60: At the end of the switch delay or READY wait both ends restart their PCS at the target
  width. -/
  | shedSwitch (sub : SubNo)
  /-- R60: Alignment is regained at the new width and frames resume. -/
  | alignmentRegained (sub : SubNo)
  /-- R61: Woken lanes lock and adapt and the end sends READY. -/
  | lanesLocked (sub : SubNo)
  /-- R61: READY not exchanged within 200 µs of ACK abandons the widening. -/
  | widenTimeout (sub : SubNo) (unlocked : List LaneNo)
  /-- R67: The transmitter enters low-power idle after EEE_IDLE with nothing to send. -/
  | lpiEntry (sub : SubNo)
  /-- R67: EEE_TW_TX after the exit starts, the first frame begins. -/
  | lpiWakeEnd (sub : SubNo)
  /-- R69: A fault lasting 1 µs takes the link down, freezes queues and starts the hold (R76: `far`). -/
  | linkDown (loss : LinkLoss)
  /-- R71: The PCS aligned with no fault for 10 µs brings the link up and queues resume. -/
  | linkUp (sub : SubNo)
  /-- R72: The hold timer expires and the subport's queues are flushed. -/
  | holdExpire (sub : SubNo)
  /-- R73: A link up for HOLD_US has its hold timer reloaded to full. -/
  | holdReload (sub : SubNo)
  /-- R75: A lane that loses lock for over 1 ms fails and recovery begins. -/
  | laneFail (lane : LaneNo)
  /-- R75: A 1-ms corrected-symbol window ends and three over the limit fail the lane. -/
  | laneSerWindowEnd (lane : LaneNo) (symbols : Nat)
  /-- R76: A width-1 recovery trial not up within 100 µs moves to the next lane. -/
  | recoveryTrialTimeout (sub : SubNo)
  /-- R39: Takes a port's subports down, flushes them and retrains in the new mode and lane map.
  -/
  | portMode (c : Cmd) (port : BitVec 16) (mode : BitVec 8) (laneMap : BitVec 32)
  /-- R74: Takes a subport administratively down with a flush, or brings it up. -/
  | subportAdmin (c : Cmd) (sub : BitVec 16) (dir : BitVec 8)
  /-- R78: Enables or suspends shedding, or forces a width. -/
  | shedCtrl (c : Cmd) (sub : BitVec 16) (enable width : BitVec 8)
  /-- R78: Retires or restores a lane. -/
  | laneSet (c : Cmd) (port : BitVec 16) (lane op : BitVec 8)
  /-- R78: Returns the link state, width and lane health of each subport. -/
  | portStatus (c : Cmd) (port : BitVec 16)
  /-- R132: Checks and loads a microcode image into every standby bank. -/
  | seqLoad (c : Cmd) (image : ImageLoc)
  /-- R133: Makes every standby bank live at the next epoch boundary. -/
  | seqSwap (c : Cmd)
  /-- R133: The last frame of an earlier epoch leaves every sequencer and SEQ_SWAP completes. -/
  | seqSwapDrained
  /-- R152: Returns a slice's state, banks, head-queue depths and contexts in use. -/
  | sliceStatus (c : Cmd) (slice : BitVec 16)
  /-- R152: Returns a tenant's deadline bucket, refusal state and totals. -/
  | dlBudgetStatus (c : Cmd) (ten : BitVec 16)
  /-- R209: Draws new seeds, applies geometry and tier B, invalidates all entries and rebuilds
  free lists. -/
  | fsFormat (c : Cmd)
  /-- R209: Returns a record, its extension, tier and slot. -/
  | flowRead (c : Cmd) (key : Bytes) (addr : BitVec 64)
  /-- R209: Returns a pier's occupancy and error figures. -/
  | fsStatus (c : Cmd) (pier : BitVec 8)
  /-- R209: Returns a tenant's miss bucket, tier-B count and totals. -/
  | fsTenantStatus (c : Cmd) (ten : BitVec 16)
  /-- R209: Demotes a record by key under R200. -/
  | flowDemote (c : Cmd) (key : Bytes)
  /-- R254: Inserts a 128-B record from host memory. -/
  | flowInsert (c : Cmd) (record : Bytes)
  /-- R254: Deletes a record by key with reason COMMAND. -/
  | flowDelete (c : Cmd) (key : Bytes)
  /-- R254: Deletes every record of a tenant with reason PURGE. -/
  | tenantPurge (c : Cmd) (ten : BitVec 16)
  /-- R254: Writes one entry of a policy table. -/
  | policyWrite (c : Cmd) (table : BitVec 16) (idx : BitVec 32) (data : Bytes)
  /-- R254: Returns a tenant's accounting totals, count and bucket. -/
  | tenantAccount (c : Cmd) (ten : BitVec 16)
  /-- R258: Updates one configuration table entry by invalidate, write and validate. -/
  | tableWrite (c : Cmd) (table : BitVec 16) (idx : BitVec 32) (key entry : Bytes)
  /-- R258: Deletes one configuration table entry. -/
  | tableDelete (c : Cmd) (table : BitVec 16) (idx : BitVec 32) (key : Bytes)
  /-- R259: Applies up to 4,096 entry operations on one instance as one change. -/
  | tableBatch (c : Cmd) (list : Bytes) (count : BitVec 16)
  /-- R296: Returns an entry, its state, stamp and shadow. -/
  | tableRead (c : Cmd) (table : BitVec 16) (idx : BitVec 32) (key : Bytes) (addr : BitVec 64)
  /-- R293: Samples every table digest and the register-set digest in one cycle. -/
  | digestRead (c : Cmd) (addr : BitVec 64)
  /-- R296: Removes matching dynamic MAC entries. -/
  | macFlush (c : Cmd) (sub ten : Option (BitVec 16))
  /-- R356: Stops dispatch to a logical engine. -/
  | engDrain (c : Cmd) (en : BitVec 16)
  /-- R356: Every thread of a draining engine is IDLE and ENG_DRAIN completes. -/
  | engDrained (en : Fin 128)
  /-- R356: Loads a drained engine from a checked image and stores it. -/
  | engLoad (c : Cmd) (en : BitVec 16) (image : ImageLoc)
  /-- R356: Returns a drained engine to dispatch. -/
  | engResume (c : Cmd) (en : BitVec 16)
  /-- R356: Returns an engine's mapping, image and thread states. -/
  | engStatus (c : Cmd) (en : BitVec 16)
  /-- R356: Returns a cluster's scheduler figures. -/
  | schedStatus (c : Cmd) (cl : BitVec 8)
  /-- R352: Requests a halt of threads. -/
  | dbgHalt (c : Cmd) (en : BitVec 16) (mask : BitVec 8)
  /-- R352: Issues one instruction of a halted thread. -/
  | dbgStep (c : Cmd) (en : BitVec 16) (t : BitVec 8)
  /-- R352: Resumes halted threads. -/
  | dbgResume (c : Cmd) (en : BitVec 16) (mask : BitVec 8)
  /-- R356: Returns a thread's registers or data range. -/
  | dbgRead (c : Cmd) (en : BitVec 16) (t kind : BitVec 8) (start len : BitVec 32) (addr : BitVec 64)
  /-- R356: Writes a halted thread's registers or engine data memory. -/
  | dbgWrite (c : Cmd) (en : BitVec 16) (t kind : BitVec 8) (start : BitVec 32) (data : Bytes)
  /-- R354: Releases a lock held by a halted thread. -/
  | dbgLockRelease (c : Cmd) (cl lock : BitVec 8)
  /-- R356: Ends a halted thread's task as a DEBUG_ABORT fault. -/
  | dbgAbort (c : Cmd) (en : BitVec 16) (t : BitVec 8)
  /-- R402: Returns a queue's depth, shaper state and counters. -/
  | queueStatus (c : Cmd) (queue : BitVec 16)
  /-- R402: Returns buffer occupancy, drops and census sums. -/
  | bufStatus (c : Cmd)
  /-- R402: Returns a policer's bucket levels and counters. -/
  | policerRead (c : Cmd) (idx : BitVec 32)
  /-- R402: Returns a subport's gate schedule state. -/
  | gateStatus (c : Cmd) (sub : BitVec 16)
  /-- R410: Applies one servo sample, stepping in ACQUIRE or adjusting the rate. -/
  | timeOffset (c : Cmd) (dom : BitVec 8) (off : BitVec 64)
  /-- R409: Puts a domain into ACQUIRE. -/
  | timeAcquire (c : Cmd) (dom : BitVec 8)
  /-- R413: Makes the alternate domain primary without a step. -/
  | timeSwitch (c : Cmd)
  /-- R429: Returns both domain times, primary time, states and r. -/
  | timeStatus (c : Cmd) (addr : BitVec 64)
  /-- R422: Configures a time-pulse output. -/
  | timePulse (c : Cmd) (out role mode : BitVec 8) (secs : BitVec 64) (ns period width : BitVec 32) (polarity : BitVec 8)
  /-- R424: Arms or disarms a capture input. -/
  | timeCapture (c : Cmd) (inp edges role enable : BitVec 8)
  /-- R409: No sample for HOLDOVER puts a domain into HOLDOVER. -/
  | holdoverTimeout (dom : Fin 2)
  /-- R422: A time-pulse output reaches an edge time and switches, or a new pattern takes effect.
  -/
  | pulseEdge (out : Fin 4)
  /-- R425: The PPS output begins a pulse at a whole second of primary time. -/
  | ppsEdge
  /-- R424: A recognised capture edge writes a CAPTURE record. -/
  | captureEdge (inp : Fin 4) (falling : Bool)
  /-- R441: A doorbell write moves software's ring index or stops the ring as BAD_DOORBELL. -/
  | doorbell (host : HostNo) (page : Fin 184) (off : BitVec 12) (size : Nat) (v : BitVec 32)
  /-- R439: Setting RING_CFG.ENABLE starts a ring with both indexes at 0. -/
  | ringEnable (m : Master) (host : HostNo) (page : Fin 184) (v : BitVec 32)
  /-- R444: Clearing RING_CFG.ENABLE stops the ring with cause DISABLED. -/
  | ringDisable (m : Master) (host : HostNo) (page : Fin 184) (v : BitVec 32)
  /-- R447: The command processor fetches a descriptor and accepts it with an ASEQ or completes it
  NOT_OWNER. -/
  | commandAccept (src : Source) (desc : Bytes) (ok : Bool)
  /-- R440: MOD_TIME after the first unsignalled entry an MSI-X message is sent. -/
  | interruptModerationExpire (host : HostNo) (page : Fin 184)
  /-- R455: A chain-word read returns and the device continues, re-reads or goes idle. -/
  | chainWordReturn (chain : ChainNo) (word : BitVec 64) (desc : Bytes) (ok : Bool)
  /-- R436: An FLR, hot reset or link-down stops the port's rings and may end ownership. -/
  | hostPortReset (host : HostNo) (cause : Fin 4)
  /-- R436: The host link returns to L0 or the function is ready and host-link-up is posted. -/
  | hostLinkUp (host : HostNo) (rate width : BitVec 8)
  /-- R437: The management master writes a command descriptor to the mailbox. -/
  | mailboxWrite (desc : Bytes)
  /-- R472: An I3C bus reset ends the management master's ownership as a path loss. -/
  | i3cBusReset
  /-- R470: Writing OWN_BID.BID as 1 records a standing bid and may open a window. -/
  | bidRecord (m : Master) (v : BitVec 32)
  /-- R470: Writing OWN_BID.BID as 0 withdraws the standing bid. -/
  | bidWithdraw (m : Master) (v : BitVec 32)
  /-- R472: The owner writes OWN_CTRL.RENEW and its lease restarts. -/
  | renew (m : Master) (v : BitVec 32)
  /-- R472: The owner writes OWN_CTRL.RELEASE and gives up ownership. -/
  | release (m : Master) (v : BitVec 32)
  /-- R473: The owner writes OWN_CTRL.GRANT and ownership passes to a standing bidder. -/
  | grant (m : Master) (v : BitVec 32)
  /-- R471: A 1-ms bid window closes and the best standing bid becomes owner. -/
  | bidWindowClose
  /-- R472: The owner's lease runs out and a vacancy arises. -/
  | leaseExpire
  /-- R453: Returns a ring's state, cause, indexes and counts. -/
  | ringStatus (c : Cmd) (host type : BitVec 8) (ring : BitVec 8)
  /-- R453: Returns a host port's link, AER and counts. -/
  | hostStatus (c : Cmd) (host : BitVec 8)
  /-- R453: Command with no effect, completing OK. -/
  | nop (c : Cmd)
  /-- R482: Setting DMA_CH_CFG.ENABLE starts a channel at DMA_CH_CHAIN. -/
  | dmaEnable (m : Master) (ch : Fin 32) (v : BitVec 32)
  /-- R491: Clearing DMA_CH_CFG.ENABLE requests the channel's disable. -/
  | dmaDisable (m : Master) (ch : Fin 32) (v : BitVec 32)
  /-- R491: At a burst boundary the disable is sampled, bursts dropped and the descriptor ended
  DONE or DROPPED. -/
  | dmaDisableSample (ch : Fin 32)
  /-- R489: The DMA engine grants a burst to a channel and issues its read. -/
  | dmaBurstGrant
  /-- R488: A burst's read data returns and its write is issued, or an error ends the descriptor.
  -/
  | dmaReadData (ch : Fin 32) (burst : Nat) (src dst : Bytes) (ok poison : Bool) (r r2 : ReadOutcome)
  /-- R490: A burst's write response arrives and the descriptor may end and be consumed. -/
  | dmaWriteResponse (ch : Fin 32) (burst : Nat) (ok : Bool)
  /-- R482: Sets a DMA channel's pending bit. -/
  | dmaKick (c : Cmd) (ch : BitVec 16)
  /-- R511: Returns a DMA channel's status. -/
  | dmaStatus (c : Cmd) (ch : BitVec 16)
  /-- R511: Returns an LPDDR6 channel's state and counts. -/
  | ddrStatus (c : Cmd) (ch : BitVec 16)
  /-- R506: Starts a full retraining of a channel. -/
  | ddrRetrain (c : Cmd) (ch : BitVec 16)
  /-- R508: Retires an LPDDR6 channel. -/
  | ddrRetire (c : Cmd) (ch : BitVec 16)
  /-- R503: A 1-s corrected-error window of a channel ends and may fault it. -/
  | ddrCeWindowEnd (ch : Fin 32)
  /-- R506: A retraining step suspends a channel for at most 2 µs. -/
  | retrainStep (ch : Fin 32) (ok : Bool)
  /-- R506: Oscillator tracking reports drift beyond limit and starts full retraining. -/
  | driftReport (ch : Fin 32)
  /-- R501: A bank row idle for PAGE_IDLE × 8 cc is closed. -/
  | rowIdleClose (ch : Fin 32) (sub : Fin 2) (bank : BitVec 16)
  /-- R499: A refresh at the postponement limit goes before all requests. -/
  | refreshDue (ch : Fin 32) (sub : Fin 2) (bank : BitVec 16)
  /-- R508: A granule of a retiring channel is copied into the band and redirected. -/
  | evacuationCopy (ch : Fin 32) (r : ReadOutcome)
  /-- R520: A wake request for a block is queued, or merged with its parent's. -/
  | wakeRequest (kind : BlockKind) (nums : List Nat) (substitution : Bool)
  /-- R522: The sequencer grants the head request when the budget holds its credits. -/
  | wakeGrant
  /-- R521: The credits of a grant return to the budget 100 fc later. -/
  | creditReturn
  /-- R517: A woken block becomes ready at its exit latency. -/
  | blockReady (kind : BlockKind) (num : Nat)
  /-- R525: A block not ready at its exit latency posts wake-late, or fails after a second. -/
  | wakeLate (kind : BlockKind) (num : Nat)
  /-- R518: A block whose entry condition has held enters its sleep state. -/
  | sleepEntry (kind : BlockKind) (num : Nat) (power : Bool)
  /-- R527: Every 10 µs the monitors sample sensors and rails and raise thermal or rail events. -/
  | healthSample (temps : List Int) (rails : List Nat) (bad : List Nat)
  /-- R529: Returns a block's power state. -/
  | powerStatus (c : Cmd) (kind : BitVec 8) (num : BitVec 16)
  /-- R529: Queues a wake request for a block. -/
  | powerWake (c : Cmd) (kind : BitVec 8) (num : BitVec 16)
  /-- R529: Holds a block awake or releases the hold. -/
  | powerHold (c : Cmd) (kind : BitVec 8) (num : BitVec 16) (hold : BitVec 8)
  /-- R529: Returns every sensor and rail reading. -/
  | healthStatus (c : Cmd) (addr : BitVec 64)
  /-- R529: Returns the wake queue and credit figures. -/
  | wakeStatus (c : Cmd)
  /-- R537: An Izral HELLO cell is received and the link is put in service or MISMATCH. -/
  | bondHello (sub : SubNo) (cell : Bytes) (crcOk : Bool)
  /-- R537: Every 10 µs a bond link sends HELLO. -/
  | bondHelloSend (sub : SubNo)
  /-- R537: A bond link receiving no cell for 50 µs leaves service. -/
  | bondLinkSilence (sub : SubNo)
  /-- R536: A CREDIT cell grants further credit to the peer. -/
  | credit (sub : SubNo) (cell : Bytes) (crcOk : Bool)
  /-- R532: A LINK cell carrying a shed handshake frame is received. -/
  | link (sub : SubNo) (cell : Bytes) (crcOk : Bool)
  /-- R544: A SEED cell delivers SEED_S to a member. -/
  | seed (sub : SubNo) (cell : Bytes) (crcOk : Bool)
  /-- R540: A DELIVER frame is admitted at the bond port's home slice and forwarded from its
  prefix. -/
  | deliver (sub : SubNo) (cells : List (Bytes × Bool))
  /-- R545: A STEER frame is admitted at the owner and handled as a local frame. -/
  | steer (sub : SubNo) (cells : List (Bytes × Bool))
  /-- R549: A RECORD cell is applied in sequence on the partner and acknowledged. -/
  | record (sub : SubNo) (cell : Bytes) (crcOk : Bool)
  /-- R549: A RECORD_ACK is received and held frames may be released. -/
  | recordAck (sub : SubNo) (cell : Bytes) (crcOk : Bool)
  /-- R557: A RELAY cell carries a relayed command, completion or event. -/
  | relay (sub : SubNo) (cell : Bytes) (crcOk : Bool)
  /-- R549: A RECORD cell unacknowledged after ACK_US is resent or mirror-lost posted. -/
  | mirrorAckTimeout (dev : Fin 4) (seq : BitVec 32)
  /-- R551: An ALIVE_IN input changes level. -/
  | aliveInChange (dev : Fin 4) (level : Bool)
  /-- R553: A member unreachable for LOSS_US is declared lost or the stack partitioned. -/
  | memberLoss (dev : Fin 4)
  /-- R561: Forms a stack: chooses the quoin, sends SEED_S and applies MODE. -/
  | stackForm (c : Cmd)
  /-- R561: Admits a formatted member to the stack. -/
  | stackJoin (c : Cmd) (dev : BitVec 8)
  /-- R561: Lowers ALIVE and takes bond links out of service. -/
  | stackLeave (c : Cmd)
  /-- R557: Relays a command to another member. -/
  | stackRelay (c : Cmd) (dev : BitVec 8) (descAddr resAddr : BitVec 64) (desc payload : Bytes) (readOk : Bool)
  /-- R561: Copies data into a member's staging SRAM. -/
  | stackStage (c : Cmd) (dev space : BitVec 8) (addr stage : BitVec 64) (len : BitVec 32) (data : Bytes) (readOk : Bool) (r : ReadOutcome)
  /-- R558: Moves a map entry to a new owner. -/
  | stackMove (c : Cmd) (entry dev : BitVec 8)
  /-- R559: Compares digests of every member. -/
  | stackDigest (c : Cmd) (addr : BitVec 64)
  /-- R561: Returns the stack's mode, quoin, links and backlog. -/
  | stackStatus (c : Cmd)
  /-- R570: The switch target begins admitting once the source holds no unverdicted frame of the
  group. -/
  | sliceSwitchAdmit
  /-- R569: A returning slice's self-test ends and the group moves back or the slice retires. -/
  | sliceSelfTestDone (pass : Bool)
  /-- R580: A lane recalibration ends and LANE_RECAL completes. -/
  | recalibrationDone (lane : LaneNo) (pass : Bool)
  /-- R585: The reclaim walk ends, cells are freed and CELL_RECLAIM completes. -/
  | reclaimWalkEnd
  /-- R565: A device-fatal fault records its cause and raises a footing reset. -/
  | deviceFatal (code : Fin 4)
  /-- R587: Returns the fault state of every unit. -/
  | faultStatus (c : Cmd) (addr : BitVec 64)
  /-- R570: Switches a group to S16 or returns it. -/
  | sliceSwitch (c : Cmd) (slice dir : BitVec 8)
  /-- R572: Maps a logical cluster onto physical cluster 16. -/
  | clusterRemap (c : Cmd) (cl : BitVec 8)
  /-- R573: Retires a course and rebuilds it onto course 6. -/
  | courseRetire (c : Cmd) (pier course : BitVec 8)
  /-- R580: Recalibrates one lane of a port. -/
  | laneRecal (c : Cmd) (port : BitVec 16) (lane force : BitVec 8)
  /-- R581: Switches a port's SerDes to the staged firmware and retrains it. -/
  | serdesApply (c : Cmd) (port : BitVec 16)
  /-- R585: Recovers the leaked cells of one owner tag. -/
  | cellReclaim (c : Cmd) (tag : BitVec 8)
  /-- R592: The footing controller finishes checking a copied image and loads it or rejects it. -/
  | imageCheckDone (image cert : Bytes)
  /-- R606: Checks and stages a SerDes image. -/
  | serdesLoad (c : Cmd) (image : ImageLoc)
  /-- R597: Checks a footing image and writes it to the idle flash slot. -/
  | fwFlash (c : Cmd) (image : ImageLoc)
  /-- R598: Starts the most recently checked footing image. -/
  | fwActivate (c : Cmd)
  /-- R598: The new footing image reports ready after a restart. -/
  | footingRestartReady
  /-- R598: A new footing image not ready within 100 ms is replaced by the previous one. -/
  | footingFallback
  /-- R603: Produces a signed attestation quote. -/
  | attestQuote (c : Cmd) (nonce : Bytes) (addr : BitVec 64)
  /-- R606: Returns measurement-log entries. -/
  | logRead (c : Cmd) (first : BitVec 32) (count : BitVec 8) (addr : BitVec 64)
  /-- R606: Returns the serial number, identity key and certificate. -/
  | idRead (c : Cmd) (addr : BitVec 64)
  /-- R606: Returns the state of every image. -/
  | imgStatus (c : Cmd) (addr : BitVec 64)
  /-- R611: Samples one counter group. -/
  | counterRead (c : Cmd) (kind : BitVec 8) (num : BitVec 32) (clearWrap : BitVec 8) (addr : BitVec 64)
  /-- R613: Samples up to 64 counter groups in list order. -/
  | counterScan (c : Cmd) (list : Bytes) (count clearWrap : BitVec 8) (addr : BitVec 64)
  /-- R616: Starts, stops or zeroes performance counters. -/
  | pmcControl (c : Cmd) (mask : BitVec 64) (action : BitVec 8) (start : BitVec 64)
  /-- R616: At the given start time the counters of a START mask begin counting. -/
  | pmcStartTime
  /-- R617: Samples all 64 performance counters. -/
  | pmcRead (c : Cmd) (addr : BitVec 64)
  /-- R618: Makes a requested export of a record. -/
  | flowExport (c : Cmd) (key : Bytes)
  /-- R627: VDD_FOOT rising or FOOT_RST_N low resets the whole device. -/
  | footingReset (powerOn : Bool)
  /-- R661: FOOTCLK stopped for 1 µs takes the footing reset. -/
  | footclkLoss
  /-- R632: The footing reset is released, straps latched and the boot begins. -/
  | footingResetRelease (straps : Straps) (slotA slotB cert : Bytes) (hot : Bool)
  /-- R629: Sensors below 100 °C for 10 ms release a held boot. -/
  | thermalBootHoldEnd
  /-- R659: A rail enters range and the next enable step begins 100 µs later. -/
  | railInRange (rail : Fin 7)
  /-- R659: A rail not in range within 2 ms fails the boot. -/
  | railTimeout (rail : Fin 7)
  /-- R636: Writing BOOT_PUSH_CTRL.GO reads and checks the pushed footing image. -/
  | bootPushGo (m : Master) (certLen : BitVec 14)
  /-- R634: The boot self-test of a unit ends and failing units are substituted. -/
  | bootSelfTestDone (unit : TestUnit) (pass : Bool)
  /-- R635: The boot directory images are loaded and BOOT_STATUS shows READY. -/
  | bootReady (directory : List (BitVec 8 × Bytes))
  /-- R641: Returns the latched straps, boot status and boot results. -/
  | bootInfo (c : Cmd) (addr : BitVec 64)
  /-- R638: Opens slices in stateless or full form. -/
  | trafficOpen (c : Cmd) (mask : BitVec 16) (form : BitVec 8)
  /-- R641: Requests a core reset 10 µs after acceptance. -/
  | coreReset (c : Cmd)
  /-- R627: A core reset resets everything outside the footing domain. -/
  | coreResetBegin
  /-- R209: FS_FORMAT finishes within 1 ms of its start, completes, and round 0 of the sweeper
  begins. -/
  | fsFormatComplete
  /-- R185: 192 cc after a move takes an index entry back into its primary bucket, the spill count
  of that bucket is decremented. -/
  | spillCountDecrement (bucket : Nat)
  /-- R599: An owner write of a spreading-profile HASH_KEY word appends a measurement-log entry
  and changes the seed commitment. -/
  | hashKeyWrite (m : Master) (k : Fin 64) (w : Fin 13) (v : BitVec 32)
  /-- R442: Software unmasks an MSI-X vector whose pending bit is set, and the device sends the
  pending message. -/
  | msixUnmask (host : HostNo) (vector : BitVec 8)
  /-- R505: Boot training of the LPDDR6 channels ends, retiring failed channels or failing the
  boot if more than four fail. -/
  | bootTrainingDone (density : Fin 5) (twoRanks : Bool) (failed : List (Fin 32))
  /-- R597: The write of a checked footing image to the idle flash slot and its read-back
  comparison end, and FW_FLASH completes OK or with ERROR detail 4. -/
  | flashWriteComplete (ok : Bool)
  /-- R603: The identity-key signature of an attestation quote is finished, and the quote is
  written and ATTEST_QUOTE completes. -/
  | quoteSigned
  deriving DecidableEq, Repr

end Sys2Proof
end

