-- ==== Sys2Proof/Decode.lean ====
section
/-! DEFINITION. The reading of a word of the opcode table as a command.  Every row of the table has an
empty list of fields: commands reach the block as operations and events, not as words. -/

namespace Sys2Proof

/-- The command that a word spells by the table's bits.  No row of the table gives bits, so no word
spells a command. -/
def decodeTableWord (_nbits _w : Nat) : Option Instr := none

end Sys2Proof
end

