-- ==== Sys2Proof/Machine/Store.lean ====
section
/-! DEFINITION. Reading and writing sparse stores, memories and byte strings.  One definition each for
byte order (R10), and one canonical form for every store. -/

namespace Sys2Proof.Machine

/-- The value at a key of a store whose unlisted keys read as `d`. -/
def getAt {α : Type} (d : α) : Store α → Nat → α
  | [], _ => d
  | (k, v) :: m, n => if k = n then v else getAt d m n

/-- Puts an entry into a store in key order; `none` removes the key's entry. -/
def putAt {α : Type} (n : Nat) (v : Option α) : Store α → Store α
  | [] => match v with
    | some x => [(n, x)]
    | none => []
  | (k, w) :: m =>
    if n < k then
      match v with
      | some x => (n, x) :: (k, w) :: m
      | none => (k, w) :: m
    else if k = n then
      match v with
      | some x => (n, x) :: m
      | none => m
    else (k, w) :: putAt n v m

/-- Writes a key of a store whose unlisted keys read as `d`: writing `d` removes the entry. -/
def setAt {α : Type} [DecidableEq α] (d : α) (m : Store α) (n : Nat) (v : α) : Store α :=
  if v = d then putAt n none m else putAt n (some v) m

/-- Changes the value at a key. -/
def modAt {α : Type} [DecidableEq α] (d : α) (m : Store α) (n : Nat) (f : α → α) : Store α :=
  setAt d m n (f (getAt d m n))

/-- A store of optional things: the thing at a key. -/
def findAt {α : Type} : Store α → Nat → Option α
  | [], _ => none
  | (k, v) :: m, n => if k = n then some v else findAt m n

/-- The keys of a store rise strictly, and every one lies above `lo`. -/
def risesFrom {α : Type} (lo : Nat) : Store α → Bool
  | [] => true
  | (k, _) :: m => decide (lo ≤ k) && risesFrom (k + 1) m

/-- The canonical form of a store whose unlisted keys read as `d`. -/
def storeWf {α : Type} [DecidableEq α] (d : α) (m : Store α) : Bool :=
  risesFrom 0 m && m.all (fun e => decide (e.2 ≠ d))

/-- A memory of bytes: listed addresses hold their byte, every other address reads 0 (log 8). -/
abbrev Memory := List (Nat × BitVec 8)

/-- The canonical form of a memory. -/
def Memory.wf (m : Memory) : Bool := storeWf (0 : BitVec 8) m

/-- One byte of a memory. -/
def Memory.read (m : Memory) (a : Nat) : BitVec 8 := getAt 0 m a

/-- Writes one byte of a memory. -/
def Memory.write (m : Memory) (a : Nat) (b : BitVec 8) : Memory := setAt 0 m a b

/-- `n` bytes from an address on. -/
def Memory.readN (m : Memory) (a : Nat) : Nat → Bytes
  | 0 => []
  | n + 1 => m.read a :: Memory.readN m (a + 1) n

/-- Writes bytes from an address on. -/
def Memory.writeN (m : Memory) (a : Nat) : Bytes → Memory
  | [] => m
  | b :: bs => Memory.writeN (m.write a b) (a + 1) bs

/-- The byte of a string at an offset; 0 beyond its end. -/
def byteAt (bs : Bytes) (i : Nat) : Byte := bs.getD i 0

/-- `n` bytes of a string from an offset on; 0 beyond its end. -/
def cut (bs : Bytes) (off n : Nat) : Bytes :=
  (bs.drop off).take n ++ List.replicate (n - ((bs.drop off).take n).length) 0

/-- A string with `new` written over it from an offset on; the string grows with zeros as needed. -/
def paste (bs : Bytes) (off : Nat) (new : Bytes) : Bytes :=
  cut bs 0 off ++ new ++ bs.drop (off + new.length)

/-- The value of a string, least significant byte first (R10). -/
def leVal : Bytes → Nat
  | [] => 0
  | b :: bs => b.toNat + 256 * leVal bs

/-- The value of a string, most significant byte first (network byte order, R10). -/
def beVal (bs : Bytes) : Nat := bs.foldl (fun n b => n * 256 + b.toNat) 0

/-- `n` bytes of a value, least significant first. -/
def le : Nat → Nat → Bytes
  | 0, _ => []
  | n + 1, v => BitVec.ofNat 8 v :: le n (v / 256)

/-- `n` bytes of a value, most significant first. -/
def be (n v : Nat) : Bytes := (le n v).reverse

/-- A little-endian field of a string: offset and size. -/
def leAt (bs : Bytes) (off n : Nat) : Nat := leVal (cut bs off n)

/-- A big-endian field of a string: offset and size. -/
def beAt (bs : Bytes) (off n : Nat) : Nat := beVal (cut bs off n)

/-- Bits `lo` to `lo + w - 1` of a value. -/
def bits (v lo w : Nat) : Nat := v / 2 ^ lo % 2 ^ w

/-- One bit of a value. -/
def bit (v i : Nat) : Bool := bits v i 1 == 1

/-- A value with bits `lo` to `lo + w - 1` replaced. -/
def putBits (v lo w x : Nat) : Nat := v - 2 ^ lo * bits v lo w + 2 ^ lo * (x % 2 ^ w)

/-- 1 for true. -/
def flag (b : Bool) : Nat := if b then 1 else 0

/-- The largest value of `w` bits that does not pass `2^w - 1`. -/
def satAdd (w a b : Nat) : Nat := min (a + b) (2 ^ w - 1)

/-- The two's complement value of `w` bits as an integer. -/
def toSigned (w v : Nat) : Int :=
  if v % 2 ^ w < 2 ^ (w - 1) then (v % 2 ^ w : Nat) else ((v % 2 ^ w : Nat) : Int) - (2 ^ w : Nat)

/-- An integer as `w` bits, two's complement. -/
def ofSigned (w : Nat) (x : Int) : Nat := (x % ((2 ^ w : Nat) : Int)).toNat

/-- Integer division rounded to the nearest, halves away from zero (R410). -/
def roundDiv (x : Int) (d : Nat) : Int :=
  if 0 ≤ x then (2 * x + d) / (2 * (d : Int)) else -((2 * (-x) + d) / (2 * (d : Int)))

/-- The least of the list for which the test holds. -/
def firstThat (p : Nat → Bool) : List Nat → Option Nat
  | [] => none
  | n :: ns => if p n then some n else firstThat p ns

/-- A list with the first element that meets the test taken out, and that element. -/
def takeFirst {α : Type} (p : α → Bool) : List α → Option (α × List α)
  | [] => none
  | x :: xs =>
    if p x then some (x, xs)
    else match takeFirst p xs with
      | some (y, ys) => some (y, x :: ys)
      | none => none

/-- The numbers from `a` to `a + n - 1`. -/
def upFrom (a n : Nat) : List Nat := (List.range n).map (a + ·)

/-- The difference of two free-running indexes of `w` bits. -/
def wrapSub (w a b : Nat) : Nat := (a + 2 ^ w - b % 2 ^ w) % 2 ^ w

end Sys2Proof.Machine
end

