-- ==== Sys2Proof/Machine/Hash.lean ====
section
/-! DEFINITION. The hash functions that the spec names: the flow hash of R167, the Toeplitz hash of R104
and SHA-384 (R291, R599). -/

namespace Sys2Proof.Machine

/-- POLY_A of R167. -/
def polyA : BitVec 64 := 0x42F0E1EBA9EA3693

/-- POLY_B of R167. -/
def polyB : BitVec 64 := 0xAD93D23594C935A9

/-- Shifts a CRC by n bits, msb first (R167). -/
def crcBits (poly : BitVec 64) : Nat → BitVec 64 → BitVec 64
  | 0, c => c
  | n + 1, c => crcBits poly n (if c.getMsbD 0 then (c <<< 1) ^^^ poly else c <<< 1)

/-- The flow hash over key bytes in order, from a seed, without final inversion (R167). -/
def flowHash (key : Bytes) (poly seed : BitVec 64) : BitVec 64 :=
  key.foldl (fun (c : BitVec 64) (b : Byte) => crcBits poly 8 (c ^^^ (b.setWidth 64 <<< (56 : Nat)))) seed

/-- The flow hash folded over rows of 40 B (R190). -/
def flowHashRows (bs : Bytes) (poly seed : BitVec 64) : BitVec 64 := flowHash bs poly seed

/-- Bit i of a byte string, the most significant bit of byte 0 first. -/
def msbAt (bs : Bytes) (i : Nat) : Bool := (byteAt bs (i / 8)).getMsbD (i % 8)

/-- The 32 bits of a byte string from bit i on, the most significant bit first. -/
def window32 (bs : Bytes) (i : Nat) : BitVec 32 :=
  (List.range 32).foldl (fun w k => (w <<< 1) ||| (if msbAt bs (i + k) then 1 else 0)) 0

/-- The Toeplitz hash of an input under a key: the exclusive or of the key's 32-bit windows at the set
bits of the input (R104). -/
def toeplitz (key input : Bytes) : BitVec 32 :=
  (List.range (8 * input.length)).foldl
    (fun h i => if msbAt input i then h ^^^ window32 key i else h) 0

/-- The 80 round constants of SHA-384 (FIPS 180-4), four in each number, the first in its highest bits. -/
def shaTable : List Nat :=
  [0x428a2f98d728ae22_7137449123ef65cd_b5c0fbcfec4d3b2f_e9b5dba58189dbbc,
   0x3956c25bf348b538_59f111f1b605d019_923f82a4af194f9b_ab1c5ed5da6d8118,
   0xd807aa98a3030242_12835b0145706fbe_243185be4ee4b28c_550c7dc3d5ffb4e2,
   0x72be5d74f27b896f_80deb1fe3b1696b1_9bdc06a725c71235_c19bf174cf692694,
   0xe49b69c19ef14ad2_efbe4786384f25e3_0fc19dc68b8cd5b5_240ca1cc77ac9c65,
   0x2de92c6f592b0275_4a7484aa6ea6e483_5cb0a9dcbd41fbd4_76f988da831153b5,
   0x983e5152ee66dfab_a831c66d2db43210_b00327c898fb213f_bf597fc7beef0ee4,
   0xc6e00bf33da88fc2_d5a79147930aa725_06ca6351e003826f_142929670a0e6e70,
   0x27b70a8546d22ffc_2e1b21385c26c926_4d2c6dfc5ac42aed_53380d139d95b3df,
   0x650a73548baf63de_766a0abb3c77b2a8_81c2c92e47edaee6_92722c851482353b,
   0xa2bfe8a14cf10364_a81a664bbc423001_c24b8b70d0f89791_c76c51a30654be30,
   0xd192e819d6ef5218_d69906245565a910_f40e35855771202a_106aa07032bbd1b8,
   0x19a4c116b8d2d0c8_1e376c085141ab53_2748774cdf8eeb99_34b0bcb5e19b48a8,
   0x391c0cb3c5c95a63_4ed8aa4ae3418acb_5b9cca4f7763e373_682e6ff3d6b2b8a3,
   0x748f82ee5defb2fc_78a5636f43172f60_84c87814a1f0ab72_8cc702081a6439ec,
   0x90befffa23631e28_a4506cebde82bde9_bef9a3f7b2c67915_c67178f2e372532b,
   0xca273eceea26619c_d186b8c721c0c207_eada7dd6cde0eb1e_f57d4f7fee6ed178,
   0x06f067aa72176fba_0a637dc5a2c898a6_113f9804bef90dae_1b710b35131c471b,
   0x28db77f523047d84_32caab7b40c72493_3c9ebe0a15c9bebc_431d67c49c100d4c,
   0x4cc5d4becb3e42b6_597f299cfc657e2a_5fcb6fab3ad6faec_6c44198c4a475817]

/-- Round constant i. -/
def shaConst (i : Nat) : BitVec 64 := BitVec.ofNat 64 (shaTable.getD (i / 4) 0 >>> (192 - 64 * (i % 4)))

/-- The 512 bits of the initial hash value of SHA-384 (FIPS 180-4). -/
def shaStart : BitVec 512 :=
  0xcbbb9d5dc1059ed8_629a292a367cd507_9159015a3070dd17_152fecd8f70e5939_67332667ffc00b31_8eb44a8768581511_db0c2e0d64f98fa7_47b5481dbefa4fa4

/-- The exclusive or of a word turned right by each of some amounts. -/
def turned (w : BitVec 64) (amounts : List Nat) : BitVec 64 := amounts.foldl (fun x n => x ^^^ w.rotateRight n) 0

/-- A message padded to whole blocks of 128 B (FIPS 180-4). -/
def shaPad (m : Bytes) : Bytes :=
  m ++ (0x80 :: List.replicate ((239 - m.length % 128) % 128) 0) ++ be 16 (8 * m.length)

/-- The words of a block, most significant byte first. -/
def shaWords : Nat → Bytes → List (BitVec 64)
  | 0, _ => []
  | n + 1, bs => BitVec.ofNat 64 (beVal (bs.take 8)) :: shaWords n (bs.drop 8)

/-- The message schedule (FIPS 180-4): the words so far, newest first, and how many more to form. -/
def shaSchedule : Nat → List (BitVec 64) → List (BitVec 64)
  | 0, ws => ws
  | n + 1, ws =>
    let back (k : Nat) : BitVec 64 := ws.getD (k - 1) 0
    shaSchedule n ((back 16 + back 7 + (turned (back 15) [1, 8] ^^^ back 15 >>> 7) +
      (turned (back 2) [19, 61] ^^^ back 2 >>> 6)) :: ws)

/-- One round on the eight working variables, with the sum of its constant and its word of the schedule (FIPS 180-4). -/
def shaRound (v : List (BitVec 64)) (kw : BitVec 64) : List (BitVec 64) :=
  let at_ (k : Nat) : BitVec 64 := v.getD k 0
  let choice := at_ 6 ^^^ (at_ 4 &&& (at_ 5 ^^^ at_ 6))
  let majority := (at_ 0 &&& (at_ 1 ||| at_ 2)) ||| (at_ 1 &&& at_ 2)
  let mixed := at_ 7 + turned (at_ 4) [14, 18, 41] + choice + kw
  (mixed + turned (at_ 0) [28, 34, 39] + majority) :: ((v.take 7).set 3 (at_ 3 + mixed))

/-- One block of SHA-384. -/
def shaBlock (h : List (BitVec 64)) (block : Bytes) : List (BitVec 64) :=
  let ws := (shaSchedule 64 (shaWords 16 block).reverse).reverse
  List.zipWith (· + ·) h (ws.foldl (fun p w => (p.1 + 1, shaRound p.2 (shaConst p.1 + w))) (0, h)).2

/-- The blocks of a padded message. -/
def shaBlocks : Nat → List (BitVec 64) → Bytes → List (BitVec 64)
  | 0, h, _ => h
  | n + 1, h, bs => shaBlocks n (shaBlock h (bs.take 128)) (bs.drop 128)

/-- SHA-384: 48 bytes (FIPS 180-4). -/
def sha384 (m : Bytes) : Bytes :=
  let p := shaPad m
  let start := (List.range 8).map (fun k => BitVec.ofNat 64 (shaStart.toNat >>> (448 - 64 * k)))
  ((shaBlocks (p.length / 128) start p).take 6).flatMap (fun w => be 8 w.toNat)

end Sys2Proof.Machine
end

