-- ==== Sys2Proof/Config.lean ====
section
/-! DEFINITION. What an implementation fixes and the spec leaves open: opaque constants, so that no
proof can rest on a value of them (log 6, log 13). -/

namespace Sys2Proof

/-- The n-th value drawn from the device's random source, and every other value that the spec leaves
undefined (R104, R169, R491, R605, R637; log 6).  The machine's counter `free` numbers the draws. -/
opaque Config.freeValue : Nat → BitVec 64

/-- The 64-bit device serial number in the fuses (R601; log 6). -/
opaque Config.serialNumber : BitVec 64

/-- The fuse digest (SHA-384, 48 bytes) of the public key of a key slot (R591; log 6). -/
opaque Config.keyDigestByte : Nat → Nat → BitVec 8

/-- The bank within its subchannel of a byte address within a channel, and its row (R501; log 6). -/
opaque Config.ddrBank : Nat → Nat

/-- The row of a byte address within a channel (R501; log 6). -/
opaque Config.ddrRow : Nat → Nat

/-- Where a retiring channel puts a granule of 256 B: the granule's number and the channel give a place among the channels
that may take it (R508; log 74). -/
opaque Config.evacTarget : Nat → Nat → Nat

/-- The public key in a certificate, as an uncompressed point (R602; log 13). -/
opaque Config.certKey : List (BitVec 8) → List (BitVec 8)

/-- The coordinates of the device's public identity key, byte by byte (R601; log 6). -/
opaque Config.identityKeyByte : Nat → BitVec 8

/-- The characterised latencies of table 0x48 that footing firmware writes at boot: entry index, then
0 for RX_LAT and 1 for TX_LAT (R416; log 6). -/
opaque Config.timeLatency : Nat → Nat → BitVec 32

/-- The credit that an end of a bond link grants at link-up, by class (R536; log 6). -/
opaque Config.bondGrant : Nat → BitVec 16

/-- Verification of an ECDSA signature on brainpoolP384r1: key, digest, signature (R590; log 13). -/
opaque Config.ecdsaVerify : List (BitVec 8) → List (BitVec 8) → List (BitVec 8) → Bool

/-- A byte of the signature that the identity key makes over a digest; the number tells draws apart
(R603; log 13). -/
opaque Config.ecdsaSignByte : List (BitVec 8) → Nat → Nat → BitVec 8

end Sys2Proof
end

