-- ==== Sys2Proof/Machine/Regs.lean ====
section
/-! DEFINITION. The set-up register map: every register of BAR0, its field table and its offset
(R642-R654 and the field tables of the owning chapters). -/

namespace Sys2Proof.Machine

/-- The registers of the placement table of R646. -/
inductive Reg where
  | portCfg | subportLinkCfg | parseTunnelCfg | parseMiscCfg | parsePuntCfg | subportTenantCfg
  | hashSel | dlBudgetDef | dlEvtCfg | fsGeometry | fsWatermark | fsDemoteCfg | fsTierbCfg
  | fsMissDef | setupDef | setupQuotaDef | flowSetupCfg | flowPolicyCfg | sweepCfg | learnCfg
  | macAgeCfg | subportLearnCfg | tableSearchCfg | schedCfg | schedLimitCfg | engThreadCfg
  | engineMap | clusterMap | traceCfg | bufCfg | poolLimit | puntHostMap | queueCfg | queueThr
  | queueSched | queueRate | queueIdleSlope | subportSchedCfg | subportRate | subportFcThr
  | subportFcPrio | timeCfg | timeServoCfg | timeLimitCfg | timePpsCfg | ringBase | ringWb
  | ringCfg | evtRoute | ownBid | ownNonce | ownCtrl | ownStatus | ownFence | ownDone
  | ownLeaseCfg | dmaChCfg | dmaChChain | dmaChWb | dmaChStatus | ddrCfg | ddrQosCfg
  | ddrPowerCfg | ddrTrainCfg | wakeCfg | gateCfg | thermalCfg | stackCfg | bondCfg | stackRoute
  | ftCfg | sliceSub | imgSvnFloor | imgKeyStatus | pmcSel | pmcFilt | pmcAddrBase | pmcAddrMask
  | exportCfg | exportClass | bootStatus | bootPushAddr | bootPushLen | bootCertAddr
  | bootPushCtrl | trafficStatus | pciIds | vendorOui | originFleet | originStack | subportMac
  | pauseTxTime | pfcQmapLo | pfcQmapHi | shedCfg | subportEee | laneSerLimit | malformedAct
  | hashKey
  deriving DecidableEq, Repr

/-- The access types of R11 that the field tables use. -/
inductive Access where | ro | rw | rwo | wo
  deriving DecidableEq, Repr

/-- One field of a register: its lowest bit, its width, its access and its reset value.  A strap or
image field has reset 0 here and is written when the straps are latched or the image runs (R14). -/
structure Field where
  lo : Nat
  w : Nat
  acc : Access
  reset : Nat
  deriving DecidableEq, Repr

/-- The field table of each register; bits that no field names are reserved (R15). -/
def Reg.fields : Reg → List Field
  | .portCfg => [⟨0,3,.ro,0⟩, ⟨3,1,.rwo,0⟩, ⟨8,24,.ro,0xfac688⟩]
  | .subportLinkCfg => [⟨0,14,.rwo,200⟩, ⟨14,2,.rwo,0⟩, ⟨16,8,.rwo,255⟩, ⟨24,2,.rwo,3⟩, ⟨26,2,.rwo,2⟩]
  | .parseTunnelCfg => [⟨0,16,.rwo,4789⟩, ⟨16,16,.rwo,6081⟩]
  | .parseMiscCfg => [⟨0,16,.rwo,37120⟩, ⟨16,16,.rwo,64⟩]
  | .parsePuntCfg => [⟨0,4,.rwo,0⟩]
  | .subportTenantCfg => [⟨0,2,.rwo,0⟩, ⟨2,1,.rwo,0⟩, ⟨8,8,.rwo,0⟩, ⟨16,16,.rwo,0⟩]
  | .hashSel =>
      [⟨0,1,.rwo,1⟩, ⟨1,1,.rwo,1⟩, ⟨2,1,.rwo,1⟩, ⟨3,1,.rwo,1⟩, ⟨4,1,.rwo,1⟩, ⟨5,1,.rwo,0⟩,
       ⟨6,1,.rwo,0⟩, ⟨7,1,.rwo,0⟩, ⟨8,1,.rwo,1⟩, ⟨9,1,.rwo,0⟩]
  | .dlBudgetDef => [⟨0,16,.rwo,64⟩, ⟨16,16,.rwo,1024⟩]
  | .dlEvtCfg => [⟨0,16,.rwo,256⟩]
  | .fsGeometry => [⟨0,1,.rwo,0⟩]
  | .fsWatermark => [⟨0,16,.rwo,30720⟩, ⟨16,16,.rwo,29696⟩]
  | .fsDemoteCfg => [⟨0,16,.rwo,16⟩, ⟨16,16,.rwo,1024⟩]
  | .fsTierbCfg => [⟨0,12,.rwo,0⟩, ⟨12,12,.rwo,0⟩]
  | .fsMissDef => [⟨0,20,.rwo,16384⟩, ⟨20,11,.rwo,64⟩]
  | .setupDef => [⟨0,20,.rwo,4096⟩, ⟨20,11,.rwo,64⟩]
  | .setupQuotaDef => [⟨0,32,.rwo,0x10000⟩]
  | .flowSetupCfg => [⟨0,16,.rwo,100⟩]
  | .flowPolicyCfg => [⟨0,12,.rwo,0⟩, ⟨12,8,.rwo,0⟩]
  | .sweepCfg => [⟨0,1,.rwo,1⟩, ⟨8,8,.rwo,32⟩]
  | .learnCfg => [⟨0,1,.rwo,0⟩, ⟨1,1,.rwo,1⟩, ⟨16,16,.rwo,1000⟩]
  | .macAgeCfg => [⟨0,16,.rwo,60000⟩, ⟨16,8,.rwo,10⟩]
  | .subportLearnCfg => [⟨0,20,.rwo,0xfffff⟩, ⟨20,1,.rwo,1⟩, ⟨21,1,.rwo,0⟩]
  | .tableSearchCfg => [⟨0,2,.rwo,0⟩, ⟨2,2,.rwo,0⟩, ⟨8,8,.rwo,16⟩, ⟨16,1,.rwo,1⟩]
  | .schedCfg => [⟨0,4,.rwo,2⟩, ⟨4,4,.rwo,2⟩, ⟨8,12,.rwo,1792⟩, ⟨20,12,.rwo,1024⟩]
  | .schedLimitCfg => [⟨0,16,.rwo,1000⟩, ⟨16,16,.rwo,512⟩]
  | .engThreadCfg => [⟨0,3,.rwo,0⟩, ⟨3,1,.rwo,0⟩, ⟨8,8,.rwo,255⟩]
  | .engineMap => [⟨0,5,.ro,0⟩, ⟨5,3,.ro,0⟩, ⟨8,1,.ro,1⟩]
  | .clusterMap => [⟨0,5,.ro,0⟩, ⟨5,1,.ro,1⟩]
  | .traceCfg => [⟨0,1,.rwo,0⟩, ⟨1,3,.rwo,0⟩, ⟨4,1,.rwo,0⟩, ⟨5,17,.rwo,0⟩]
  | .bufCfg => [⟨0,16,.rwo,1024⟩, ⟨16,8,.rwo,10⟩]
  | .poolLimit => [⟨0,21,.rwo,0x100000⟩]
  | .puntHostMap => [⟨0,16,.rwo,0⟩]
  | .queueCfg => [⟨0,21,.rwo,0x10000⟩, ⟨21,2,.rwo,0⟩, ⟨23,1,.rwo,0⟩, ⟨24,1,.rwo,0⟩]
  | .queueThr => [⟨0,16,.rwo,16⟩, ⟨16,16,.rwo,0⟩]
  | .queueSched => [⟨0,16,.rwo,2048⟩, ⟨16,16,.rwo,64⟩]
  | .queueRate => [⟨0,32,.rwo,0⟩]
  | .queueIdleSlope => [⟨0,32,.rwo,0⟩]
  | .subportSchedCfg => [⟨0,7,.rwo,20⟩, ⟨8,16,.rwo,64⟩]
  | .subportRate => [⟨0,32,.rwo,0⟩]
  | .subportFcThr => [⟨0,10,.rwo,64⟩, ⟨10,10,.rwo,48⟩, ⟨20,8,.rwo,16⟩]
  | .subportFcPrio => [⟨0,8,.rwo,255⟩, ⟨8,3,.rwo,0⟩]
  | .timeCfg => [⟨0,1,.ro,0⟩, ⟨8,8,.rwo,0⟩, ⟨16,8,.rwo,1⟩, ⟨24,3,.rwo,0⟩, ⟨27,1,.rwo,0⟩]
  | .timeServoCfg => [⟨0,8,.rwo,64⟩, ⟨8,8,.rwo,16⟩, ⟨16,8,.rwo,100⟩, ⟨24,8,.rwo,125⟩]
  | .timeLimitCfg => [⟨0,10,.rwo,200⟩, ⟨10,10,.rwo,100⟩, ⟨20,12,.rwo,10⟩]
  | .timePpsCfg => [⟨0,1,.rwo,1⟩, ⟨1,9,.rwo,100⟩, ⟨10,22,.rwo,0⟩]
  | .ringBase => [⟨12,52,.rw,0⟩]
  | .ringWb => [⟨3,61,.rw,0⟩]
  | .ringCfg =>
      [⟨0,4,.rw,0⟩, ⟨4,1,.rw,0⟩, ⟨5,1,.rw,0⟩, ⟨6,2,.rw,0⟩, ⟨8,8,.rw,0⟩, ⟨16,4,.rw,3⟩,
       ⟨20,8,.rw,1⟩, ⟨28,4,.rw,0⟩]
  | .evtRoute => [⟨0,1,.rwo,1⟩, ⟨1,1,.rwo,0⟩, ⟨2,4,.rwo,0⟩, ⟨6,1,.rwo,0⟩]
  | .ownBid => [⟨0,4,.rw,0⟩, ⟨4,1,.rw,0⟩]
  | .ownNonce => [⟨0,32,.rw,0⟩]
  | .ownCtrl => [⟨0,1,.wo,0⟩, ⟨1,1,.wo,0⟩, ⟨2,1,.wo,0⟩, ⟨3,2,.wo,0⟩]
  | .ownStatus => [⟨0,2,.ro,0⟩, ⟨2,1,.ro,0⟩, ⟨3,1,.ro,0⟩, ⟨4,4,.ro,0⟩, ⟨8,4,.ro,0⟩, ⟨16,16,.ro,0⟩]
  | .ownFence => [⟨0,32,.ro,0⟩]
  | .ownDone => [⟨0,32,.ro,0⟩]
  | .ownLeaseCfg => [⟨0,10,.rwo,10⟩]
  | .dmaChCfg => [⟨0,1,.rwo,0⟩, ⟨1,2,.rwo,0⟩, ⟨3,1,.rwo,0⟩, ⟨4,8,.rwo,0⟩]
  | .dmaChChain => [⟨6,58,.rwo,0⟩]
  | .dmaChWb => [⟨3,61,.rwo,0⟩]
  | .dmaChStatus => [⟨0,2,.ro,0⟩, ⟨2,8,.ro,0⟩, ⟨10,8,.ro,0⟩]
  | .ddrCfg => [⟨0,3,.ro,0⟩, ⟨3,1,.ro,0⟩, ⟨4,1,.rwo,1⟩, ⟨8,8,.rwo,16⟩, ⟨16,16,.rwo,4096⟩]
  | .ddrQosCfg => [⟨0,12,.rwo,1024⟩, ⟨12,12,.rwo,256⟩, ⟨24,8,.rwo,64⟩]
  | .ddrPowerCfg => [⟨0,8,.rwo,255⟩, ⟨8,8,.rwo,0⟩]
  | .ddrTrainCfg => [⟨0,16,.rwo,60⟩, ⟨16,8,.rwo,16⟩]
  | .wakeCfg => [⟨0,16,.rwo,100⟩, ⟨16,16,.rwo,1000⟩]
  | .gateCfg => [⟨0,8,.rwo,10⟩, ⟨8,8,.rwo,0⟩, ⟨16,8,.rwo,20⟩, ⟨24,7,.rwo,0⟩, ⟨31,1,.rwo,0⟩]
  | .thermalCfg => [⟨0,8,.rwo,95⟩]
  | .stackCfg => [⟨0,2,.rwo,0⟩, ⟨2,1,.rwo,1⟩, ⟨3,1,.rwo,0⟩, ⟨4,4,.rwo,12⟩, ⟨8,8,.rwo,20⟩, ⟨16,8,.rwo,100⟩]
  | .bondCfg => [⟨0,1,.rwo,0⟩]
  | .stackRoute => [⟨0,10,.rwo,0⟩, ⟨10,1,.rwo,0⟩]
  | .ftCfg => [⟨0,1,.rwo,1⟩, ⟨1,1,.rwo,1⟩, ⟨8,8,.rwo,128⟩]
  | .sliceSub => [⟨0,4,.ro,0⟩, ⟨4,1,.ro,0⟩, ⟨5,17,.ro,0⟩]
  | .imgSvnFloor => [⟨0,32,.rwo,0⟩]
  | .imgKeyStatus => [⟨0,4,.ro,0⟩, ⟨4,1,.ro,0⟩, ⟨5,1,.ro,0⟩, ⟨6,1,.ro,0⟩]
  | .pmcSel => [⟨0,8,.rwo,0⟩, ⟨8,5,.rwo,0⟩, ⟨13,7,.rwo,0⟩, ⟨20,1,.rwo,0⟩, ⟨21,1,.rwo,0⟩]
  | .pmcFilt =>
      [⟨0,3,.rwo,7⟩, ⟨3,4,.rwo,15⟩, ⟨7,1,.rwo,0⟩, ⟨8,8,.rwo,0⟩, ⟨16,8,.rwo,0⟩, ⟨24,1,.rwo,0⟩,
       ⟨32,16,.rwo,0⟩]
  | .pmcAddrBase => [⟨0,64,.rwo,0⟩]
  | .pmcAddrMask => [⟨0,64,.rwo,0⟩]
  | .exportCfg => [⟨0,1,.rwo,0⟩, ⟨1,3,.rwo,0⟩, ⟨4,1,.rwo,0⟩, ⟨8,16,.rwo,0⟩]
  | .exportClass => [⟨0,32,.rwo,0xffffffff⟩]
  | .bootStatus =>
      [⟨0,3,.ro,0⟩, ⟨3,1,.ro,0⟩, ⟨4,4,.ro,0⟩, ⟨8,8,.ro,0⟩, ⟨16,4,.ro,0⟩, ⟨20,1,.ro,0⟩,
       ⟨21,1,.ro,0⟩]
  | .bootPushAddr => [⟨12,52,.rw,0⟩]
  | .bootPushLen => [⟨0,23,.rw,0⟩]
  | .bootCertAddr => [⟨12,52,.rw,0⟩]
  | .bootPushCtrl => [⟨0,1,.wo,0⟩, ⟨16,14,.rw,0⟩]
  | .trafficStatus => [⟨0,16,.ro,0⟩, ⟨16,16,.ro,0⟩]
  | .pciIds => [⟨0,16,.ro,7994⟩, ⟨16,16,.ro,51478⟩, ⟨32,8,.ro,176⟩]
  | .vendorOui => [⟨0,24,.ro,0x5ca719⟩]
  | .originFleet => [⟨0,16,.rwo,0⟩]
  | .originStack => [⟨0,8,.rwo,0⟩, ⟨8,2,.ro,0⟩]
  | .subportMac => [⟨0,48,.rwo,0⟩]
  | .pauseTxTime => [⟨0,16,.rwo,65535⟩]
  | .pfcQmapLo => [⟨0,16,.rwo,257⟩, ⟨16,16,.rwo,514⟩, ⟨32,16,.rwo,1028⟩, ⟨48,16,.rwo,2056⟩]
  | .pfcQmapHi => [⟨0,16,.rwo,4112⟩, ⟨16,16,.rwo,8224⟩, ⟨32,16,.rwo,16448⟩, ⟨48,16,.rwo,32896⟩]
  | .shedCfg => [⟨0,7,.rwo,10⟩, ⟨8,6,.rwo,30⟩, ⟨16,8,.rwo,8⟩, ⟨24,7,.rwo,70⟩, ⟨32,16,.rwo,64⟩, ⟨48,8,.rwo,10⟩]
  | .subportEee => [⟨0,16,.rwo,0⟩, ⟨16,16,.rwo,0⟩, ⟨32,16,.rwo,10⟩]
  | .laneSerLimit => [⟨0,32,.rwo,0x40000⟩]
  | .malformedAct =>
      [⟨0,2,.rwo,0⟩, ⟨2,2,.rwo,0⟩, ⟨4,2,.rwo,0⟩, ⟨6,2,.rwo,0⟩, ⟨8,2,.rwo,0⟩, ⟨10,2,.rwo,0⟩,
       ⟨12,2,.rwo,0⟩, ⟨14,2,.rwo,0⟩, ⟨16,2,.rwo,0⟩, ⟨18,2,.rwo,0⟩, ⟨20,2,.rwo,0⟩,
       ⟨22,2,.rwo,0⟩, ⟨24,2,.rwo,0⟩, ⟨26,2,.rwo,0⟩, ⟨28,2,.rwo,0⟩, ⟨30,2,.rwo,0⟩]
  | .hashKey => [⟨0,32,.wo,0⟩]

/-- The size of a register in bytes (R646). -/
def Reg.size : Reg → Nat
  | .pciIds | .bootPushAddr | .bootCertAddr | .ringBase | .ringWb | .subportMac | .pfcQmapLo | .pfcQmapHi | .shedCfg | .subportEee | .dmaChChain | .dmaChWb | .pmcFilt | .pmcAddrBase | .pmcAddrMask => 8
  | _ => 4
/-- How many instances a register has (R646). -/
def Reg.count : Reg → Nat
  | .ringBase | .ringWb | .ringCfg => 368
  | .evtRoute => 32
  | .portCfg | .bondCfg => 96
  | .subportMac | .subportLinkCfg | .pauseTxTime | .pfcQmapLo | .pfcQmapHi | .shedCfg | .subportEee
  | .subportTenantCfg | .subportLearnCfg | .subportSchedCfg | .subportRate | .subportFcThr
  | .subportFcPrio => 384
  | .hashSel => 64
  | .hashKey => 832
  | .engThreadCfg | .engineMap => 128
  | .clusterMap => 16
  | .poolLimit => 4
  | .queueCfg | .queueThr | .queueSched | .queueRate | .queueIdleSlope => 6400
  | .dmaChCfg | .dmaChStatus | .dmaChChain | .dmaChWb => 32
  | .stackRoute => 4
  | .imgSvnFloor => 4
  | .pmcSel | .pmcFilt | .pmcAddrBase | .pmcAddrMask => 64
  | .exportClass => 8
  | _ => 1

/-- The offset of an instance of a register (R646).  The instance of a ring register is
184 h + r, of a HASH_KEY 13 k + w, of IMG_SVN_FLOOR k - 1. -/
def Reg.off (r : Reg) (i : Nat) : Nat :=
  match r with
  | .pciIds => 0x0 | .vendorOui => 0x8 | .originFleet => 0x10 | .originStack => 0x14
  | .bootStatus => 0x100 | .bootPushAddr => 0x108 | .bootPushLen => 0x110 | .bootCertAddr => 0x118
  | .bootPushCtrl => 0x120 | .trafficStatus => 0x130
  | .ownBid => 0x100000 | .ownNonce => 0x100004 | .ownCtrl => 0x100008 | .ownStatus => 0x10000C
  | .ownFence => 0x100010 | .ownDone => 0x100014 | .ownLeaseCfg => 0x100018
  | .ringBase => 0x200000 + i / 184 * 0x10000 + i % 184 * 0x20
  | .ringWb => 0x200008 + i / 184 * 0x10000 + i % 184 * 0x20
  | .ringCfg => 0x200010 + i / 184 * 0x10000 + i % 184 * 0x20
  | .evtRoute => 0x220000 + i * 4
  | .portCfg => 0x300000 + i * 0x10 | .bondCfg => 0x300004 + i * 0x10
  | .laneSerLimit => 0x301000
  | .subportMac => 0x400000 + i * 0x100 | .subportLinkCfg => 0x400008 + i * 0x100
  | .pauseTxTime => 0x40000C + i * 0x100 | .pfcQmapLo => 0x400010 + i * 0x100
  | .pfcQmapHi => 0x400018 + i * 0x100 | .shedCfg => 0x400020 + i * 0x100
  | .subportEee => 0x400028 + i * 0x100 | .subportTenantCfg => 0x400030 + i * 0x100
  | .subportLearnCfg => 0x400034 + i * 0x100 | .subportSchedCfg => 0x400038 + i * 0x100
  | .subportRate => 0x40003C + i * 0x100 | .subportFcThr => 0x400040 + i * 0x100
  | .subportFcPrio => 0x400044 + i * 0x100
  | .parseTunnelCfg => 0x500000 | .parseMiscCfg => 0x500004 | .malformedAct => 0x500008
  | .parsePuntCfg => 0x50000C
  | .hashSel => 0x501000 + i * 0x40
  | .hashKey => 0x501004 + i / 13 * 0x40 + i % 13 * 4
  | .dlBudgetDef => 0x600000 | .dlEvtCfg => 0x600004 | .ftCfg => 0x600010 | .sliceSub => 0x600014
  | .fsGeometry => 0x700000 | .fsWatermark => 0x700004 | .fsDemoteCfg => 0x700008
  | .fsTierbCfg => 0x70000C | .fsMissDef => 0x700010
  | .setupDef => 0x700020 | .setupQuotaDef => 0x700024 | .flowSetupCfg => 0x700028
  | .flowPolicyCfg => 0x70002C | .sweepCfg => 0x700030
  | .learnCfg => 0x800000 | .macAgeCfg => 0x800004 | .tableSearchCfg => 0x800008
  | .schedCfg => 0x900000 | .schedLimitCfg => 0x900004 | .traceCfg => 0x900008
  | .engThreadCfg => 0x901000 + i * 8 | .engineMap => 0x901004 + i * 8
  | .clusterMap => 0x902000 + i * 4
  | .bufCfg => 0xA00000 | .puntHostMap => 0xA00004 | .poolLimit => 0xA00010 + i * 4
  | .queueCfg => 0xA10000 + i * 0x20 | .queueThr => 0xA10004 + i * 0x20
  | .queueSched => 0xA10008 + i * 0x20 | .queueRate => 0xA1000C + i * 0x20
  | .queueIdleSlope => 0xA10010 + i * 0x20
  | .timeCfg => 0xB00000 | .timeServoCfg => 0xB00004 | .timeLimitCfg => 0xB00008
  | .timePpsCfg => 0xB0000C
  | .dmaChCfg => 0xC00000 + i * 0x20 | .dmaChStatus => 0xC00004 + i * 0x20
  | .dmaChChain => 0xC00008 + i * 0x20 | .dmaChWb => 0xC00010 + i * 0x20
  | .ddrCfg => 0xC01000 | .ddrQosCfg => 0xC01004 | .ddrPowerCfg => 0xC01008 | .ddrTrainCfg => 0xC0100C
  | .wakeCfg => 0xD00000 | .gateCfg => 0xD00004 | .thermalCfg => 0xD00008
  | .stackCfg => 0xE00000 | .stackRoute => 0xE00010 + i * 4
  | .imgSvnFloor => 0xF00000 + i * 4 | .imgKeyStatus => 0xF00010
  | .pmcSel => 0x1000000 + i * 0x20 | .pmcFilt => 0x1000008 + i * 0x20
  | .pmcAddrBase => 0x1000010 + i * 0x20 | .pmcAddrMask => 0x1000018 + i * 0x20
  | .exportCfg => 0x1001000 | .exportClass => 0x1001010 + i * 4

/-- The registers of each block of R642, block 0 first. -/
def blockRegs : Nat → List Reg
  | 0 => [.pciIds, .vendorOui, .originFleet, .originStack, .bootStatus, .bootPushAddr, .bootPushLen,
      .bootCertAddr, .bootPushCtrl, .trafficStatus]
  | 1 => [.ownBid, .ownNonce, .ownCtrl, .ownStatus, .ownFence, .ownDone, .ownLeaseCfg]
  | 2 => [.ringBase, .ringWb, .ringCfg, .evtRoute]
  | 3 => [.portCfg, .bondCfg, .laneSerLimit]
  | 4 => [.subportMac, .subportLinkCfg, .pauseTxTime, .pfcQmapLo, .pfcQmapHi, .shedCfg, .subportEee,
      .subportTenantCfg, .subportLearnCfg, .subportSchedCfg, .subportRate, .subportFcThr,
      .subportFcPrio]
  | 5 => [.parseTunnelCfg, .parseMiscCfg, .malformedAct, .parsePuntCfg, .hashSel, .hashKey]
  | 6 => [.dlBudgetDef, .dlEvtCfg, .ftCfg, .sliceSub]
  | 7 => [.fsGeometry, .fsWatermark, .fsDemoteCfg, .fsTierbCfg, .fsMissDef, .setupDef,
      .setupQuotaDef, .flowSetupCfg, .flowPolicyCfg, .sweepCfg]
  | 8 => [.learnCfg, .macAgeCfg, .tableSearchCfg]
  | 9 => [.schedCfg, .schedLimitCfg, .traceCfg, .engThreadCfg, .engineMap, .clusterMap]
  | 10 => [.bufCfg, .puntHostMap, .poolLimit, .queueCfg, .queueThr, .queueSched, .queueRate,
      .queueIdleSlope]
  | 11 => [.timeCfg, .timeServoCfg, .timeLimitCfg, .timePpsCfg]
  | 12 => [.dmaChCfg, .dmaChStatus, .dmaChChain, .dmaChWb, .ddrCfg, .ddrQosCfg, .ddrPowerCfg,
      .ddrTrainCfg]
  | 13 => [.wakeCfg, .gateCfg, .thermalCfg]
  | 14 => [.stackCfg, .stackRoute]
  | 15 => [.imgSvnFloor, .imgKeyStatus]
  | 16 => [.pmcSel, .pmcFilt, .pmcAddrBase, .pmcAddrMask, .exportCfg, .exportClass]
  | _ => []

/-- The instance of a register that an offset would belong to, by its stride. -/
def Reg.instAt (r : Reg) (off : Nat) : Nat :=
  match r with
  | .ringBase | .ringWb | .ringCfg =>
    (off - 0x200000) / 0x10000 * 184 + (off - 0x200000) % 0x10000 / 0x20
  | .evtRoute => (off - 0x220000) / 4
  | .portCfg | .bondCfg => (off - 0x300000) / 0x10
  | .subportMac | .subportLinkCfg | .pauseTxTime | .pfcQmapLo | .pfcQmapHi | .shedCfg | .subportEee
  | .subportTenantCfg | .subportLearnCfg | .subportSchedCfg | .subportRate | .subportFcThr
  | .subportFcPrio => (off - 0x400000) / 0x100
  | .hashSel => (off - 0x501000) / 0x40
  | .hashKey => (off - 0x501000) / 0x40 * 13 + ((off - 0x501000) % 0x40 - 4) / 4
  | .engThreadCfg | .engineMap => (off - 0x901000) / 8
  | .clusterMap => (off - 0x902000) / 4
  | .poolLimit => (off - 0xA00010) / 4
  | .queueCfg | .queueThr | .queueSched | .queueRate | .queueIdleSlope => (off - 0xA10000) / 0x20
  | .dmaChCfg | .dmaChStatus | .dmaChChain | .dmaChWb => (off - 0xC00000) / 0x20
  | .stackRoute => (off - 0xE00010) / 4
  | .imgSvnFloor => (off - 0xF00000) / 4
  | .pmcSel | .pmcFilt | .pmcAddrBase | .pmcAddrMask => (off - 0x1000000) / 0x20
  | .exportClass => (off - 0x1001010) / 4
  | _ => 0

/-- Whether a word at an offset lies in a register of this kind. -/
def Reg.holds (r : Reg) (off : Nat) : Bool :=
  decide (r.instAt off < r.count) &&
    (decide (r.off (r.instAt off) = off) ||
      (decide (r.size = 8) && decide (r.off (r.instAt off) + 4 = off)))

/-- The register and the instance that an aligned word of BAR0 lies in; `none` for reserved space
(R643). -/
def regAt (off : Nat) : Option (Reg × Nat) :=
  match (blockRegs (off / 0x100000)).find? (fun r => r.holds off) with
  | some r => some (r, r.instAt off)
  | none => none

/-- The value that the fields of one access give a register: its bits under those fields. -/
def Reg.mask (r : Reg) (acc : Access) : Nat :=
  r.fields.foldl (fun m f => if f.acc = acc then m + (2 ^ f.w - 1) * 2 ^ f.lo else m) 0

/-- The bits of a register that some field names. -/
def Reg.named (r : Reg) : Nat :=
  r.mask .ro + r.mask .rw + r.mask .rwo + r.mask .wo

/-- The reset value of an instance of a register.  ENGINE_MAP and CLUSTER_MAP reset to the identity
(R355). -/
def Reg.reset (r : Reg) (i : Nat) : BitVec 64 :=
  match r with
  | .engineMap => BitVec.ofNat 64 (i / 8 + i % 8 * 32 + 256)
  | .clusterMap => BitVec.ofNat 64 (i + 32)
  | _ => BitVec.ofNat 64 (r.fields.foldl (fun v f => v + f.reset * 2 ^ f.lo) 0)

/-- The reset value of the register whose first byte lies at an offset. -/
def resetAt (off : Nat) : BitVec 64 :=
  match regAt off with
  | some (r, i) => r.reset i
  | none => 0

/-- The registers that belong to data-plane blocks, whose writes wait for the next epoch boundary
while traffic runs (R22).  The control fields of R16 and the registers of the control and management
planes act at once. -/
def Reg.shadowed : Reg → Bool
  | .portCfg | .subportLinkCfg | .parseTunnelCfg | .parseMiscCfg | .parsePuntCfg
  | .subportTenantCfg | .hashSel | .hashKey | .dlBudgetDef | .dlEvtCfg | .fsWatermark | .fsDemoteCfg
  | .fsMissDef | .setupDef | .setupQuotaDef | .flowSetupCfg | .flowPolicyCfg | .sweepCfg | .learnCfg | .macAgeCfg
  | .subportLearnCfg | .tableSearchCfg | .schedCfg | .schedLimitCfg | .engThreadCfg | .traceCfg
  | .bufCfg | .poolLimit | .puntHostMap | .queueCfg | .queueThr | .queueSched | .queueRate
  | .queueIdleSlope | .subportSchedCfg | .subportRate | .subportFcThr | .subportFcPrio
  | .ddrCfg | .ddrQosCfg | .ddrPowerCfg | .ddrTrainCfg | .wakeCfg | .gateCfg | .thermalCfg | .bondCfg
  | .stackRoute | .stackCfg | .ftCfg | .exportCfg | .exportClass | .subportMac | .pauseTxTime
  | .pfcQmapLo | .pfcQmapHi | .shedCfg | .subportEee | .laneSerLimit | .malformedAct => true
  | _ => false

end Sys2Proof.Machine
end

