-- ==== Sys2Proof/Machine/State.lean ====
section
/-! DEFINITION. The state of the block as plain data: every register, table, buffer, queue, counter,
engine and mode that the spec gives the device, the commands that wait, and the machine after reset. -/

namespace Sys2Proof.Machine

/-- Counts of the shared core clock: the rate grid (R666), and the phase of the footing clock, 15 cc
long (R515). -/
structure Clk where
  cc : Nat := 0
  fc : Nat := 0
  grid : Nat := 0
  refills : Nat := 0
  intervals : Nat := 0
  deriving DecidableEq, Repr

/-- The register file (R642-R644): applied values by offset, values held in a shadow and old values for frames
of earlier epochs (offset, first epoch of the new value, old value: R22), low halves held per master
(R644), and the words of HASH_KEY, which read as drawn values until written (R104). -/
structure Regs where
  applied : Store (BitVec 64) := []
  shadow : Store (Option (BitVec 64)) := []
  held : Store (Option (Nat × BitVec 32)) := []
  past : List (Nat × Nat × BitVec 64) := []
  hashKey : Store (Option (BitVec 32)) := []
  hashDraw : Nat := 0
  bankBid : Store (BitVec 32) := []
  bankNonce : Store (BitVec 32) := []
  deriving DecidableEq, Repr

/-- The output pins that the model drives (R662): rail enables in the order of R657, 0 EN_CORE to
4 EN_SRD_H. -/
inductive PinName where
  | alive | thermtripN | pps
  | tp (n : Nat)
  | railEn (n : Nat)
  deriving DecidableEq, Repr

/-- What leaves the device, newest first. -/
inductive Out where
  /-- A posted write into the memory behind a host port (R442). -/
  | hostWrite (port addr : Nat) (data : Bytes)
  /-- A posted write marked poisoned, by its length (R493). -/
  | hostPoison (port addr len : Nat)
  /-- An MSI-X message (R442). -/
  | msix (port vector : Nat)
  /-- The in-band interrupt of the I3C target (R437). -/
  | i3cInterrupt
  /-- A frame sent on a subport, from its destination address to before its FCS; stomped says that the
  FCS is inverted (R41, R382). -/
  | frame (subport : Nat) (data : Bytes) (stomped : Bool)
  /-- The frame being sent is cut off at link down (R69). -/
  | cutOff (subport : Nat)
  /-- An Izral cell kind with its payload on a bond link (R533, R534). -/
  | izral (subport kind : Nat) (data : Bytes)
  /-- A pin of R662 takes a level. -/
  | pin (name : PinName) (level : Bool)
  /-- An image written to a flash slot (R597). -/
  | flash (slot : Nat) (data : Bytes)
  deriving DecidableEq, Repr

/-- The states that RING_STATUS shows (R453). -/
inductive RingState where | disabled | running | stopped
  deriving DecidableEq, Repr

/-- One ring of a host port (R439, R444, R455, R462, R465, R467). `prod` is P, or Q of a PUNT ring;
`cons` is C, or F of a PUNT ring. -/
structure Ring where
  st : RingState := .disabled
  cause : Nat := 0
  prod : Nat := 0
  cons : Nat := 0
  discarded : Nat := 0
  lost : Nat := 0
  waits : Nat := 0
  injErrors : Nat := 0
  lossMark : Bool := false
  unsignalled : Nat := 0
  chainAddr : Nat := 0
  chainTail : Bool := false
  chainReading : Bool := false
  chainPending : Bool := false
  deriving DecidableEq, Repr

/-- A command accepted and not yet completed (R447): also its result address, whether a result write
succeeds, whether it has started, for a relayed command its relay tag (R534), the instance that its descriptor
names (R445), and the primary and the alternate time in ns at which it was accepted (R423). -/
structure Accepted where
  aseq : Nat
  opcode : Nat
  src : Source
  seq : Nat
  cpl : Nat
  fence : Bool
  quiet : Bool
  result : Nat
  resultOk : Bool
  started : Bool
  tag : Nat := 0
  inst : Nat := 0
  times : Nat × Nat := (0, 0)
  deriving DecidableEq, Repr

/-- The link of a host port (R436, R453). -/
structure HostLink where
  up : Bool := false
  rate : Nat := 0
  width : Nat := 0
  aer : Nat := 0
  cause : Nat := 0
  deriving DecidableEq, Repr

/-- Host ports, rings and the command processor.  Ring keys are 256 h + page, vector keys 256 h + v. -/
structure HostSt where
  rings : Store Ring := []
  links : Store HostLink := []
  masked : Store Bool := []
  msixPending : Store Bool := []
  mailbox : Option Bytes := none
  mailboxCpl : Bytes := []
  lastAseq : Nat := 0
  accepted : List Accepted := []
  deriving DecidableEq, Repr

/-- A standing bid: master, PRIO and NONCE sampled when it was recorded (R470). -/
structure Bid where
  master : Nat
  prio : Nat
  nonce : Nat
  deriving DecidableEq, Repr

/-- Ownership (R469-R474).  The lease ends at the cycle `leaseEnd`. -/
structure OwnSt where
  owner : Option Nat := none
  ownerPrio : Nat := 0
  bids : List Bid := []
  window : Bool := false
  leaseEnd : Nat := 0
  fenceSeq : Nat := 0
  deriving DecidableEq, Repr

/-- An event counted within the last 64 cycles: the counter, the cycle, what it added, and whether a sample has already
left it out (R609). -/
structure LateCount where
  key : Nat
  at_ : Nat
  n : Nat
  skipped : Bool
  deriving DecidableEq, Repr

/-- The fixed counters of R610 (key: kind, instance, index), their WRAP bits, the peak depth of each queue, the events that
a sample may leave out, and the last cycle, plus 1, in which a gauge changed (R609). -/
structure CtrSt where
  vals : Store Nat := []
  wrap : Store Bool := []
  peak : Store Nat := []
  recent : List LateCount := []
  touched : Store Nat := []
  deriving DecidableEq, Repr

/-- One performance counter (R614, R616). -/
structure Pmc where
  value : Nat := 0
  wrap : Bool := false
  running : Bool := false
  startAt : Option Nat := none
  deriving DecidableEq, Repr

/-- The states of a domain servo (R409). -/
inductive DomState where | acquire | locking | locked | holdover
  deriving DecidableEq, Repr

/-- A domain clock and its servo (R405, R409, R410): time in 2^-32 ns, rate in steps of R405, integ
and the last offset in 2^-16 ns. -/
structure Domain where
  t : Int := 0
  rate : Int := 0
  st : DomState := .acquire
  integ : Int := 0
  below : Nat := 0
  above : Nat := 0
  last : Int := 0
  deriving DecidableEq, Repr

/-- The pattern of a time-pulse output (R422): role true is the alternate; mode 0 off, 1 once,
2 periodic; times in ns. -/
structure PulsePattern where
  alternate : Bool := false
  mode : Nat := 0
  start : Nat := 0
  period : Nat := 0
  width : Nat := 0
  polarity : Bool := false
  deriving DecidableEq, Repr

/-- A time-pulse output: pattern in force, patterns that wait, each with the time of its first edge, the oldest first, and
the level driven (R422, R423). -/
structure Pulse where
  pat : PulsePattern := {}
  next : List (PulsePattern × Nat) := []
  level : Bool := false
  deriving DecidableEq, Repr

/-- A capture input (R424): edges 0 rising, 1 falling, 2 both (log 19); the cycle of the last edge. -/
structure Capture where
  enabled : Bool := false
  edges : Nat := 0
  alternate : Bool := false
  count : Nat := 0
  lastAt : Option Nat := none
  deriving DecidableEq, Repr

/-- Network time (R404-R426): domains, the residual in 2^-16 ns with the fraction carried by the slew,
pulse outputs, PPS level and capture inputs. -/
structure TimeSt where
  dom0 : Domain := {}
  dom1 : Domain := {}
  resid : Int := 0
  slewCarry : Nat := 0
  pulses : Store Pulse := []
  pps : Bool := false
  caps : Store Capture := []
  deriving DecidableEq, Repr

/-- The low-power method of a subport (R55). -/
inductive LpMethod where | none | shed | eee
  deriving DecidableEq, Repr

/-- A received PAUSE or PFC on its way to its effect point (R47): time in quanta for each priority it
names; priority 8 stands for PAUSE. -/
abbrev PauseMsg := List (Nat × Nat)

/-- A shed REQ that waits for its answer (R62, R63). -/
structure ShedReq where
  seq : Nat
  target : Nat
  tries : Nat
  deriving DecidableEq, Repr

/-- Low-power idle of the transmitter (R67). -/
inductive Lpi where | active | idle | waking
  deriving DecidableEq, Repr

/-- One subport (R44-R77).  Times are cycles of the shared core clock; `lastLoad` is the load of the last
window in hundredths of a percent, `winBytes` the bytes sent in the present one; `reduced` is the width
that failed lanes leave, 0 for none; `recovery` is the lane under trial, `recUp` says that its link is
up, `recLanes` are the lanes in use after a recovery; `forced` is the width of SHED_CTRL for the next link-up. -/
structure Sub where
  adminDown : Bool := false
  up : Bool := false
  width : Nat := 0
  method : LpMethod := .none
  answering : Option Bool := Option.none
  helloTries : Nat := 0
  shedOff : Bool := false
  shedSuspended : Bool := false
  nextSeq : Nat := 0
  req : Option ShedReq := Option.none
  stepTo : Option Nat := Option.none
  stepSeq : Nat := 0
  stepFrom : Nat := 0
  switching : Bool := false
  readySent : Bool := false
  readyRcvd : Bool := false
  narrowWindows : Nat := 0
  lastLoad : Nat := 0
  winBytes : Nat := 0
  peerFloor : Nat := 1
  peerHealthy : Nat := 255
  reduced : Option Nat := Option.none
  recovery : Option Nat := Option.none
  recUp : Bool := false
  recLanes : List Nat := []
  forced : Option Nat := Option.none
  shedDropped : Nat := 0
  shedNow : Option Nat := Option.none
  shedOut : List Bytes := []
  pausing : List PauseMsg := []
  paused : Store (Option Nat) := []
  xoff : Nat := 0
  xoffSent : Nat := 0
  pauseDue : Nat := 0
  lpi : Lpi := .active
  hold : Option Nat := Option.none
  holdLeft : Option Nat := Option.none
  rxFrame : Option Nat := Option.none
  rxLate : Option (Nat × Nat × Bool) := Option.none
  deriving DecidableEq, Repr

/-- One lane (R75, R580); whether it is awake stands with its block at the wake joint. -/
structure Lane where
  failed : Bool := false
  overWindows : Nat := 0
  recal : Bool := false
  deriving DecidableEq, Repr

/-- The ports: subports by device subport number and lanes by device lane number (R33, R34), and the ports
on which BOND is in force (R532). -/
structure PortSt where
  bond : Store Bool := []
  sub : Store Sub := []
  lane : Store Lane := []
  serNow : Store (Option Nat) := []
  deriving DecidableEq, Repr

/-- Where a frame entered the device (R110, R361, R540, R545). -/
inductive Ingress where
  | subport (s : Nat)
  | inj (host ring : Nat)
  | engine (tag : Nat)
  | bond (subport : Nat)
  deriving DecidableEq, Repr

/-- Where a frame stands. -/
inductive Stage where
  /-- Its head waits in a head queue (R110). -/
  | head
  /-- Admitted to the parser and not yet given a verdict (R121). -/
  | slice
  /-- Parked for a tier-B fetch (R116). -/
  | tierB
  /-- Parked for a setup (R217). -/
  | setup
  /-- Parked on a record being inserted (R175). -/
  | pending
  /-- Its verdict has gone to the traffic manager (R134). -/
  | queued
  deriving DecidableEq, Repr

/-- An IP layer found by the parser (R82): offsets of the header, its L4 header (0: none) and what follows that, fields,
fragment state (0 none, 1 first, 2 non-first), the TCP fields with the data offset, type, code and identifier of ICMP, echo
(1 request, 2 reply), the embedded header of an ICMP error with its own L4 offset, and the addresses, ports and protocol as
R100 forms them. -/
structure IpLayer where
  v6 : Bool := false
  off : Nat := 0
  l4 : Nat := 0
  pay : Nat := 0
  proto : Nat := 0
  src : Bytes := []
  dst : Bytes := []
  ttl : Nat := 0
  dscp : Nat := 0
  ecn : Nat := 0
  label : Nat := 0
  frag : Nat := 0
  fragId : Nat := 0
  fragOff : Nat := 0
  stop : Nat := 0
  sport : Nat := 0
  dport : Nat := 0
  tcpFlags : Nat := 0
  tcpSeq : Nat := 0
  tcpAck : Nat := 0
  tcpWindow : Nat := 0
  tcpOff : Nat := 0
  icmpType : Nat := 0
  icmpCode : Nat := 0
  icmpId : Nat := 0
  echo : Nat := 0
  icmpError : Bool := false
  embOff : Nat := 0
  embV6 : Bool := false
  embL4 : Nat := 0
  embProto : Nat := 0
  embEcho : Nat := 0
  kSrc : Bytes := []
  kDst : Bytes := []
  kSport : Nat := 0
  kDport : Nat := 0
  kProto : Nat := 0
  deriving DecidableEq, Repr

/-- The parse result (R82): L2 fields, the MPLS labels as their 4-B words (label, TC, S and TTL) and the offset of the first,
outermost and inner IP layer, tunnel (kind, offset, VNI or VSID, and of Geneve the protocol type, O and C bits and option
length), the offset of the payload (255: not reached), and malformed cause. -/
structure Parse where
  dmac : Bytes := []
  smac : Bytes := []
  tags : List Nat := []
  etherType : Nat := 0
  mpls : List Nat := []
  mplsOff : Nat := 0
  l3off : Nat := 0
  outer : Option IpLayer := none
  tunnel : Nat := 0
  tunOff : Nat := 0
  vni : Nat := 0
  genProto : Nat := 0
  genO : Bool := false
  genC : Bool := false
  genOpts : Nat := 0
  innerL2 : Nat := 0
  inner : Option IpLayer := none
  payload : Nat := 255
  cause : Nat := 0
  deriving DecidableEq, Repr

/-- A timestamp in 2^-16 ns and the domain it names (R415, R417). -/
structure Stamp where
  t : Int := 0
  dom : Nat := 0
  deriving DecidableEq, Repr

/-- A frame in the device, from its first byte to the end of its last copy: bytes from the destination
address to before the FCS, its pass through the slice (R119-R144) and its descriptor (R361).  `pfx` is the
prefix of a frame received on a bond link (R538), `behind` says that it waits for earlier frames of its connection
(R32), `pdraw` numbers the open values of its parse result in compact form (R119; log 6). -/
structure Frame where
  bytes : Bytes
  ingress : Ingress
  slice : Nat
  whole : Bool := true
  arrival : Nat := 0
  rx : Stamp := {}
  refTs : Option Int := none
  prio : Nat := 0
  tag : Nat := 0
  stage : Stage := .head
  steered : Bool := false
  epoch : Nat := 0
  start : Nat := 0
  extended : Bool := false
  bank : Nat := 0
  parse : Parse := {}
  tenant : Nat := 0
  cls : Nat := 0
  clsEntry : Bytes := []
  profile : Nat := 0
  stateless : Bool := false
  key : Bytes := []
  icmpErr : Bool := false
  hash : Nat := 0
  indir : Nat := 0
  learnDrop : Bool := false
  record : Bytes := []
  flow : Option Nat := none
  hit : Bool := false
  miss : Bool := false
  lpm : Option Bytes := none
  acl : Option Bytes := none
  sec : Option Bytes := none
  lookups : Nat := 0
  secReqs : List (Nat × Bytes) := []
  policed : Bool := false
  colour : Option Nat := none
  policer : Nat := 0
  aware : Bool := false
  mirror : Option Nat := none
  verdict : Bytes := List.replicate 32 0
  scratch : Bytes := List.replicate 64 0
  rewrite : Bytes := List.replicate 64 0
  pc : Nat := 0
  words : Nat := 0
  context : Bool := false
  admitted : Bool := false
  cookie : Bool := false
  refused : Bool := false
  parkedAt : Nat := 0
  fetch : Option Nat := none
  behind : Bool := false
  pfx : Bytes := []
  pdraw : Nat := 0
  cells : List Nat := []
  drefs : Nat := 0
  copyOf : Option Nat := none
  deriving DecidableEq, Repr

/-- One slice (R110, R138, R146, R152, R338): head queues by input (6 is the internal input), the input
served first last, the setup queue of tasks by number, ports whose admission its queue has closed. -/
structure Slice where
  heads : List (List Nat) := [[], [], [], [], [], [], []]
  rot : Nat := 0
  ctxWait : List Nat := []
  setupQ : List Nat := []
  closedPorts : List Nat := []
  opened : Nat := 0
  stopped : Bool := false
  retired : Bool := false
  events : Nat := 0
  punts : Nat := 0
  deriving DecidableEq, Repr

/-- The slices, the frames they and the buffer hold, and the next frame number. -/
structure SliceSt where
  sl : Store Slice := []
  frames : Store (Option Frame) := []
  nextFid : Nat := 0
  deriving DecidableEq, Repr

/-- One microcode bank: words of 320 bits, the slices on which it is invalid, and its image (R123,
R132, R151). -/
structure Bank where
  words : Store (BitVec 320) := []
  loaded : Bool := false
  badSlices : Nat := 0
  version : Nat := 0
  svn : Nat := 0
  digest : Bytes := []
  deriving DecidableEq, Repr

/-- A SEQ_SWAP that waits for the last frame of an earlier epoch (R133). -/
structure Swap where
  boundary : Nat
  aseq : Nat
  deriving DecidableEq, Repr

/-- The microcode store (R123, R133). -/
structure SeqSt where
  bank0 : Bank := {}
  bank1 : Bank := {}
  live : Nat := 0
  swap : Option Swap := none
  loading : Bool := false
  deriving DecidableEq, Repr

/-- One kind of per-tenant token bucket, in thousandths of a token (R145): the level of every tenant
whose bucket was never listed apart, and the levels of the others. -/
structure Buckets where
  base : Nat := 0
  lv : Store (Option Nat) := []
  deriving DecidableEq, Repr

/-- Per-tenant state: deadline, miss and setup buckets, refusal, quota reached, record count, tier-B
count and accounting totals (R145, R147, R204, R205, R213, R214, R216, R242). -/
structure TenSt where
  dl : Buckets := { base := 1024000 }
  miss : Buckets := { base := 4096000 }
  setup : Buckets := { base := 4096000 }
  refusing : Store Bool := []
  quotaHit : Store Bool := []
  count : Store Nat := []
  tierB : Store Nat := []
  packets : Store Nat := []
  octets : Store Nat := []
  deriving DecidableEq, Repr

/-- Per-pier bookkeeping (R188, R198, R199): the next local slot never used, freed slots oldest first,
the age histogram being built and that of the last pass, the threshold, and the demotion unit. -/
structure Pier where
  fresh : Nat := 0
  freed : List Nat := []
  hist : Store Nat := []
  lastHist : Store Nat := []
  threshold : Nat := 0
  passes : Nat := 0
  deriving DecidableEq, Repr

/-- Where the outcome of flow-store work goes: nowhere, to an accepted command, to a waiting thread (logical engine,
thread, task), or back over a bond link as the acknowledgement of a RECORD cell (R549). -/
inductive Origin where
  | none
  | command (aseq : Nat)
  | thread (engine thread task : Nat)
  | mirror (link dev seq : Nat)
  deriving DecidableEq, Repr

/-- An insertion in progress (R181, R187): its slot and generation, whether the record lies in tier B and
its cold slot then, the outcome it will end with once it is known (0 OK, 1 EXISTS with the forward key found, 2
EXISTS with the return key found, 3 NO_SPACE, 4 SAME_KEY), whether PEND is set on its entries, and who
asked. -/
structure Insertion where
  id : Nat
  slot : Nat
  gen : Nat
  tierB : Bool
  cold : Nat
  status : Option Nat
  pend : Bool
  origin : Origin
  deriving DecidableEq, Repr

/-- For whom an entry is placed in the index or the directory: an insertion, the promotion of a fetch, a demotion of a slot
that is abandoned (R201), a rescan (R576), or a record that takes a cold slot. -/
inductive PlaceFor where
  | insertion (id : Nat)
  | promotion (fetch : Nat)
  | reinsert (slot : Nat)
  | rescan
  | cold (c : Nat)
  deriving DecidableEq, Repr

/-- A relocation path in the index or, with `dir`, in the directory (R184, R185, R191): the entries from the one to be freed in
the key's primary bucket to the free one at its end, whose last move is under way; keys are 8 × bucket + entry.
`entry` is what takes the freed place, 0 once nothing is to take it; `held` are the buckets of the moves already made,
which stay reserved; `since` numbers the first fetch issued after the copy of the present move. -/
structure Move where
  dir : Bool := false
  path : List Nat
  held : List Nat := []
  entry : Nat
  since : Nat := 0
  who : PlaceFor
  deriving DecidableEq, Repr

/-- Why a record takes a cold slot (R187, R200): an insertion whose key of a direction found no place, or the demotion of a
slot and generation. -/
inductive ColdFor where
  | insertion (id dir : Nat)
  | demotion (slot gen : Nat) (origin : Origin)
  deriving DecidableEq, Repr

/-- A record whose directory entries are being placed: its cold slot, its bytes and its extension. -/
structure ColdPlace where
  cold : Nat
  record : Bytes
  exten : Bytes
  who : ColdFor
  deriving DecidableEq, Repr

/-- A record that software has inserted, and the epoch from which frames see it (R182). -/
structure SoftMark where
  tierB : Bool
  slot : Nat
  gen : Nat
  epoch : Nat
  deriving DecidableEq, Repr

/-- A combiner entry (R179).  With tierB it collects the write-backs of a fetched record, and `slot` is the
outstanding-fetch entry (R197). -/
structure Comb where
  slot : Nat
  gen : Nat
  tierB : Bool
  packets : Nat
  octets : Nat
  hitRet : Bool
  deriving DecidableEq, Repr

/-- A tracking update on its way to the record (R230). -/
structure Track where
  slot : Nat
  gen : Nat
  tierB : Bool
  ret : Bool
  flags : Nat
  deriving DecidableEq, Repr

/-- An open fold (R239, R240): its task once it has reached a cluster, and the counts read and subtracted, once
they are. -/
structure Fold where
  slot : Nat
  gen : Nat
  task : Option Nat
  taken : Bool
  packets : Nat
  octets : Nat
  deriving DecidableEq, Repr

/-- A deletion that waits for its fence (R245): a tier-A slot or, with tierB, a cold slot; `mark` numbers the
first fetch issued after its step 2.  Reason 0 is a slot of an insertion that failed, which is freed and nothing
else (R187). -/
structure Del where
  tierB : Bool
  slot : Nat
  gen : Nat
  stamp : Nat
  mark : Nat
  live : Bool
  reason : Nat
  origin : Origin
  deriving DecidableEq, Repr

/-- A demotion in progress (R200): an entry of the demotion table.  With `back` its index entries are being inserted again
(R201). -/
structure Dem where
  slot : Nat
  cold : Nat
  stamp : Nat
  origin : Origin
  back : Bool := false
  deriving DecidableEq, Repr

/-- An outstanding fetch (R193): its entry in the table, its serial number, the key, whether its directory
reads are back, the candidates left, the frames that wait on it and how many have joined, the cold slot it found,
and the tier-A slot that its frames are served from.  Once `ending` is set it is kept only until the write-backs of its
frames are applied, which go to its entry or to the slot `left`. -/
structure Fetch where
  id : Nat
  serial : Nat
  key : Bytes
  directory : Bool := false
  cands : List Nat := []
  frames : List Nat := []
  joined : Nat := 0
  cold : Option Nat := none
  slot : Option Nat := none
  ending : Bool := false
  left : Option Nat := none
  deriving DecidableEq, Repr

/-- A refused promotion that waits for its fence (R197), with the counts that slot and cold copy began with. -/
structure Refused where
  slot : Nat
  gen : Nat
  cold : Nat
  stamp : Nat
  packets : Nat
  octets : Nat
  deriving DecidableEq, Repr

/-- A tenant purge in progress (R254): the forward keys of the records it has still to delete, and how many it has
deleted. -/
structure Purge where
  tenant : Nat
  aseq : Nat
  count : Nat
  left : List Bytes
  deriving DecidableEq, Repr

/-- A course of a pier (R153, R157, R573-R577): role, the course that a spare stands for, the granules copied so far
by a rebuild with those found uncorrectable, the buckets placed again, the command that asked for it, corrected
windows over the limit, and the corrected errors of the present window. -/
structure Course where
  retired : Bool := false
  rebuilding : Bool := false
  standing : Option Nat := none
  copied : Nat := 0
  bad : Nat := 0
  rebuilt : Nat := 0
  aseq : Option Nat := none
  overs : Nat := 0
  window : Nat := 0
  deriving DecidableEq, Repr

/-- The flow store (05, 06).  Index and directory keys are 8 × bucket + entry. -/
structure FsSt where
  formatted : Bool := false
  formatting : Option Nat := none
  half : Bool := false
  tbBase : Nat := 0
  tbSize : Nat := 0
  seedA : BitVec 64 := 0
  seedB : BitVec 64 := 0
  seedC : BitVec 64 := 0
  seedEA : BitVec 64 := 0
  seedEB : BitVec 64 := 0
  recs : Store Bytes := []
  ext : Store Bytes := []
  idx : Store Nat := []
  spill : Store Nat := []
  piers : Store Pier := []
  parked : Store (List Nat) := []
  nextIns : Nat := 0
  ins : List Insertion := []
  moves : List Move := []
  spillDec : List Nat := []
  comb : List Comb := []
  tracks : List Track := []
  folds : List Fold := []
  dels : List Del := []
  dems : List Dem := []
  demoting : Bool := false
  nextFetch : Nat := 0
  fetches : List Fetch := []
  refused : List Refused := []
  cold : Store Bytes := []
  dir : Store Nat := []
  coldNext : Nat := 0
  coldFree : List Nat := []
  coldFullPosted : Bool := false
  colds : List ColdPlace := []
  mgmt : List SoftMark := []
  round : Nat := 0
  lost : List Nat := []
  purges : List Purge := []
  courses : Store Course := []
  deriving DecidableEq, Repr

/-- The state of a configuration entry (R257). -/
inductive EntSt where
  | empty
  | valid (s : Nat)
  | retiring (s : Nat)
  deriving DecidableEq, Repr

/-- A configuration entry: state, whether its stamp is settled (R244), and contents. -/
structure Ent where
  st : EntSt := .empty
  settled : Bool := false
  bytes : Bytes := []
  deriving DecidableEq, Repr

/-- One entry operation of a table command (R258, R669). -/
structure EntOp where
  write : Bool
  id : Nat
  idx : Nat
  bytes : Bytes
  deriving DecidableEq, Repr

/-- A table command between its invalidate and its write step (R258, R259): the epoch whose fence it
waits for, and its operations. -/
structure TableWait where
  aseq : Nat
  inst : Nat
  fence : Nat
  batch : Bool
  ops : List EntOp
  deriving DecidableEq, Repr

/-- What a relocation path of a hashed table makes room for: a table command or a learned key. -/
inductive PathFor where
  | command (aseq : Nat)
  | learn (mac : Bytes) (ten : Nat)
  deriving DecidableEq, Repr

/-- A relocation in a hashed table (R264): table, the entries of its path from the key's primary bucket
on, whose last but one has just been copied to the last, the entries that the moves already made have filled (their
buckets stay reserved), the entry to be placed at its start, and for
whom. -/
structure HashedMove where
  id : Nat
  path : List Nat
  held : List Nat := []
  bytes : Bytes
  who : PathFor
  deriving DecidableEq, Repr

/-- A key in flight or pending in the learn unit (R273, R275, R276): MAC, tenant, subport, time in us, the
subport it is to move to at once with the epoch of the frame that showed it there, the candidate subport of a move with its
time, and the frame with its epoch. -/
structure Learn where
  mac : Bytes
  tenant : Nat
  sub : Nat
  time : Nat
  moveTo : Option (Nat × Nat)
  cand : Option (Nat × Nat)
  fid : Nat
  epoch : Nat
  deriving DecidableEq, Repr

/-- The configuration tables and the learn unit (07).  Entry keys: see tableKey. -/
structure TblSt where
  epoch : Nat := 0
  ents : Store Ent := []
  waits : List TableWait := []
  flips : List HashedMove := []
  flight : List Learn := []
  pend : List Learn := []
  learnEvt : Store Bool := []
  deriving DecidableEq, Repr

/-- A cell header (R359), without NEXT: the chain of a frame is the frame's list of cells.  `ing` is 0,
or 1 more than the key of the subport and priority whose count holds the cell (R372); `bad` marks a header that its SECDED
code cannot read any more. -/
structure CellHdr where
  alloc : Bool := false
  owner : Nat := 0
  refs : Nat := 0
  ing : Nat := 0
  holdEgress : Bool := false
  holdEngine : Bool := false
  holdHost : Bool := false
  bad : Bool := false
  deriving DecidableEq, Repr

/-- A copy of a frame in a queue (R362): frame, encap override, mirror bit, truncation in bytes, CE
mark, whether it may cut through, the cells charged to the queue and the pool they count in. -/
structure Copy where
  fid : Nat
  encap : Nat
  mirror : Bool
  trunc : Nat
  ce : Bool
  cut : Bool
  cells : Nat
  pool : Nat := 0
  deriving DecidableEq, Repr

/-- The frame that a subport is sending: its queue, the copy, and the bytes sent, whose FCS is inverted
when it is stomped (R41, R382). -/
structure TxFrame where
  queue : Nat
  copy : Copy
  data : Bytes
  stomped : Bool
  deriving DecidableEq, Repr

/-- One queue (R377, R384, R386, R387): copies from the head, depth in cells, tokens in units of
1/12,000,000 B as they stood at `refillAt`, CBS credit in units of 1/1,500,000 bit as it stood at
`creditAt`, deficit in bytes, and whether the round's visit of it has begun. -/
structure Queue where
  copies : List Copy := []
  depth : Nat := 0
  tokens : Int := 0
  refillAt : Nat := 0
  credit : Int := 0
  creditAt : Nat := 0
  deficit : Nat := 0
  visited : Bool := false
  deriving DecidableEq, Repr

/-- The scheduler of a subport (R384, R386): shaper tokens as of a queue, the DWRR queues left in the
current round in their order, and those that wait for the next round. -/
structure Sched where
  tokens : Int := 0
  refillAt : Nat := 0
  round : List Nat := []
  next : List Nat := []
  deriving DecidableEq, Repr

/-- A policer's buckets in units of 1/46,875 bit as they stood at `refillAt` (R398, R399), and its colour
counts. -/
structure Policer where
  c : Nat := 0
  e : Nat := 0
  refillAt : Nat := 0
  green : Nat := 0
  yellow : Nat := 0
  red : Nat := 0
  greenB : Nat := 0
  yellowB : Nat := 0
  redB : Nat := 0
  deriving DecidableEq, Repr

/-- The gate schedule of a subport (R391): whether a list is in force, its bank, length and cycle time,
the cycle's start and the entry in force, and the change waiting with its time. -/
structure Gate where
  enabled : Bool := false
  bank : Nat := 0
  len : Nat := 0
  cycle : Nat := 0
  start : Nat := 0
  entry : Nat := 0
  change : Option (Nat × Nat × Nat × Nat) := none
  deriving DecidableEq, Repr

/-- The two sides of a census walk for one owner tag (R370, R371): R_t, H_t and the number of
allocated cells, for the last walk and the one before. -/
structure Census where
  r1 : Nat := 0
  h1 : Nat := 0
  n1 : Nat := 0
  r0 : Nat := 0
  h0 : Nat := 0
  deriving DecidableEq, Repr

/-- The packet buffer and traffic manager (09).  Cells never allocated since reset are taken in
ascending order before freed ones. -/
structure BufSt where
  cells : Store CellHdr := []
  fresh : Nat := 0
  freed : List Nat := []
  used : Store Nat := []
  queues : Store Queue := []
  pool : Store Nat := []
  ing : Store Nat := []
  headroom : Store Nat := []
  sched : Store Sched := []
  tx : Store (Option TxFrame) := []
  pol : Store Policer := []
  mirrorDrops : Store Nat := []
  gates : Store Gate := []
  census : Store Census := []
  walking : Bool := false
  replRot : Nat := 0
  descs : Nat := 0
  deriving DecidableEq, Repr

/-- The states of a thread (R303).  What it waits for stands with the waiting state; a channel is numbered
64 × physical cluster + channel. -/
inductive ThreadSt where
  | idle
  | ready
  | waitChannel (ch : Nat) (commit : Bool)
  | waitLock (lock : Nat)
  | waitMemory
  | waitTimer
  | halted
  deriving DecidableEq, Repr

/-- What a thread in WAIT_MEMORY gets when its operation completes: the register, its value, and the
data-memory bytes to be written with it (R306, R310); for MEM_READ the LPDDR6 address and length read. -/
structure MemResult where
  rd : Nat
  value : BitVec 64
  addr : Nat
  data : Bytes
  load : Bool
  ddr : Option (Nat × Nat) := none
  deriving DecidableEq, Repr

/-- A record that a task names: whether it lies in tier B, its slot or cold slot, and its generation (R310). -/
structure RecRef where
  cold : Bool
  slot : Nat
  gen : Nat
  deriving DecidableEq, Repr

/-- One thread (R298, R307, R313, R316, R318).  `chs` is the channel status register, `resume` the state it was
halted in, `rdWait` the register that the operation it waits for writes, `broke` says that BREAK halted it. -/
structure Thread where
  regs : Store (BitVec 64) := []
  pc : Nat := 0
  timer : Option Nat := none
  staged : List (BitVec 64) := []
  chs : Nat := 0
  st : ThreadSt := .idle
  resume : ThreadSt := .ready
  task : Option Nat := none
  locks : List Nat := []
  rdWait : Nat := 0
  mem : Option MemResult := none
  haltReq : Bool := false
  stepping : Bool := false
  broke : Bool := false
  deriving DecidableEq, Repr

/-- One word of a channel with its side field (R313); words of a message committed in this cc are not
yet visible (R314). -/
structure ChanWord where
  word : BitVec 64
  side : Nat
  visible : Bool
  deriving DecidableEq, Repr

/-- One channel (R313, R316): words oldest first, the reader that holds it, readers and writers that
wait, as logical engine × 8 + thread. -/
structure Chan where
  words : List ChanWord := []
  holder : Option Nat := none
  readers : List Nat := []
  writers : List Nat := []
  deriving DecidableEq, Repr

/-- One lock (R319, R320): holder, BROKEN, and waiters oldest first; it is HELD_HALTED while its holder is halted. -/
structure Lock where
  holder : Option Nat := none
  broken : Bool := false
  waiters : List Nat := []
  deriving DecidableEq, Repr

/-- The state of a task in the matching store (R331-R335). -/
inductive TaskSt where | waiting | running | preempted | ended
  deriving DecidableEq, Repr

/-- A release that an ordered group holds (R333): a frame, a completion, or an event by group, number, origin and body. -/
inductive Release where
  | frame (dst queue : Nat) (data : Bytes) (tag : Nat)
  | completion (aseq status detail : Nat)
  | event (grp num origin : Nat) (body : Bytes)
  deriving DecidableEq, Repr

/-- A thread context saved by pre-emption (R336): registers with the channel status, program counter, timer, task area,
and the cycle it was saved in. -/
structure Context where
  regs : Store (BitVec 64)
  chs : Nat
  pc : Nat
  timer : Option Nat
  area : Bytes
  savedAt : Nat
  deriving DecidableEq, Repr

/-- A task (R323, R331): descriptor, logical cluster, cycle of arrival, operands by their declaration as they arrive
and those still missing, the frame parked for it, the copy of an INTERNAL task, the accepted command of a MGMT task,
whether it waits in P0, its held releases, its saved context, and the record that FS_WRITE names. -/
structure Task where
  desc : Bytes
  cluster : Nat
  arrived : Nat
  operands : List (Nat × Bytes) := []
  missing : List Nat := []
  frame : Option Nat := none
  copy : Option Copy := none
  aseq : Option Nat := none
  st : TaskSt := .waiting
  retry : Bool := false
  held : List Release := []
  saved : Option Context := none
  written : Option RecRef := none
  deriving DecidableEq, Repr

/-- One physical cluster (R298): channels and locks, the tasks of its matching store in arrival order,
and whether its shared units have failed (R349). -/
structure Cluster where
  chans : Store Chan := []
  locks : Store Lock := []
  tasks : List Nat := []
  failed : Bool := false
  deriving DecidableEq, Repr

/-- One logical engine (R300, R347, R356): instruction and data memory, threads, drain, the stored image it runs and
whether no task has run on it yet, and the physical spare that is being loaded for it. -/
structure Engine where
  imem : Store (BitVec 64) := []
  dmem : List (Nat × BitVec 8) := []
  threads : Store Thread := []
  drained : Bool := false
  draining : Option Nat := none
  image : Option Nat := none
  firstTask : Bool := false
  spare : Option Nat := none
  deriving DecidableEq, Repr

/-- The state of a physical engine (R347, R348). -/
inductive PhysState where | inUse | spare | loading | selfTest | retired
  deriving DecidableEq, Repr

/-- The Tarril engines (08): physical clusters, logical engines, physical engines, tasks by number. -/
structure EngSt where
  cl : Store Cluster := []
  en : Store Engine := []
  pe : Store (Option PhysState) := []
  tasks : Store (Option Task) := []
  nextTask : Nat := 0
  deriving DecidableEq, Repr

/-- The states of a DMA channel (R482, R483). -/
inductive DmaSt where | idle | fetching | running | waiting | stopped
  deriving DecidableEq, Repr

/-- A DMA burst in flight (R488, R490): its number, the offset and length of its part of the range, and its data once
read and being written; `bad` says that it is written poisoned (R493). -/
structure Burst where
  idx : Nat
  off : Nat
  len : Nat
  data : Option Bytes := none
  bad : Bool := false
  deriving DecidableEq, Repr

/-- One DMA channel (R482-R494).  `before` is the pending bit as the fetch under way found it, `granted` the bytes whose
bursts have been granted, `written` those whose bursts are done; `failAt` is the offset of the first burst that failed with
cause `error`, `diff` the first difference that a COMPARE has found, `last` the status of the last descriptor consumed. -/
structure DmaCh where
  st : DmaSt := .idle
  pending : Bool := false
  chain : Nat := 0
  tail : Bool := false
  reading : Bool := false
  consumed : Nat := 0
  desc : Bytes := []
  granted : Nat := 0
  nextBurst : Nat := 0
  written : Nat := 0
  bursts : List Burst := []
  disable : Bool := false
  before : Bool := false
  error : Nat := 0
  failAt : Nat := 0
  diff : Option Nat := none
  last : Nat := 0
  deriving DecidableEq, Repr

/-- DMA channels, the staging SRAM, the position in the cycle of 15 grants, and the channel last served at each level
(R489). -/
structure DmaStt where
  ch : Store DmaCh := []
  slot : Nat := 0
  served : Store Nat := []
  staging : List (Nat × BitVec 8) := []
  deriving DecidableEq, Repr

/-- The states of an LPDDR6 channel (R511); self-refresh is its block's state at the wake joint. -/
inductive DdrSt where | untrained | inService | retraining | evacuating | retired
  deriving DecidableEq, Repr

/-- One LPDDR6 channel (R503-R508): retraining steps done and failed in a row, a retraining asked for by drift or command,
corrected errors of the present and the last window, windows over the limit in a row, the time of the last full retraining,
and while it evacuates the granules copied and the base of its band. -/
structure DdrCh where
  st : DdrSt := .untrained
  step : Nat := 0
  failed : Nat := 0
  due : Bool := false
  window : Nat := 0
  lastWindow : Nat := 0
  overs : Nat := 0
  trainedAt : Nat := 0
  evacuated : Nat := 0
  band : Nat := 0
  retireAseq : Option Nat := none
  trainAseq : Option Nat := none
  deriving DecidableEq, Repr

/-- The LPDDR6 (12): bytes outside the record and directory regions, poisoned granules of 32 B of it and of the staging
SRAM, channels, the open row of each bank, the panic mark, the bands taken in service and those
taken at boot. -/
structure DdrStt where
  mem : List (Nat × BitVec 8) := []
  poison : List Nat := []
  stagingPoison : List Nat := []
  ch : Store DdrCh := []
  rows : Store (Option Nat) := []
  panic : Bool := false
  bands : Nat := 0
  bootBands : Nat := 0
  deriving DecidableEq, Repr

/-- The sleep states of R517; `gone` is a block out of service. -/
inductive SleepSt where
  | awake | laneSleep | portSleep | retention | selfRefresh | clockGated | powerGated | waking | gone
  deriving DecidableEq, Repr

/-- A block at the wake joint (R517, R518, R525): its state since the cycle `since`, the state it left
and the cycle of its last grant, the cycle it must be ready at, whether it was late once, POWER_HOLD,
and the POWER_WAKE commands that wait for it. -/
structure Blk where
  st : SleepSt
  since : Nat := 0
  left : SleepSt := .awake
  granted : Option Nat := none
  dueAt : Option Nat := none
  late : Bool := false
  hold : Bool := false
  wakers : List Nat := []
  deriving DecidableEq, Repr

/-- A queued wake request (R519-R522): class 1 to 6, blocks (several lanes of one
lane group), credits, the cycle it was queued, and the child merged with it. -/
structure WakeReq where
  cls : Nat
  kind : BlockKind
  nums : List Nat
  credits : Nat
  queuedAt : Nat
  child : Option (BlockKind × Nat) := none
  deriving DecidableEq, Repr

/-- Wake and health (R517-R530).  Blocks are keyed by kind and number (blockKey).  `used` are the
credits in use, `grants` the credits of each grant not yet returned, oldest first. -/
structure PwrSt where
  blocks : Store Blk := []
  queue : List WakeReq := []
  used : Nat := 0
  grants : List Nat := []
  maxWait : Nat := 0
  sensors : List Int := List.replicate 32 0
  rails : List Nat := List.replicate 7 0
  warned : List Nat := []
  critical : List Nat := []
  railBad : List Nat := []
  highest : Int := -128
  trip : Bool := false
  deriving DecidableEq, Repr

/-- The state of a bond link (R537). -/
inductive LinkSt where | out | service | mismatch
  deriving DecidableEq, Repr

/-- One bond link, by subport (R535-R537): state, peer device, what the peer's last HELLO said, credit
held from the peer by class, the next frame number, the cells that wait for credit with their classes, and whether
STACK_LEAVE has taken the link out of service since its last link-up. -/
structure Bond where
  st : LinkSt := .out
  peer : Nat := 0
  peerMode : Nat := 0
  peerQuoin : Nat := 0
  peerStrap : Bool := false
  peerTerm : Nat := 0
  credit : List Nat := [0, 0, 0, 0]
  txFrame : Nat := 0
  waiting : List (Nat × Bytes) := []
  left : Bool := false
  deriving DecidableEq, Repr

/-- A RECORD cell that waits for its acknowledgement (R549). -/
structure MirrorWait where
  partner : Nat
  seq : Nat
  link : Nat
  tries : Nat
  payload : Bytes
  move : Bool
  deriving DecidableEq, Repr

/-- The frames held for the INSERT of a record under MIRROR_SYNC (R550), and where their record is: tier and slot. -/
structure MirrorHold where
  partner : Nat
  seq : Nat
  frames : List Nat
  cold : Bool
  slot : Nat
  deriving DecidableEq, Repr

/-- A message relayed to another member that waits for its answer (R557-R559): tag, member, accepted command here, what it
is part of, 0 STACK_RELAY, 1 STACK_DIGEST, 2 STACK_MOVE, and the address of the result block. -/
structure RelayWait where
  tag : Nat
  dev : Nat
  aseq : Nat
  kind : Nat
  addr : Nat
  deriving DecidableEq, Repr

/-- A map move in progress on the quoin (R558): entry, former and new owner, command, step, members that have not answered
the step, the own table write (0 none or done, 1 to start, 2 waiting for its fence), and the records moved. -/
structure MoveWait where
  entry : Nat
  src : Nat
  dst : Nat
  aseq : Nat
  step : Nat
  left : List Nat
  localWrite : Nat
  count : Nat
  deriving DecidableEq, Repr

/-- The records of a map entry that this device sends to the entry's new owner for the quoin (R558): tag, quoin, entry,
records acknowledged so far. -/
structure MoveServe where
  tag : Nat
  dev : Nat
  entry : Nat
  count : Nat
  deriving DecidableEq, Repr

/-- STACK_DIGEST in progress: the answers so far by device (R559). -/
structure DigestWait where
  aseq : Nat
  addr : Nat
  left : List Nat
  answers : List (Nat × Bytes)
  deriving DecidableEq, Repr

/-- The stack (14). -/
structure StkSt where
  links : Store Bond := []
  formed : Bool := false
  mode : Nat := 0
  quoin : Option Nat := none
  term : Nat := 0
  seedS : BitVec 64 := 0
  members : Nat := 0
  isolated : Bool := false
  alive : Bool := false
  aliveIn : Nat := 0
  txSeq : Store Nat := []
  rxSeq : Store Nat := []
  early : Store Bytes := []
  awaits : List MirrorWait := []
  holds : List MirrorHold := []
  relayIn : Store Bytes := []
  relays : List RelayWait := []
  nextTag : Nat := 0
  moves : List MoveWait := []
  serves : List MoveServe := []
  digests : List DigestWait := []
  copies : Nat := 0
  needFormat : Bool := false
  deriving DecidableEq, Repr

/-- A planned switch (R569, R570): group, source, target, command, and whether the crossbar has moved the group already or
the switch still waits for its target to wake. -/
structure SliceMove where
  grp : Nat
  src : Nat
  dst : Nat
  aseq : Nat
  begun : Bool
  deriving DecidableEq, Repr

/-- A lane recalibration in progress (R580): path 0 sleeping, 1 narrowing, 2 forced. -/
structure Recal where
  port : Nat
  lane : Nat
  path : Nat
  aseq : Nat
  deriving DecidableEq, Repr

/-- Fault handling and live service (15).  `joined` is the slice each port group is joined to, listed
where it differs from its home slice; `none` is joined to none, and `dark` are the groups whose subports stay down for want of
a slice (R151, R634).  `remap` is the logical cluster and the command of a
CLUSTER_REMAP that waits for spare engines to drain. -/
structure FtSt where
  joined : Store (Option Nat) := []
  dark : List Nat := []
  waitS16 : Option Nat := none
  waitAseq : Option Nat := none
  subDrops : Nat := 0
  switch : Option SliceMove := none
  selfTest : Option (Nat × Nat) := none
  remap : Option (Nat × Nat) := none
  recals : List Recal := []
  reclaim : Option (Nat × Nat) := none
  releases : List Nat := []
  deriving DecidableEq, Repr

/-- What is kept of an image that has passed its check (R589, R599, R606). -/
structure ImgInfo where
  kind : Nat := 0
  version : Nat := 0
  svn : Nat := 0
  digest : Bytes := []
  payDigest : Bytes := []
  deriving DecidableEq, Repr

/-- A stored engine image (R595): entry table, instructions and data. -/
structure EngImg where
  info : ImgInfo
  table : Bytes
  imem : Bytes
  dmem : Bytes
  deriving DecidableEq, Repr

/-- A command that waits in the footing controller's queue for its image check (R593): accepted
command, what it loads, its target, and the copied image. -/
structure ImgCheck where
  aseq : Nat
  kind : Nat
  target : Nat
  image : Bytes
  deriving DecidableEq, Repr

/-- A flash slot (R596, R597): the check that it failed at boot or 0, whether it passed, and whether the last write of it
by FW_FLASH failed. -/
structure FlashSlot where
  failed : Nat := 0
  ok : Bool := false
  bad : Bool := false
  deriving DecidableEq, Repr

/-- A quote that waits for its signature (R603): command, bytes 0 to 255, result address, and the draw that tells its
signature from others. -/
structure Quote where
  aseq : Nat
  body : Bytes
  addr : Nat
  draw : Nat
  deriving DecidableEq, Repr

/-- Images, identity and attestation (16): the log, base value and register M; stored engine images 0 to 15; the SerDes
image of every port, of single ports, and the staged one; flash slots; the running footing image and its slot; the most
recently checked one with its slot, 2 for a push; the restart under way with its command; the queue of checks; the write of
a slot; the quote being signed; the certificate held. -/
structure ImgSt where
  log : List Bytes := []
  base : Bytes := List.replicate 48 0
  m : Bytes := List.replicate 48 0
  nextIndex : Nat := 0
  store : Store (Option EngImg) := []
  serdes : Option ImgInfo := none
  serdesPort : Store (Option ImgInfo) := []
  staged : Option ImgInfo := none
  slotA : FlashSlot := {}
  slotB : FlashSlot := {}
  running : ImgInfo := {}
  runSlot : Nat := 0
  pushed : Bool := false
  checked : Option (ImgInfo × Nat) := none
  restart : Option (Nat × ImgInfo × Nat) := none
  checks : List ImgCheck := []
  flashing : Option (Nat × Nat) := none
  quote : Option Quote := none
  cert : Bytes := []
  deriving DecidableEq, Repr

/-- Where the boot stands (R632): in reset, waiting for a push or for cool
sensors, in a step, done, or switched off by the thermal trip. -/
inductive BootPhase where
  | reset | pushWait | pushing | hotHold | rails | training | ready | failed | tripped
  deriving DecidableEq, Repr

/-- Boot (18): the latched straps; the sticky record; the phase; whether a sensor was hot at the release (R629); the enable
step reached, the rails in range, and the cycle of the next step (R659); whether LPDDR6 is trained; the units whose self-test
has ended, those that failed it, those that no core reset tests again (R634), and the failed ones whose spare took their
place; the result of each directory kind, 1 loaded, else 2 and the check number times 4; the end of each step in cycles since
the release; and the cycle of a core reset to come. -/
structure BootSt where
  bootSrc : Nat := 0
  hostMode : Nat := 0
  stackId : Nat := 0
  quoin : Bool := false
  ownPrio : Nat := 0
  learnMode : Nat := 0
  portProfile : Nat := 0
  refclkSel : Nat := 0
  stickyCause : Nat := 0
  stickyCode : Nat := 0
  phase : BootPhase := .reset
  hot : Bool := false
  railStep : Nat := 0
  railsOk : List Nat := []
  nextRails : Option Nat := none
  trained : Bool := false
  tested : List Nat := []
  failed : List Nat := []
  heldOut : List Nat := []
  spared : List Nat := []
  dirResult : Store Nat := []
  stepTimes : Store Nat := []
  coreReset : Option Nat := none
  deriving DecidableEq, Repr

/-- The state of the block.  `pending` is the queue of commands that wait, first in first out; `out` is
what has left the device, newest first; `free` numbers the draws of free values (log 6). -/
structure State where
  pending : List Instr := []
  out : List Out := []
  free : Nat := 0
  clk : Clk := {}
  regs : Regs := {}
  time : TimeSt := {}
  own : OwnSt := {}
  host : HostSt := {}
  ctr : CtrSt := {}
  pmc : Store Pmc := []
  ports : PortSt := {}
  slices : SliceSt := {}
  seq : SeqSt := {}
  ten : TenSt := {}
  fs : FsSt := {}
  tbl : TblSt := {}
  eng : EngSt := {}
  buf : BufSt := {}
  dma : DmaStt := {}
  ddr : DdrStt := {}
  pwr : PwrSt := {}
  stk : StkSt := {}
  ft : FtSt := {}
  img : ImgSt := {}
  boot : BootSt := {}
  deriving DecidableEq, Repr

/-- Why the block stops.  No effect of the spec stops it. -/
inductive Fault where
  /-- Raised by no meaning: every command has an effect in every state.  Safe: nothing stops. -/
  | noSuchInput
  deriving DecidableEq, Repr

/-- Why a command has no meaning in the model. -/
inductive Refusal where
  /-- Raised by `exec` for a row that the model does not yet give a meaning.  Safe: the model stops where
  the device goes on. -/
  | notModelled (mnemonic : String)
  deriving DecidableEq, Repr

/-- The machine right after reset: every field at the value the spec states for reset, and where it
states none at the value that log 7 names. -/
def State.reset : State := {}

/-! Updates of one field: laws about them stand in Laws/State.lean. -/

/-- The state with another `pending`. -/
def State.withPending (s : State) (v : List Instr) : State := { s with pending := v }

/-- The state with another `out`. -/
def State.withOut (s : State) (v : List Out) : State := { s with out := v }

/-- The state with another `free`. -/
def State.withFree (s : State) (v : Nat) : State := { s with free := v }

/-- The state with another `clk`. -/
def State.withClk (s : State) (v : Clk) : State := { s with clk := v }

/-- The state with another `regs`. -/
def State.withRegs (s : State) (v : Regs) : State := { s with regs := v }

/-- The state with another `time`. -/
def State.withTime (s : State) (v : TimeSt) : State := { s with time := v }

/-- The state with another `own`. -/
def State.withOwn (s : State) (v : OwnSt) : State := { s with own := v }

/-- The state with another `host`. -/
def State.withHost (s : State) (v : HostSt) : State := { s with host := v }

/-- The state with another `ctr`. -/
def State.withCtr (s : State) (v : CtrSt) : State := { s with ctr := v }

/-- The state with another `pmc`. -/
def State.withPmc (s : State) (v : Store Pmc) : State := { s with pmc := v }

/-- The state with another `ports`. -/
def State.withPorts (s : State) (v : PortSt) : State := { s with ports := v }

/-- The state with another `slices`. -/
def State.withSlices (s : State) (v : SliceSt) : State := { s with slices := v }

/-- The state with another `seq`. -/
def State.withSeq (s : State) (v : SeqSt) : State := { s with seq := v }

/-- The state with another `ten`. -/
def State.withTen (s : State) (v : TenSt) : State := { s with ten := v }

/-- The state with another `fs`. -/
def State.withFs (s : State) (v : FsSt) : State := { s with fs := v }

/-- The state with another `tbl`. -/
def State.withTbl (s : State) (v : TblSt) : State := { s with tbl := v }

/-- The state with another `eng`. -/
def State.withEng (s : State) (v : EngSt) : State := { s with eng := v }

/-- The state with another `buf`. -/
def State.withBuf (s : State) (v : BufSt) : State := { s with buf := v }

/-- The state with another `dma`. -/
def State.withDma (s : State) (v : DmaStt) : State := { s with dma := v }

/-- The state with another `ddr`. -/
def State.withDdr (s : State) (v : DdrStt) : State := { s with ddr := v }

/-- The state with another `pwr`. -/
def State.withPwr (s : State) (v : PwrSt) : State := { s with pwr := v }

/-- The state with another `stk`. -/
def State.withStk (s : State) (v : StkSt) : State := { s with stk := v }

/-- The state with another `ft`. -/
def State.withFt (s : State) (v : FtSt) : State := { s with ft := v }

/-- The state with another `img`. -/
def State.withImg (s : State) (v : ImgSt) : State := { s with img := v }

/-- The state with another `boot`. -/
def State.withBoot (s : State) (v : BootSt) : State := { s with boot := v }

end Sys2Proof.Machine
end

