-- ==== Sys2Proof/Machine/Ops.lean ====
section
/-! DEFINITION. The operations that every family shares: registers, time, counters, what leaves the
device, rings, events at the event joint, and commands from acceptance to completion. -/

namespace Sys2Proof.Machine

/-! Reading and writing single things of the state. -/

/-- A ring of a host port by its doorbell page. -/
def ringAt (s : State) (h page : Nat) : Ring := getAt {} s.host.rings (256 * h + page)

/-- Writes a ring. -/
def setRing (s : State) (h page : Nat) (r : Ring) : State :=
  s.withHost { s.host with rings := setAt {} s.host.rings (256 * h + page) r }

/-- A subport. -/
def subAt (s : State) (n : Nat) : Sub := getAt {} s.ports.sub n

/-- Writes a subport. -/
def setSub (s : State) (n : Nat) (x : Sub) : State :=
  s.withPorts { s.ports with sub := setAt {} s.ports.sub n x }

/-- A lane. -/
def laneAt (s : State) (n : Nat) : Lane := getAt {} s.ports.lane n

/-- Writes a lane. -/
def setLane (s : State) (n : Nat) (x : Lane) : State :=
  s.withPorts { s.ports with lane := setAt {} s.ports.lane n x }

/-- A slice. -/
def sliceAt (s : State) (n : Nat) : Slice := getAt {} s.slices.sl n

/-- Writes a slice. -/
def setSlice (s : State) (n : Nat) (x : Slice) : State :=
  s.withSlices { s.slices with sl := setAt {} s.slices.sl n x }

/-- The admission of a port is closed, by the setup queue of the slice of its group or by S16's (R340). -/
def portClosed (s : State) (port : Nat) : Bool :=
  (sliceAt s (port / 6)).closedPorts.contains port || (sliceAt s 16).closedPorts.contains port

/-- A frame that the device holds. -/
def frameAt (s : State) (fid : Nat) : Option Frame := getAt none s.slices.frames fid

/-- Writes a frame, or forgets it. -/
def setFrame (s : State) (fid : Nat) (x : Option Frame) : State :=
  s.withSlices { s.slices with frames := setAt none s.slices.frames fid x }

/-- Adds to what has left the device. -/
def emit (s : State) (o : Out) : State := s.withOut (o :: s.out)

/-- A value that the spec leaves open, and the state in which the next draw is another one (log 6). -/
def draw (s : State) : BitVec 64 × State := (Config.freeValue s.free, s.withFree (s.free + 1))

/-! Registers. -/

/-- The applied value of a register (R644). -/
def regVal (s : State) (r : Reg) (i : Nat) : Nat :=
  (getAt (resetAt (r.off i)) s.regs.applied (r.off i)).toNat

/-- A field of a register: lowest bit and width. -/
def regField (s : State) (r : Reg) (i lo w : Nat) : Nat := bits (regVal s r i) lo w

/-- Sets the applied value of a register. -/
def setReg (s : State) (r : Reg) (i v : Nat) : State :=
  s.withRegs { s.regs with
    applied := setAt (resetAt (r.off i)) s.regs.applied (r.off i) (BitVec.ofNat 64 v) }

/-- Sets a field of a register. -/
def setRegField (s : State) (r : Reg) (i lo w v : Nat) : State :=
  setReg s r i (putBits (regVal s r i) lo w v)

/-! Time (R404-R406).  Units are 2^-32 ns unless a name says otherwise. -/

/-- A domain clock. -/
def domainOf (t : TimeSt) (d : Nat) : Domain := if d = 0 then t.dom0 else t.dom1

/-- Writes a domain clock. -/
def setDomain (s : State) (d : Nat) (x : Domain) : State :=
  s.withTime (if d = 0 then { s.time with dom0 := x } else { s.time with dom1 := x })

/-- The primary domain, PRIMARY_SEL of TIME_CFG (R405). -/
def primaryDom (s : State) : Nat := regField s .timeCfg 0 0 1

/-- Primary time: the domain time of the primary domain plus the residual (R406). -/
def primaryTime (s : State) : Int := (domainOf s.time (primaryDom s)).t + s.time.resid * 65536

/-- The nanosecond count of a time, modulo 2^64 (R404). -/
def nsOf (t : Int) : Nat := (t / 4294967296 % 18446744073709551616).toNat

/-- The nanosecond count of primary time (R404). -/
def timeNs (s : State) : Nat := nsOf (primaryTime s)

/-- Coarse time: units of 2^20 ns of primary time, modulo 2^32 (R164). -/
def coarse (s : State) : Nat := timeNs s / 1048576 % 4294967296

/-! Counters (R608-R612). -/

/-- The key of a counter: group kind, number of the group, index of the counter. -/
def ctrKey (kind num idx : Nat) : Nat := 256 * (1048576 * kind + num) + idx

/-- The value of a counter. -/
def counter (s : State) (kind num idx : Nat) : Nat := getAt 0 s.ctr.vals (ctrKey kind num idx)

/-- An event of a counter that a sample may leave out for 64 cycles (R609). -/
def noteLate (s : State) (key n : Nat) : List LateCount :=
  s.ctr.recent ++ [{ key := key, at_ := s.clk.cc, n := n, skipped := false }]

/-- Adds to a counter, which wraps modulo 2^64 and then sets its WRAP bit (R608). -/
def count (s : State) (kind num idx n : Nat) : State :=
  let k := ctrKey kind num idx
  let v := getAt 0 s.ctr.vals k + n
  s.withCtr { s.ctr with
    vals := setAt 0 s.ctr.vals k (v % 2 ^ 64), recent := noteLate s k n
    wrap := if v < 2 ^ 64 then s.ctr.wrap else setAt false s.ctr.wrap k true }

/-- A gauge changes in this cycle (R609). -/
def touch (s : State) (kind num idx : Nat) : State :=
  s.withCtr { s.ctr with touched := setAt 0 s.ctr.touched (ctrKey kind num idx) (s.clk.cc + 1) }

/-- What a sample leaves out of a counter, event by event as the device decides (R609; log 6): events of the last 64 cycles
that no sample has left out before. -/
def leaveOut (key : Nat) : List LateCount → State → State × List LateCount × Nat
  | [], s => (s, [], 0)
  | e :: es, s =>
    if e.key ≠ key then
      match leaveOut key es s with
      | (s, l, n) => (s, e :: l, n)
    else if e.skipped ∨ e.at_ + 64 ≤ s.clk.cc then leaveOut key es s
    else match draw s with
      | (v, s) =>
        match leaveOut key es s with
        | (s, l, n) => if v.getLsbD 0 then (s, l, n) else (s, { e with skipped := true } :: l, n + e.n)

/-- A sample of a count that wraps at a modulus (R608, R609). -/
def sampleCount (s : State) (key total modulus : Nat) : State × Nat :=
  match leaveOut key s.ctr.recent s with
  | (s, l, n) => (s.withCtr { s.ctr with recent := l }, (total + modulus - n % modulus) % modulus)

/-- A sample of a fixed counter. -/
def sampleCounter (s : State) (kind num idx : Nat) : State × Nat :=
  sampleCount s (ctrKey kind num idx) (counter s kind num idx) (2 ^ 64)

/-- Samples of some counters of a group, in order. -/
def sampleCounters (s : State) (kind num : Nat) : List Nat → State × List Nat
  | [] => (s, [])
  | i :: is =>
    match sampleCounter s kind num i with
    | (s, v) => match sampleCounters s kind num is with
      | (s, vs) => (s, v :: vs)

/-- A sample of a gauge: its level, or an open value while changes of the last 64 cycles may be missing (R609; log 6). -/
def sampleGauge (s : State) (kind num idx level : Nat) : State × Nat :=
  if getAt 0 s.ctr.touched (ctrKey kind num idx) + 63 ≤ s.clk.cc ∨ getAt 0 s.ctr.touched (ctrKey kind num idx) = 0 then (s, level)
  else match draw s with
    | (v, s) => (s, v.toNat)

/-- Counts a reserved write of a master (R15, R435): HOST group for a host port, DEVICE group for the
management master and the quoin relay. -/
def countReserved (s : State) (m n : Nat) : State :=
  if m < 2 then count s 13 m 0 n else count s 14 0 (45 + m) n

/-- Counts a non-owner write or refusal of a master (R469). -/
def countNonOwner (s : State) (m : Nat) : State := count s 14 0 m 1

/-! Origin codes (R4-R9). -/

/-- An origin code from its levels block, unit, subunit and lane. -/
def origin (s : State) (block unit sub lane : Nat) : Nat :=
  2 ^ 32 * regField s .originFleet 0 0 16 + 2 ^ 22 * (regField s .originStack 0 0 10 / 2 ^ 8) +
    2 ^ 24 * regField s .originStack 0 0 8 + 2 ^ 17 * (block % 32) + 2 ^ 10 * (unit % 128) +
    sub % 8 * 2 ^ 7 + lane % 8 * 2 ^ 4

/-- The origin code of a port, subport and lane: the block of its home slice, whichever slice serves it
(R9). -/
def portOrigin (s : State) (port sub lane : Nat) : Nat := origin s (port / 6) (port % 6) sub lane

/-- The origin code of a device subport (R34): port n has subports 4n to 4n + 3. -/
def subOrigin (s : State) (n : Nat) : Nat := portOrigin s (n / 4) (n % 4) 0

/-! Rings (R438-R444). -/

/-- The register number of a ring's RING_BASE, RING_WB and RING_CFG. -/
def ringNo (h page : Nat) : Nat := 184 * h + page

/-- The type of a ring by its page: 0 CMD, 1 CPL, 2 EVT, 3 PUNT, 4 INJ, 5 TEL (R438). -/
def ringType (page : Nat) : Nat :=
  if page < 64 then 0 else if page < 128 then 1 else if page < 144 then 2
  else if page < 160 then 3 else if page < 176 then 4 else 5

/-- The first page of a ring type (R438). -/
def typePage (t : Nat) : Nat :=
  if t = 0 then 0 else if t = 1 then 64 else if t = 2 then 128
  else if t = 3 then 144 else if t = 4 then 160 else 176

/-- How many rings of a type a host port has (R438). -/
def typeCount (t : Nat) : Nat := if t ≤ 1 then 64 else if t ≤ 4 then 16 else if t = 5 then 8 else 0

/-- The number of entries of a ring, 64 × 2^SIZE (R439, R440). -/
def ringN (s : State) (h page : Nat) : Nat := 64 * 2 ^ min (regField s .ringCfg (ringNo h page) 0 4) 10

/-- The bytes of an entry of a ring (R438). -/
def entrySize (s : State) (h page : Nat) : Nat :=
  match ringType page with
  | 0 => 64
  | 1 => 16
  | 5 => 16 * 2 ^ min (regField s .ringCfg (ringNo h page) 6 2) 2
  | _ => 32

/-- The ring is in chain mode: CMD and INJ rings only (R440). -/
def ringChain (s : State) (h page : Nat) : Bool :=
  (ringType page == 0 || ringType page == 4) && regField s .ringCfg (ringNo h page) 5 1 == 1

/-- The host address of an entry (R439). -/
def entryAddr (s : State) (h page i : Nat) : Nat :=
  regVal s .ringBase (ringNo h page) / 4096 * 4096 + i % ringN s h page * entrySize s h page

/-- A ring runs. -/
def ringRuns (s : State) (h page : Nat) : Bool := (ringAt s h page).st == .running

/-- The difference of the indexes of a ring modulo 2^32 (R439). -/
def ringUsed (r : Ring) : Nat := wrapSub 32 r.prod r.cons

/-- Free entries of a ring that the device fills. -/
def ringRoom (s : State) (h page : Nat) : Nat := ringN s h page - ringUsed (ringAt s h page)

/-- A posted write into host memory; an empty write is none. -/
def hostWrite (s : State) (h addr : Nat) (data : Bytes) : State :=
  if data.isEmpty then s else emit s (.hostWrite h addr data)

/-- Writes the device's index to RING_WB, unless its address is 0 (R440). -/
def writeBack (s : State) (h page idx : Nat) : State :=
  let a := regVal s .ringWb (ringNo h page) / 8 * 8
  if a = 0 then s else hostWrite s h a (le 4 idx)

/-- Sends an MSI-X message, or sets the pending bit of a masked vector (R442). -/
def sendMsix (s : State) (h vector : Nat) : State :=
  if getAt true s.host.masked (256 * h + vector) then
    s.withHost { s.host with msixPending := setAt false s.host.msixPending (256 * h + vector) true }
  else emit s (.msix h vector)

/-- Signals `n` new entries of one posting: at once without MOD_TIME, else when MOD_COUNT unsignalled
entries are there (R440, R442). -/
def signal (s : State) (h page n : Nat) : State :=
  let cfg := regVal s .ringCfg (ringNo h page)
  let r := ringAt s h page
  if bits cfg 28 4 = 0 then sendMsix s h (bits cfg 8 8)
  else if max (bits cfg 20 8) 1 ≤ r.unsignalled + n then
    sendMsix (setRing s h page { r with unsignalled := 0 }) h (bits cfg 8 8)
  else setRing s h page { r with unsignalled := r.unsignalled + n }

/-- PHASE of an entry: 1 on the first pass through the ring after enable, and alternating (R443). -/
def phaseOf (s : State) (h page idx : Nat) : Nat := 1 - idx / ringN s h page % 2

/-- Writes entries one after another from the producer index on, each formed with its PHASE. -/
def putEntries (s : State) (h page : Nat) : List (Nat → Bytes) → State
  | [] => s
  | e :: es =>
    let r := ringAt s h page
    let s := hostWrite s h (entryAddr s h page r.prod) (e (phaseOf s h page r.prod))
    putEntries (setRing s h page { r with prod := (r.prod + 1) % 2 ^ 32 }) h page es

/-- Posts entries on a ring that the device fills: entries, index, interrupt, in that order (R442). -/
def post (s : State) (h page : Nat) (es : List (Nat → Bytes)) : State :=
  let s := putEntries s h page es
  signal (writeBack s h page (ringAt s h page).prod) h page es.length

/-- Discards a completion or record bound for a ring and counts it there (R444). -/
def discardOn (s : State) (h page : Nat) : State :=
  let r := ringAt s h page
  setRing s h page { r with discarded := r.discarded + 1 }

/-- Writes a record on a TEL ring, and says whether it was written: a record longer than ESIZE, one for
a ring that does not run, or one that finds the ring full is discarded and counted (R444, R468, R620). -/
def telPost (s : State) (h ring : Nat) (rec : Bytes) : State × Bool :=
  let page := 176 + ring
  let r := ringAt s h page
  if ringRuns s h page = false then (discardOn s h page, false)
  else if entrySize s h page < rec.length then (discardOn s h page, false)
  else if ringRoom s h page = 0 then (setRing s h page { r with lost := r.lost + 1 }, false)
  else (post s h page [fun _ => cut rec 0 (entrySize s h page)], true)

/-! Izral cells (R533-R536). -/

/-- A bond link by its subport. -/
def bondAt (s : State) (n : Nat) : Bond := getAt {} s.stk.links n

/-- Writes a bond link. -/
def setBond (s : State) (n : Nat) (x : Bond) : State :=
  s.withStk { s.stk with links := setAt {} s.stk.links n x }

/-- The number of this device in its stack (R531). -/
def ownDev (s : State) : Nat := s.boot.stackId

/-- An Izral cell: header of R534 and payload. -/
def mkCell (s : State) (kind dst cls num aux : Nat) (first last : Bool) (pay : Bytes) : Bytes :=
  le 1 kind ++ le 1 (ownDev s + 4 * (dst % 4) + 16 * flag first + 32 * flag last + 64 * cls) ++
    le 2 pay.length ++ le 4 num ++ le 8 aux ++ pay

/-- Sends a cell on a link: class 0 always holds credit, a cell of another class needs credit and waits
behind those of its class without it (R536). -/
def sendCell (s : State) (link cls : Nat) (cell : Bytes) : State :=
  let b := bondAt s link
  if cls = 0 then emit s (.izral link (byteAt cell 0).toNat cell)
  else if b.credit.getD cls 0 = 0 || b.waiting.any (fun w => w.1 == cls) then
    setBond s link { b with waiting := b.waiting ++ [(cls, cell)] }
  else
    emit (setBond s link { b with credit := b.credit.set cls (b.credit.getD cls 0 - 1) })
      (.izral link (byteAt cell 0).toNat cell)

/-- The bond links in service toward a member, in ascending order (R553). -/
def linksTo (s : State) (dev : Nat) : List Nat :=
  (s.stk.links.filter (fun e => e.2.st == .service && e.2.peer == dev)).map (·.1)

/-- Cuts bytes into payloads of at most 256 B (R533). -/
def payloads (n : Nat) (bs : Bytes) : List Bytes :=
  match n with
  | 0 => []
  | n + 1 => if bs.length ≤ 256 then [bs] else bs.take 256 :: payloads n (bs.drop 256)

/-- Sends the RELAY cells of one message on a link: FIRST on the first, LAST on the last. -/
def sendRelayCells (s : State) (link dst tag aux : Nat) (first : Bool) : List Bytes → State
  | [] => s
  | p :: ps =>
    sendRelayCells (sendCell s link 0 (mkCell s 4 dst 0 tag aux first ps.isEmpty p))
      link dst tag aux false ps

/-- Sends a relayed message to a member: a leading byte says what it is (log 40), 0 command,
1 completion, 2 event, 3 staging data.  Without a link in service nothing is sent. -/
def relayTo (s : State) (dst kind tag aux : Nat) (data : Bytes) : State :=
  match linksTo s dst with
  | [] => s
  | link :: _ =>
    sendRelayCells s link dst tag aux true (payloads (data.length + 1) (BitVec.ofNat 8 kind :: data))

/-! Events at the event joint (R458-R463). -/

/-- How many continuation records a body of some length takes (R459). -/
def continuations (n : Nat) : Nat := if n ≤ 16 then 0 else if n ≤ 44 then 1 else if n ≤ 72 then 2 else 3

/-- The head record of an event (R458). -/
def eventHead (grp num org time conts loss : Nat) (body : Bytes) (phase : Nat) : Bytes :=
  le 2 (num % 64 + 64 * (grp % 32) + 2 ^ 11 * loss + 2 ^ 12 * conts + 2 ^ 15 * phase) ++ le 6 org ++
    le 8 time ++ cut body 0 16

/-- Continuation record k of an event (R459). -/
def eventCont (grp num k : Nat) (body : Bytes) (phase : Nat) : Bytes :=
  le 2 (num % 64 + 64 * (grp % 32) + 2 ^ 12 * k + 2 ^ 14 + 2 ^ 15 * phase) ++ le 2 0 ++
    cut body (16 + 28 * (k - 1)) 28

/-- The records of an event (R458, R459). -/
def eventRecords (grp num org time loss : Nat) (body : Bytes) : List (Nat → Bytes) :=
  let n := continuations body.length
  eventHead grp num org time n loss body :: (upFrom 1 n).map (fun k => eventCont grp num k body)

/-- Posts an event on one EVT ring whole, or drops and counts it (R462). -/
def postEventOn (s : State) (h ring grp num org time : Nat) (body : Bytes) : State :=
  let page := 128 + ring
  let r := ringAt s h page
  let n := continuations body.length + 1
  if ringRuns s h page && decide (n ≤ ringRoom s h page) then
    post (setRing s h page { r with lossMark := false }) h page
      (eventRecords grp num org time (flag r.lossMark) body)
  else
    count (setRing s h page { r with lost := r.lost + 1, lossMark := true }) 14 0 (5 + grp) 1

/-- ENABLE of RING_CFG. -/
def ringEnabled (s : State) (h page : Nat) : Bool := regField s .ringCfg (ringNo h page) 4 1 == 1

/-- Routes an event by its group's EVT_ROUTE; group 0x0B goes to ring 0 of every host port whose ring 0
is enabled, and counts as lost in its group where there is none (R461, R462; log 16). -/
def routeEvent (s : State) (grp num org time : Nat) (body : Bytes) : State :=
  if grp = 0x0B then
    let on0 := ringEnabled s 0 128
    let on1 := ringEnabled s 1 128
    let s := if on0 then postEventOn s 0 0 grp num org time body else s
    let s := if on1 then postEventOn s 1 0 grp num org time body else s
    if on0 || on1 then s else count s 14 0 (5 + grp) 1
  else
    let v := regVal s .evtRoute grp
    if bits v 0 1 = 0 then count s 14 0 (5 + grp) 1
    else
      let s := postEventOn s (bits v 1 1) (bits v 2 4) grp num org time body
      if bits v 6 1 = 1 then postEventOn s (1 - bits v 1 1) (bits v 2 4) grp num org time body else s

/-- The event goes to the quoin: EVT_FWD is set on a member of a formed stack other than the quoin, and
its group is not 0x0B (R557; log 17). -/
def forwardsEvents (s : State) (grp : Nat) : Option Nat :=
  match s.stk.quoin with
  | some q =>
    if s.stk.formed && regField s .stackCfg 0 3 1 == 1 && q != ownDev s && grp != 0x0B then some q
    else none
  | none => none

/-- Posts an event now (R458-R462): group, number, origin code and body. -/
def postEvent (s : State) (grp num org : Nat) (body : Bytes) : State :=
  match forwardsEvents s grp with
  | some q =>
    relayTo s q 2 0 0 (le 1 grp ++ le 1 num ++ le 6 org ++ le 8 (timeNs s) ++ body)
  | none => routeEvent s grp num org (timeNs s) body

/-! Performance counters (R614-R616). -/

/-- An event that performance counters may count (R614): its code, source block, the unit where the
table names one, the plane of the work (0 data, 1 control, 2 management), and what its filters see. -/
structure PmcEvent where
  code : Nat
  block : Nat
  unit : Option Nat := none
  plane : Nat := 0
  master : Option Nat := none
  addr : Option Nat := none
  who : Option (Nat × Nat) := none
  deriving DecidableEq, Repr

/-- The kind of a block for the ALL bit (R614): slices and clusters, host ports, piers, or itself. -/
def blockClass (b : Nat) : Nat :=
  if b ≤ 16 then 0 else if b ≤ 18 then 17 else if 20 ≤ b && b ≤ 23 then 20 else b

/-- A counter's source covers an event (R614). -/
def pmcSource (sel : Nat) (e : PmcEvent) : Bool :=
  if e.code = 1 then true
  else if bits sel 20 1 = 1 then blockClass (bits sel 8 5) == blockClass e.block
  else bits sel 8 5 == e.block && (match e.unit with
    | some u => bits sel 13 7 == u
    | none => true)

/-- Every enabled filter of a counter matches an event (R615). -/
def pmcFilters (filt base mask : Nat) (e : PmcEvent) : Bool :=
  (bits filt 0 3 == 7 || bit filt e.plane) &&
  (bits filt 3 4 == 15 || (match e.master with
    | some m => bit filt (3 + m)
    | none => false)) &&
  ((bits filt 7 1 == 0 && base == 0 && mask == 0) || (match e.addr with
    | some a => a &&& mask == base
    | none => false)) &&
  ((bits filt 8 17 == 0 && bits filt 32 16 == 0) || (match e.who with
    | some (t, c) => c &&& bits filt 16 8 == bits filt 8 8 &&
        (bits filt 24 1 == 0 || t == bits filt 32 16)
    | none => false))

/-- A performance counter. -/
def pmcAt (s : State) (j : Nat) : Pmc := getAt {} s.pmc j

/-- Writes a performance counter. -/
def setPmc (s : State) (j : Nat) (p : Pmc) : State := s.withPmc (setAt {} s.pmc j p)

/-- Adds to a performance counter: 48 bits, at most 255 at a time; a wrap sets WRAP, and posts
pmc-wrapped when WRAP_EVT is set (R614, R626). -/
def pmcAdd (s : State) (j n : Nat) : State :=
  let p := pmcAt s j
  let v := p.value + n
  let s := s.withCtr { s.ctr with recent := noteLate s (ctrKey 255 j 0) n }
  if v < 2 ^ 48 then setPmc s j { p with value := v }
  else
    let s := setPmc s j { p with value := v % 2 ^ 48, wrap := true }
    if regField s .pmcSel j 21 1 = 1 then
      postEvent s 0x11 1 (origin s 31 0 0 0) (le 1 j ++ le 1 (regField s .pmcSel j 0 8))
    else s

/-- Counts an event on every running performance counter that covers it (R614, R615). -/
def countPmc (s : State) (e : PmcEvent) (n : Nat) : State :=
  (s.pmc.filter (fun p => p.2.running)).foldl
    (fun t p =>
      if regField t .pmcSel p.1 0 8 == e.code && pmcSource (regVal t .pmcSel p.1) e &&
          pmcFilters (regVal t .pmcFilt p.1) (regVal t .pmcAddrBase p.1) (regVal t .pmcAddrMask p.1) e
      then pmcAdd t p.1 n else t) s

/-- The block that a master's commands and accesses come through (R614). -/
def masterBlock (m : Nat) : Nat := if m = 0 then 17 else if m = 1 then 18 else if m = 2 then 19 else 27

/-- Counts a non-owner write or refusal, with its performance event (R469, R614). -/
def nonOwner (s : State) (m : Nat) (addr : Option Nat) : State :=
  countPmc (countNonOwner s m)
    { code := 0x0F, block := masterBlock m, plane := 1, master := some m, addr := addr } 1

/-! Stopping a ring (R444). -/

/-- Stops a ring with a cause.  The device writes its final index. -/
def stopRing (s : State) (h page cause : Nat) : State :=
  let r := ringAt s h page
  let s := setRing s h page { r with st := .stopped, cause := cause }
  if r.st = .running then
    writeBack s h page (if ringType page = 0 ∨ ringType page = 4 then r.cons
      else if ringType page = 3 then r.cons else r.prod)
  else s

/-- A ring error: the ring stops with its cause and ring-error is posted with the device's index and
software's (R444, R476). -/
def ringError (s : State) (h page cause : Nat) : State :=
  let s := stopRing s h page cause
  let r := ringAt s h page
  let devIdx := if ringType page = 1 ∨ ringType page = 2 ∨ ringType page = 5 then r.prod else r.cons
  let swIdx := if ringType page = 1 ∨ ringType page = 2 ∨ ringType page = 5 then r.cons else r.prod
  postEvent s 0x0B 3 (origin s (17 + h) (page - typePage (ringType page)) (ringType page) 0)
    (le 1 cause ++ le 4 devIdx ++ le 4 swIdx)

/-! Commands from acceptance to completion (R445-R451). -/

/-- Status codes of R450. -/
abbrev stOk : Nat := 0
/-- ERROR. -/
abbrev stError : Nat := 1
/-- NOT_OWNER. -/
abbrev stNotOwner : Nat := 2
/-- EXISTS. -/
abbrev stExists : Nat := 3
/-- NO_SPACE. -/
abbrev stNoSpace : Nat := 4
/-- SAME_KEY. -/
abbrev stSameKey : Nat := 5
/-- NOT_FOUND. -/
abbrev stNotFound : Nat := 6
/-- BUSY. -/
abbrev stBusy : Nat := 7

/-- What a command completes with: status, result field, and result block with the address its operands
name, if they name one (R449, R451, R668). -/
structure Reply where
  status : Nat := 0
  result : Nat := 0
  block : Bytes := []
  addr : Option Nat := none
  deriving DecidableEq, Repr

/-- ERROR with a detail of R450. -/
def err (detail : Nat) : Reply := { status := stError, result := detail }

/-- The master of a source (R469). -/
def masterOf : Source → Nat
  | .cmdRing h _ => h.val
  | .mailbox => 2
  | .relay => 3

/-- The 16-B completion (R449). -/
def completionBytes (a : Accepted) (status result phase : Nat) : Bytes :=
  le 4 a.seq ++ le 2 a.opcode ++ le 1 status ++
    le 1 ((match a.src with
      | .cmdRing _ r => r.val
      | _ => 0) + 128 * phase) ++ le 8 result

/-- Writes the result block of a command where it goes: the address that the operands name, else the
descriptor's result address and then at most 4 KiB; through the port of its ring, or for the mailbox
through H0 (R451, R668; log 18).  The block of a relayed command travels with its completion. -/
def writeResult (s : State) (a : Accepted) (r : Reply) : State :=
  let h := match a.src with
    | .cmdRing h _ => h.val
    | _ => 0
  match a.src, r.addr with
  | .relay, _ => s
  | _, some x => if x = 0 then s else hostWrite s h x r.block
  | _, none => if a.result = 0 then s else hostWrite s h a.result (r.block.take 4096)

/-- Posts the completion of a command at its source: its CPL ring, the mailbox with an in-band
interrupt, or RELAY cells (R437, R447, R449, R557). -/
def postCompletion (s : State) (a : Accepted) (r : Reply) : State :=
  match a.src with
  | .cmdRing h _ =>
    let page := 64 + a.cpl
    if ringRuns s h.val page then
      post s h.val page [fun ph => completionBytes a r.status r.result ph]
    else discardOn s h.val page
  | .mailbox =>
    emit (s.withHost { s.host with
      mailbox := none
      mailboxCpl := completionBytes a r.status r.result 0 }) .i3cInterrupt
  | .relay =>
    match s.stk.quoin with
    | some q => relayTo s q 1 a.tag a.aseq (completionBytes a r.status r.result 0 ++ r.block.take 4096)
    | none => s

/-- A relayed command whose operands name host memory for its result (R557). -/
def relayedOut (a : Accepted) (r : Reply) : Bool :=
  a.src == .relay && (match r.addr with
    | some x => x != 0
    | none => false)

/-- A result block that host memory does not take turns the reply into ERROR detail 4 (R450); a relayed command that
names host memory for it gets detail 2 (R557). -/
def checkResult (a : Accepted) (r : Reply) : Reply :=
  if relayedOut a r then err 2 else
  let dest := match r.addr with
    | some x => x
    | none => a.result
  if a.resultOk = false ∧ r.block ≠ [] ∧ dest ≠ 0 ∧ a.src ≠ .relay then err 4 else r

/-- Ends a command: its result block, then its completion unless it is QUIET and OK; it is no longer
outstanding (R446-R451). -/
def completeCmd (s : State) (a : Accepted) (r : Reply) : State :=
  let r' := checkResult a r
  let s := s.withHost { s.host with accepted := s.host.accepted.filter (fun b => b.aseq != a.aseq) }
  let s := if r' = r then writeResult s a r else s
  if a.quiet && r'.status == stOk then
    (if a.src = .mailbox then s.withHost { s.host with mailbox := none } else s)
  else postCompletion s a r'

/-- Ends the outstanding command with an accept number, if there is one. -/
def finish (s : State) (aseq : Nat) (r : Reply) : State :=
  match s.host.accepted.find? (fun a => a.aseq == aseq) with
  | some a => completeCmd s a r
  | none => s

/-- The latest ASEQ up to which every accepted command has completed (OWN_DONE, R470). -/
def doneSeq (s : State) : Nat :=
  match s.host.accepted with
  | [] => s.host.lastAseq
  | a :: _ => (a.aseq + 2 ^ 32 - 1) % 2 ^ 32

/-- The completion ring of a command has a slot for it: slots named by commands that have not completed
are reserved; a ring that does not run takes any (R447). -/
def cplRoom (s : State) (src : Source) (cpl : Nat) : Bool :=
  match src with
  | .cmdRing h _ =>
    !ringRuns s h.val (64 + cpl) ||
      decide ((s.host.accepted.filter (fun a =>
        (match a.src with
          | .cmdRing h' _ => h' == h
          | _ => false) && a.cpl == cpl)).length < ringRoom s h.val (64 + cpl))
  | _ => true

/-- The CMD ring's descriptor has been read: its consumer index moves, in chain mode the count of
descriptors consumed, and the device writes it back (R439, R454). -/
def consumeDesc (s : State) (src : Source) : State :=
  match src with
  | .cmdRing h ring =>
    let r := ringAt s h.val ring.val
    if ringRuns s h.val ring.val && (ringChain s h.val ring.val || ringUsed r != 0) then
      let c := (r.cons + 1) % 2 ^ 32
      writeBack (setRing s h.val ring.val { r with cons := c }) h.val ring.val c
    else s
  | _ => s

/-- The present time that a role follows, in ns: primary time, or the alternate's domain time
(R414, R424; log 20). -/
def roleTime (s : State) (alternate : Bool) : Nat :=
  if alternate then nsOf (domainOf s.time (1 - primaryDom s)).t else timeNs s

/-- The command processor takes a descriptor (R447): a bad completion ring stops its CMD ring, a full
one or 1,024 outstanding commands make it wait, a master that is not the owner completes NOT_OWNER, and
else it is accepted with the next ASEQ. -/
def accept (s : State) (src : Source) (op seq cpl : Nat) (fence quiet : Bool)
    (result tag inst : Nat) (resultOk : Bool) : State × Option Accepted :=
  let a : Accepted :=
    { aseq := (s.host.lastAseq + 1) % 2 ^ 32, opcode := op, src := src, seq := seq
      cpl := cpl, fence := fence, quiet := quiet, result := result, resultOk := resultOk
      started := false, tag := tag, inst := inst
      times := (roleTime s false, roleTime s true) }
  match src with
  | .cmdRing h ring =>
    if 64 ≤ cpl then (ringError s h.val ring.val 6, none)
    else if cplRoom s src cpl = false then (s, none)
    else if s.own.owner ≠ some h.val then
      (postCompletion (nonOwner (consumeDesc s src) h.val none) a { status := stNotOwner }, none)
    else if 1024 ≤ s.host.accepted.length then (s, none)
    else
      let s := consumeDesc s src
      let s := s.withHost { s.host with lastAseq := a.aseq, accepted := s.host.accepted ++ [a] }
      (countPmc s { code := 0x0D, block := masterBlock h.val, plane := 1, master := some h.val } 1, some a)
  | src =>
    let m := masterOf src
    if s.own.owner ≠ some m then
      (postCompletion (nonOwner s m none) a { status := stNotOwner }, none)
    else if 1024 ≤ s.host.accepted.length then (s, none)
    else
      let s := s.withHost { s.host with lastAseq := a.aseq, accepted := s.host.accepted ++ [a] }
      (countPmc s { code := 0x0D, block := masterBlock m, plane := 1, master := some m } 1, some a)

/-- What a command does when it runs: it completes, or it goes on and completes later, or it waits its turn
and has not started (R296, R448). -/
inductive Effect where
  | done (r : Reply) (s : State)
  | later (s : State)
  | wait

/-- Groups that the command processor passes to the footing controller (R25). -/
def footingGroup (op : Nat) : Bool :=
  op / 256 == 0x0A || op / 256 == 0x0D || op / 256 == 0x10

/-- The table instance that a command works on: the table commands that name one, and MAC_FLUSH, of the exact-match
memory (R296). -/
def tableInst (a : Accepted) : Option Nat :=
  if a.opcode / 256 = 0x07 ∧ a.opcode ≠ 0x0705 then some (if a.opcode = 0x0706 then 0 else a.inst) else none

/-- An earlier table command of the same instance has not started (R296, R448). -/
def behindTable (s : State) (a : Accepted) : Bool :=
  (tableInst a).isSome &&
    (s.host.accepted.takeWhile (fun b => b.aseq != a.aseq)).any (fun b => !b.started && tableInst b == tableInst a)

/-- An accepted command waits: a FENCE for every earlier accepted command (R446), a command of the
footing controller for the end of its restart (R582), a table command for those before it (R448). -/
def mustWait (s : State) (a : Accepted) : Bool :=
  (a.fence && (match s.host.accepted with
    | b :: _ => b.aseq != a.aseq
    | [] => false)) ||
  (footingGroup a.opcode && s.img.restart.isSome) || behindTable s a

/-- Commands with an operand in host memory besides their result (R557): FLOW_INSERT, TABLE_BATCH. -/
def namesHost (op : Nat) : Bool := op == 0x0601 || op == 0x0703

/-- Runs an accepted command unless it waits: a payload that could not be read is ERROR detail 3, and a relayed command
whose operands name host memory is ERROR detail 2 (R450, R557). -/
def startCmd (s : State) (a : Accepted) (payloadOk resultOk : Bool) (body : Nat → State → Effect) : State :=
  if mustWait s a then s
  else
    let s' := s.withHost { s.host with
      accepted := s.host.accepted.map (fun b =>
        if b.aseq = a.aseq then { b with started := true, resultOk := resultOk } else b) }
    let a := { a with resultOk := resultOk }
    if payloadOk = false then completeCmd s' a (err 3)
    else if a.src = .relay ∧ namesHost a.opcode then completeCmd s' a (err 2)
    else match body a.aseq s' with
      | .done r t => if relayedOut a r then completeCmd s' a (err 2) else completeCmd t a r
      | .later t => t
      | .wait => s

/-- A command row (log 1): the descriptor accepted earlier and not yet started, or else this descriptor
is accepted, and the command runs.  No ring runs before READY (R633). -/
def runCommand (c : Cmd) (op : Nat) (body : Nat → State → Effect) (s : State) :
    Host.Outcome State Fault Refusal :=
  if s.boot.phase ≠ .ready then .next s
  else match s.host.accepted.find? (fun a =>
      !a.started && a.src == c.src && a.seq == c.seq.toNat && a.opcode == op) with
    | some a => .next (startCmd s a c.payloadOk c.resultOk body)
    | none =>
      match accept s c.src op c.seq.toNat c.cpl.toNat c.fence c.quiet c.result.toNat 0 c.inst.toNat c.resultOk with
      | (s', some a) => .next (startCmd s' a c.payloadOk c.resultOk body)
      | (s', none) => .next s'

end Sys2Proof.Machine
end

