-- ==== Sys2Proof/Machine/PortMap.lean ====
section
/-! DEFINITION. The modes of a port, and the lanes and widths of its subports (R33-R38, R54). -/

namespace Sys2Proof.Machine

/-! Modes, lanes and widths (R33, R34, R54). -/

/-- The lane rate of a port mode in Gb/s (R34). -/
def laneRate (mode : Nat) : Nat := if mode = 2 ∨ mode = 6 then 100 else 200

/-- The lanes of a subport in a port mode, its full width (R34). -/
def fullWidth (mode : Nat) : Nat :=
  if mode = 0 ∨ mode = 2 then 8 else if mode = 1 ∨ mode = 3 then 4 else if mode = 4 then 2 else 1

/-- The subports of a port mode (R34). -/
def subCount (mode : Nat) : Nat := if mode ≤ 2 then 1 else if mode = 3 then 2 else if mode ≤ 6 then 4 else 0

/-- The mode of a port. -/
def portMode (s : State) (port : Nat) : Nat := regField s .portCfg port 0 3

/-- The full width of a subport. -/
def fullOf (s : State) (sub : Nat) : Nat := fullWidth (portMode s (sub / 4))

/-- The rate of a subport at its current width, in Gb/s (R34, R54). -/
def subRate (s : State) (sub : Nat) : Nat := (subAt s sub).width * laneRate (portMode s (sub / 4))

/-- A subport exists in its port's mode. -/
def subExists (s : State) (sub : Nat) : Bool := decide (sub % 4 < subCount (portMode s (sub / 4)))

/-- The port carries Izral (R532). -/
def isBond (s : State) (port : Nat) : Bool := getAt false s.ports.bond port

/-- The device lane that carries a logical lane of a port, by LANE_MAP (R36). -/
def physLane (s : State) (port i : Nat) : Nat := 8 * port + regField s .portCfg port (8 + 3 * i) 3

/-- The first logical lane of a subport in its port (R34). -/
def laneBase (s : State) (sub : Nat) : Nat := sub % 4 * fullOf s sub

/-- The device lanes of the logical lanes `a` to `a + n - 1` of a subport. -/
def logicalLanes (s : State) (sub a n : Nat) : List Nat :=
  (upFrom (laneBase s sub + a) n).map (physLane s (sub / 4))

/-- The device lanes of a subport in ascending order. -/
def subLanes (s : State) (sub : Nat) : List Nat :=
  (upFrom (sub / 4 * 8) 8).filter (fun l => (logicalLanes s sub 0 (fullOf s sub)).contains l)

/-- The subport of its port's mode that a device lane belongs to. -/
def laneSub (s : State) (lane : Nat) : Option Nat :=
  (upFrom (lane / 8 * 4) (subCount (portMode s (lane / 8)))).find? (fun n => (subLanes s n).contains lane)

/-- The healthy-lane mask of R56: bit i is the i-th lane of the subport from its lowest. -/
def healthyMask (s : State) (sub : Nat) : Nat :=
  let ls := subLanes s sub
  (List.range ls.length).foldl (fun m i => if (laneAt s (ls.getD i 0)).failed then m else m + 2 ^ i) 0

/-- The widths of R54 for a full width, widest first. -/
def widthsOf (full : Nat) : List Nat :=
  if full = 8 then [8, 4, 2] else if full = 4 then [4, 2, 1] else if full = 2 then [2, 1] else [1]

/-- The narrowest width that SHED_FLOOR allows (R44): a reserved value acts as quarter. -/
def ownFloor (s : State) (sub : Nat) : Nat :=
  max 1 (fullOf s sub / 2 ^ min 2 (regField s .subportLinkCfg sub 26 2))

/-- The widths of R54 that SHED_FLOOR allows a subport, widest first. -/
def allowedWidths (s : State) (sub : Nat) : List Nat := (widthsOf (fullOf s sub)).filter (fun w => decide (ownFloor s sub ≤ w))

/-- The SerDes image that a port runs: its own since SERDES_APPLY, else that of the boot (R581, R635). -/
def portSerdes (s : State) (port : Nat) : Option ImgInfo := (getAt none s.img.serdesPort port).or s.img.serdes

/-- A lane is held in lane sleep: its port's mode does not use it, its port is disabled or runs no SerDes image (R35, R36,
R635).  Only a recalibration wakes it (R580). -/
def laneHeld (s : State) (lane : Nat) : Bool :=
  ((laneSub s lane).isNone || regField s .portCfg (lane / 8) 3 1 == 0 || (portSerdes s (lane / 8)).isNone) &&
    !s.ft.recals.any (fun r => r.port * 8 + r.lane == lane)

/-- The lanes that wake with their port: those not held and not failed, of subports that may come up (R517, R521). -/
def portWakes (s : State) (port : Nat) : List Nat :=
  (upFrom (8 * port) 8).filter (fun l => !laneHeld s l && !(laneAt s l).failed &&
    (match laneSub s l with
    | some n => !(subAt s n).adminDown
    | none => false))

end Sys2Proof.Machine
end

