-- ==== Sys2Proof/WellFormed.lean ====
section
/-! DEFINITION. Which operands a command may have: what the types of the operands do not say already. -/

namespace Sys2Proof

/-- How many blocks of a kind there are (R517): courses are numbered 7 × pier + course, and cluster 16 has the engines 128
to 135. -/
def BlockKind.count : BlockKind → Nat
  | .lane => 768
  | .port => 96
  | .slice => 17
  | .course => 28
  | .channel => 32
  | .cluster => 17
  | .engine => 136

/-- The sizes of an access to BAR0 that PCIe and I3C carry in the model: 1 to 8 bytes (R643, R644). -/
def sizeOk (n : Nat) : Bool := decide (1 ≤ n) && decide (n ≤ 8)

/-- An Izral cell: the header of R534 and a payload of at most 256 B. -/
def cellOk (c : Bytes) : Bool := decide (16 ≤ c.length) && decide (c.length ≤ 272)

/-- The operands of a command are what its row may have. -/
def Instr.wf : Instr → Bool
  | .refillTick => true
  | .intervalStart => true
  | .periodicEpochAdvance => true
  | .shadowApply => true
  | .registerWrite _ _ size _ => sizeOk size
  | .frameArrival _ _ _ _ _ => true
  | .uncorrectableCodeword _ => true
  | .headAdmit _ => true
  | .flowLookupResult _ _ _ _ _ => true
  | .tierBDirectoryReturn _ _ _ => true
  | .tierBRecordReturn _ _ => true
  | .lpmAclResult _ _ _ => true
  | .secondaryLookupResult _ => true
  | .policerResult _ => true
  | .seqContextGrant _ => true
  | .seqWordExecute _ _ => true
  | .deadlineFault _ => true
  | .standbyBankParity _ _ _ => true
  | .combinerApply _ _ => true
  | .trackingUpdateApply => true
  | .insertionEnd _ => true
  | .relocationFlip _ => true
  | .hashedMoveFlip _ _ => true
  | .setupHoldExpire _ => true
  | .demotionVisit _ => true
  | .demotionComplete _ => true
  | .sweeperRoundStart => true
  | .sweeperVisit _ => true
  | .coldSweeperRead _ => true
  | .deletionFencePassed _ _ => true
  | .courseCeWindowEnd _ _ _ => true
  | .rebuildGranuleCopy _ _ _ _ => true
  | .bucketRescan _ => true
  | .rebuildComplete _ => true
  | .tableFenceWaitEnd _ => true
  | .batchFenceWaitEnd _ => true
  | .learnInsertDone mac _ => mac.length == 6
  | .pendingEntryExpire mac _ => mac.length == 6
  | .moveCandidateExpire mac _ => mac.length == 6
  | .macSweepVisit _ => true
  | .repointCompare _ _ _ _ => true
  | .emScrubRead _ _ _ _ => true
  | .taskArrive _ => true
  | .operandArrive _ _ _ => true
  | .taskDispatch _ => true
  | .preempt _ _ => true
  | .engineWakeRequest _ => true
  | .instrNop _ _ => true
  | .add _ _ => true
  | .sub _ _ => true
  | .and _ _ => true
  | .or _ _ => true
  | .xor _ _ => true
  | .shl _ _ => true
  | .shr _ _ => true
  | .sar _ _ => true
  | .mul _ _ => true
  | .mulhu _ _ => true
  | .min _ _ => true
  | .max _ _ => true
  | .seq _ _ => true
  | .slt _ _ => true
  | .sltu _ _ => true
  | .movi _ _ => true
  | .movhi _ _ => true
  | .fhash _ _ => true
  | .bswap _ _ => true
  | .br _ _ => true
  | .beq _ _ => true
  | .bne _ _ => true
  | .blt _ _ => true
  | .bltu _ _ => true
  | .call _ _ => true
  | .jmp _ _ => true
  | .ld8 _ _ => true
  | .ld16 _ _ => true
  | .ld32 _ _ => true
  | .ld64 _ _ => true
  | .loadComplete _ _ => true
  | .st8 _ _ => true
  | .st16 _ _ => true
  | .st32 _ _ => true
  | .st64 _ _ => true
  | .chWr _ _ => true
  | .chCommit _ _ => true
  | .chCommitRoom _ _ => true
  | .chWordsVisible _ _ => true
  | .chRd _ _ => true
  | .chTry _ _ => true
  | .chDiscard _ _ => true
  | .lkAcq _ _ => true
  | .lkTry _ _ => true
  | .lkRel _ _ => true
  | .fsProbe _ _ => true
  | .fsInsert _ _ => true
  | .fsWrite _ _ => true
  | .fsDelete _ _ => true
  | .tblRead _ _ => true
  | .fsCounts _ _ => true
  | .fsFoldAdd _ _ => true
  | .memRead _ _ => true
  | .memoryOpComplete _ _ _ => true
  | .frameSend _ _ => true
  | .timerArm _ _ => true
  | .timerWait _ _ => true
  | .timerExpire _ _ => true
  | .timeRead _ _ => true
  | .taskEnd _ _ => true
  | .breakHalt _ _ => true
  | .illegalOp _ _ => true
  | .threadHalt _ _ => true
  | .engineStall _ => true
  | .taskLimit _ _ => true
  | .engineFault _ _ _ => true
  | .clusterFault _ _ => true
  | .spareLoaded _ => true
  | .engineSelfTestDone _ _ => true
  | .cellRelease _ _ => true
  | .censusWalkStart => true
  | .censusWalkEnd => true
  | .replicate => true
  | .egressSelect _ => true
  | .gateListChange _ => true
  | .gateEntryAdvance _ => true
  | .puntWrite _ _ _ _ => true
  | .injFetch _ _ entry _ _ _ => entry.length == 32
  | .pauseFrameReceive _ _ _ => true
  | .pauseEffect _ => true
  | .pauseExpire _ _ => true
  | .pauseSend _ => true
  | .pauseRepeat _ => true
  | .hello _ _ => true
  | .helloRetry _ => true
  | .helloTimeout _ => true
  | .shedWindowEnd _ => true
  | .req _ _ => true
  | .ack _ _ => true
  | .nak _ _ => true
  | .ready _ _ => true
  | .reqRetry _ => true
  | .shedSwitch _ => true
  | .alignmentRegained _ => true
  | .lanesLocked _ => true
  | .widenTimeout _ _ => true
  | .lpiEntry _ => true
  | .lpiWakeEnd _ => true
  | .linkDown _ => true
  | .linkUp _ => true
  | .holdExpire _ => true
  | .holdReload _ => true
  | .laneFail _ => true
  | .laneSerWindowEnd _ _ => true
  | .recoveryTrialTimeout _ => true
  | .portMode _ _ _ _ => true
  | .subportAdmin _ _ _ => true
  | .shedCtrl _ _ _ _ => true
  | .laneSet _ _ _ _ => true
  | .portStatus _ _ => true
  | .seqLoad _ _ => true
  | .seqSwap _ => true
  | .seqSwapDrained => true
  | .sliceStatus _ _ => true
  | .dlBudgetStatus _ _ => true
  | .fsFormat _ => true
  | .flowRead _ key _ => key.length == 40
  | .fsStatus _ _ => true
  | .fsTenantStatus _ _ => true
  | .flowDemote _ key => key.length == 40
  | .flowInsert _ twin => twin.length == 128
  | .flowDelete _ key => key.length == 40
  | .tenantPurge _ _ => true
  | .policyWrite _ _ _ _ => true
  | .tenantAccount _ _ => true
  | .tableWrite _ _ _ _ _ => true
  | .tableDelete _ _ _ _ => true
  | .tableBatch _ _ _ => true
  | .tableRead _ _ _ _ _ => true
  | .digestRead _ _ => true
  | .macFlush _ _ _ => true
  | .engDrain _ _ => true
  | .engDrained _ => true
  | .engLoad _ _ _ => true
  | .engResume _ _ => true
  | .engStatus _ _ => true
  | .schedStatus _ _ => true
  | .dbgHalt _ _ _ => true
  | .dbgStep _ _ _ => true
  | .dbgResume _ _ _ => true
  | .dbgRead _ _ _ _ _ _ _ => true
  | .dbgWrite _ _ _ _ _ _ => true
  | .dbgLockRelease _ _ _ => true
  | .dbgAbort _ _ _ => true
  | .queueStatus _ _ => true
  | .bufStatus _ => true
  | .policerRead _ _ => true
  | .gateStatus _ _ => true
  | .timeOffset _ _ _ => true
  | .timeAcquire _ _ => true
  | .timeSwitch _ => true
  | .timeStatus _ _ => true
  | .timePulse _ _ _ _ _ _ _ _ _ => true
  | .timeCapture _ _ _ _ _ => true
  | .holdoverTimeout _ => true
  | .pulseEdge _ => true
  | .ppsEdge => true
  | .captureEdge _ _ => true
  | .doorbell _ _ _ size _ => sizeOk size
  | .ringEnable _ _ _ _ => true
  | .ringDisable _ _ _ _ => true
  | .commandAccept _ desc _ => desc.length == 64
  | .interruptModerationExpire _ _ => true
  | .chainWordReturn _ _ _ _ => true
  | .hostPortReset _ _ => true
  | .hostLinkUp _ _ _ => true
  | .mailboxWrite desc => desc.length == 64
  | .i3cBusReset => true
  | .bidRecord _ _ => true
  | .bidWithdraw _ _ => true
  | .renew _ _ => true
  | .release _ _ => true
  | .grant _ _ => true
  | .bidWindowClose => true
  | .leaseExpire => true
  | .ringStatus _ _ _ _ => true
  | .hostStatus _ _ => true
  | .nop _ => true
  | .dmaEnable _ _ _ => true
  | .dmaDisable _ _ _ => true
  | .dmaDisableSample _ => true
  | .dmaBurstGrant => true
  | .dmaReadData _ _ _ _ _ _ _ _ => true
  | .dmaWriteResponse _ _ _ => true
  | .dmaKick _ _ => true
  | .dmaStatus _ _ => true
  | .ddrStatus _ _ => true
  | .ddrRetrain _ _ => true
  | .ddrRetire _ _ => true
  | .ddrCeWindowEnd _ => true
  | .retrainStep _ _ => true
  | .driftReport _ => true
  | .rowIdleClose _ _ _ => true
  | .refreshDue _ _ _ => true
  | .evacuationCopy _ _ => true
  | .wakeRequest kind nums _ => !nums.isEmpty && nums.all (fun n => decide (n < kind.count))
  | .wakeGrant => true
  | .creditReturn => true
  | .blockReady kind num => decide (num < kind.count)
  | .wakeLate kind num => decide (num < kind.count)
  | .sleepEntry kind num _ => decide (num < kind.count)
  | .healthSample temps rails bad => temps.length == 32 && rails.length == 7 && bad.all (fun r => decide (r < 7))
  | .powerStatus _ _ _ => true
  | .powerWake _ _ _ => true
  | .powerHold _ _ _ _ => true
  | .healthStatus _ _ => true
  | .wakeStatus _ => true
  | .bondHello _ cell _ => cellOk cell
  | .bondHelloSend _ => true
  | .bondLinkSilence _ => true
  | .credit _ cell _ => cellOk cell
  | .link _ cell _ => cellOk cell
  | .seed _ cell _ => cellOk cell
  | .deliver _ cells => !cells.isEmpty && cells.all (fun c => cellOk c.1)
  | .steer _ cells => !cells.isEmpty && cells.all (fun c => cellOk c.1)
  | .record _ cell _ => cellOk cell
  | .recordAck _ cell _ => cellOk cell
  | .relay _ cell _ => cellOk cell
  | .mirrorAckTimeout _ _ => true
  | .aliveInChange _ _ => true
  | .memberLoss _ => true
  | .stackForm _ => true
  | .stackJoin _ _ => true
  | .stackLeave _ => true
  | .stackRelay _ _ _ _ desc _ _ => desc.length == 64
  | .stackStage _ _ _ _ _ len data _ _ => decide (data.length ≤ len.toNat)
  | .stackMove _ _ _ => true
  | .stackDigest _ _ => true
  | .stackStatus _ => true
  | .sliceSwitchAdmit => true
  | .sliceSelfTestDone _ => true
  | .recalibrationDone _ _ => true
  | .reclaimWalkEnd => true
  | .deviceFatal _ => true
  | .faultStatus _ _ => true
  | .sliceSwitch _ _ _ => true
  | .clusterRemap _ _ => true
  | .courseRetire _ _ _ => true
  | .laneRecal _ _ _ _ => true
  | .serdesApply _ _ => true
  | .cellReclaim _ _ => true
  | .imageCheckDone _ _ => true
  | .serdesLoad _ _ => true
  | .fwFlash _ _ => true
  | .fwActivate _ => true
  | .footingRestartReady => true
  | .footingFallback => true
  | .attestQuote _ nonce _ => nonce.length == 32
  | .logRead _ _ _ _ => true
  | .idRead _ _ => true
  | .imgStatus _ _ => true
  | .counterRead _ _ _ _ _ => true
  | .counterScan _ _ _ _ _ => true
  | .pmcControl _ _ _ _ => true
  | .pmcStartTime => true
  | .pmcRead _ _ => true
  | .flowExport _ key => key.length == 40
  | .footingReset _ => true
  | .footclkLoss => true
  | .footingResetRelease _ _ _ _ _ => true
  | .thermalBootHoldEnd => true
  | .railInRange _ => true
  | .railTimeout _ => true
  | .bootPushGo _ _ => true
  | .bootSelfTestDone _ _ => true
  | .bootReady directory => directory.all (fun e => decide (e.1.toNat ≤ 4))
  | .bootInfo _ _ => true
  | .trafficOpen _ _ _ => true
  | .coreReset _ => true
  | .coreResetBegin => true
  | .fsFormatComplete => true
  | .spillCountDecrement _ => true
  | .hashKeyWrite _ _ _ _ => true
  | .msixUnmask _ _ => true
  | .bootTrainingDone _ _ failed => decide failed.Nodup
  | .flashWriteComplete _ => true
  | .quoteSigned => true

/-- A well-formed command. -/
abbrev Instr.WellFormed (i : Instr) : Prop := i.wf = true

end Sys2Proof
end

