-- ==== Sys2Proof/Machine/Power.lean ====
section
/-! DEFINITION. The wake joint and the health monitors (R513-R530). -/

namespace Sys2Proof.Machine

/-- The number of a kind of block (R517; log 19). -/
def kindCode : BlockKind → Nat
  | .lane => 0
  | .port => 1
  | .slice => 2
  | .course => 3
  | .channel => 4
  | .cluster => 5
  | .engine => 6

/-- The kind of block with a number. -/
def kindOf : Nat → Option BlockKind
  | 0 => some .lane
  | 1 => some .port
  | 2 => some .slice
  | 3 => some .course
  | 4 => some .channel
  | 5 => some .cluster
  | 6 => some .engine
  | _ => none

/-- How many blocks of a kind there are. -/
def kindCount (k : BlockKind) : Nat := k.count

/-- The sleep state a block of a kind is in until it is first woken (R517, R632). -/
def kindSleep : BlockKind → SleepSt
  | .lane => .laneSleep
  | .port => .portSleep
  | .slice => .retention
  | .course => .retention
  | .channel => .selfRefresh
  | .cluster => .clockGated
  | .engine => .clockGated

/-- The key of a block. -/
def blockKey (k : BlockKind) (n : Nat) : Nat := kindCode k * 1024 + n

/-- A block at the wake joint. -/
def blkAt (s : State) (k : BlockKind) (n : Nat) : Blk :=
  getAt { st := kindSleep k } s.pwr.blocks (blockKey k n)

/-- Writes a block. -/
def setBlk (s : State) (k : BlockKind) (n : Nat) (b : Blk) : State :=
  s.withPwr { s.pwr with blocks := setAt { st := kindSleep k } s.pwr.blocks (blockKey k n) b }

/-- A block has its grant: it is awake or waking (R24). -/
def isGranted (s : State) (k : BlockKind) (n : Nat) : Bool := (blkAt s k n).st == .awake || (blkAt s k n).st == .waking

/-- A block is awake. -/
def isAwake (s : State) (k : BlockKind) (n : Nat) : Bool := (blkAt s k n).st == .awake

/-- Puts a block into a state, in which it stays from now on. -/
def putBlk (s : State) (k : BlockKind) (n : Nat) (st : SleepSt) : State :=
  setBlk s k n { blkAt s k n with st := st, since := s.clk.cc, dueAt := none, late := false }

/-- The class of a request in the order of R522. -/
def wakeClass (k : BlockKind) (substitution : Bool) : Nat :=
  if substitution then 1
  else match k with
    | .lane | .port => 2
    | .slice => 3
    | .course | .channel => 4
    | .cluster => 5
    | .engine => 6

/-- The credits of a request of R521: one for each lane of a lane group. -/
def wakeCredits (k : BlockKind) (n : Nat) : Nat :=
  match k with
  | .lane => n
  | .port => 8
  | .slice => 16
  | .course => 4
  | .channel => 4
  | .cluster => 4
  | .engine => 1

/-- The slice that a port group is joined to (R566); `none` where it is joined to none. -/
def servingSlice (s : State) (grp : Nat) : Option Nat := getAt (some grp) s.ft.joined grp

/-- The physical cluster whose engine this is: 8 engines each (R298). -/
def engineCluster (n : Nat) : Nat := n / 8

/-- The parent that must be awake first: a port's slice, an engine's cluster (R519). -/
def parentOf (s : State) (k : BlockKind) (n : Nat) : Option (BlockKind × Nat) :=
  match k with
  | .port => match servingSlice s (n / 6) with
    | some g => some (.slice, g)
    | none => none
  | .engine => some (.cluster, engineCluster n)
  | _ => none

/-- A request names a block. -/
def WakeReq.names (r : WakeReq) (k : BlockKind) (n : Nat) : Bool :=
  (r.kind == k && r.nums.contains n) || r.child == some (k, n)

/-- A block has a request in the queue. -/
def wakeQueued (s : State) (k : BlockKind) (n : Nat) : Bool := s.pwr.queue.any (fun r => r.names k n)

/-- The place of a request in the order of R522: class, then block number. -/
def wakePlace (r : WakeReq) : Nat := 65536 * r.cls + 8 * r.nums.headD 0 + kindCode r.kind

/-- A request enters the queue in the order of R522. -/
def enqueueWake (r : WakeReq) : List WakeReq → List WakeReq
  | [] => [r]
  | q :: qs => if wakePlace q ≤ wakePlace r then q :: enqueueWake r qs else r :: q :: qs

/-- A block can be asked to wake: it is asleep and has no request queued (R520). -/
def wakeable (s : State) (k : BlockKind) (n : Nat) : Bool :=
  decide (n < kindCount k) && !wakeQueued s k n &&
    (match (blkAt s k n).st with
      | .awake | .waking | .gone => false
      | _ => true)

/-- The request of a child merged with its sleeping parent's, which may be queued already as `old`: charged together, and
queued at the earlier of the two positions (R519). -/
def mergedReq (s : State) (k : BlockKind) (n : Nat) (sub : Bool) (pk : BlockKind) (pn : Nat) (old : Option WakeReq) : WakeReq :=
  let own : WakeReq :=
    { cls := wakeClass k sub, kind := k, nums := [n], credits := wakeCredits k 1
      queuedAt := s.clk.cc }
  let par : WakeReq := old.getD
    { cls := wakeClass pk sub, kind := pk, nums := [pn], credits := wakeCredits pk 1
      queuedAt := s.clk.cc }
  if wakePlace own ≤ wakePlace par then
    { own with credits := own.credits + par.credits, queuedAt := par.queuedAt, child := some (pk, pn) }
  else { par with credits := own.credits + par.credits, child := some (k, n) }

/-- The request names a parent together with a child. -/
def isMerged (r : WakeReq) (pk : BlockKind) (pn : Nat) : Bool := r.names pk pn && r.child.isSome

/-- A wake request (R519, R520): those of its blocks that are asleep and not yet queued; the first child
of a sleeping parent without a merged request is merged with its parent's request. -/
def wakeRequest (s : State) (k : BlockKind) (nums : List Nat) (sub : Bool) : State :=
  match nums.filter (wakeable s k) with
  | [] => s
  | n :: ns =>
    match (if k = .port ∨ k = .engine then parentOf s k n else none) with
    | some (pk, pn) =>
      match (blkAt s pk pn).st with
      | .awake | .waking | .gone =>
        let r : WakeReq :=
          { cls := wakeClass k sub, kind := k, nums := [n], credits := wakeCredits k 1
            queuedAt := s.clk.cc }
        s.withPwr { s.pwr with queue := enqueueWake r s.pwr.queue }
      | _ =>
        if s.pwr.queue.any (fun r => isMerged r pk pn) then
          let r : WakeReq :=
            { cls := wakeClass k sub, kind := k, nums := [n], credits := wakeCredits k 1
              queuedAt := s.clk.cc }
          s.withPwr { s.pwr with queue := enqueueWake r s.pwr.queue }
        else
          let q := s.pwr.queue.filter (fun r => !r.names pk pn)
          s.withPwr { s.pwr with queue := enqueueWake (mergedReq s k n sub pk pn (s.pwr.queue.find? (fun r => r.names pk pn))) q }
    | none =>
      let r : WakeReq :=
        { cls := wakeClass k sub, kind := k, nums := if k = .lane then n :: ns else [n]
          credits := wakeCredits k (if k = .lane then ns.length + 1 else 1), queuedAt := s.clk.cc }
      s.withPwr { s.pwr with queue := enqueueWake r s.pwr.queue }

/-- The blocks of a kind that may be asked for: every block but a lane that is held in lane sleep (R35). -/
def askable (s : State) (k : BlockKind) (nums : List Nat) : List Nat :=
  if k = .lane then nums.filter (fun l => !laneHeld s l) else nums

/-- WAKE_REQUEST (R35, R520).  The blocks of one request are one block, or lanes of one lane group. -/
def execWakeRequest (kind : BlockKind) (nums : List Nat) (substitution : Bool) (s : State) :
    Host.Outcome State Fault Refusal := .next (wakeRequest s kind (askable s kind nums) substitution)

/-- The queued requests for lanes that no longer wake are withdrawn: each gives up the credits of its lanes. -/
def withdrawLanes (s : State) (ls : List Nat) : State :=
  s.withPwr { s.pwr with queue := s.pwr.queue.filterMap (fun r =>
    if r.kind = .lane then
      match r.nums.filter (fun l => !ls.contains l) with
      | [] => none
      | ns => some { r with nums := ns, credits := wakeCredits .lane ns.length }
    else some r) }

/-- A request is passed over: its parent sleeps and another request holds the parent (R519). -/
def passedOver (s : State) (r : WakeReq) : Bool :=
  match r.child, parentOf s r.kind (r.nums.headD 0) with
  | none, some (pk, pn) =>
    (blkAt s pk pn).st != .awake && (blkAt s pk pn).st != .waking && (blkAt s pk pn).st != .gone
  | _, _ => false

/-- The exit latency of a block from the state it is in, in cycles (R517). -/
def exitLatency (k : BlockKind) (st : SleepSt) : Nat :=
  match k, st with
  | .lane, _ => 60000
  | .port, _ => 72000
  | .slice, _ => 3000
  | .course, _ => 4500
  | .channel, _ => 6000
  | .cluster, .powerGated => 7500
  | .cluster, _ => 750
  | .engine, .powerGated => 33000
  | .engine, _ => 150

/-- A granted block begins to wake, to be ready after some cycles (R517, R524). -/
def wakeWithin (s : State) (k : BlockKind) (n cycles : Nat) : State :=
  let b := blkAt s k n
  setBlk s k n { b with
    st := .waking, since := s.clk.cc, left := b.st, granted := some s.clk.cc, dueAt := some (s.clk.cc + cycles), late := false }

/-- A granted block begins to wake; with a port wake, under its credits and within its exit latency, the lanes that its
subports use (R517, R521). -/
def beginWake (s : State) (k : BlockKind) (n : Nat) : State :=
  let s := wakeWithin s k n (exitLatency k (blkAt s k n).st)
  if k = .port then
    let ls := (portWakes s n).filter (fun l => (blkAt s .lane l).st == .laneSleep)
    ls.foldl (fun s l => wakeWithin s .lane l (exitLatency .port .portSleep)) (withdrawLanes s ls)
  else s

/-- Grants a request: its credits are charged and its blocks begin to wake (R521). -/
def grantReq (s : State) (r : WakeReq) : State :=
  let s := s.withPwr { s.pwr with
    queue := s.pwr.queue.filter (fun q => q != r)
    used := s.pwr.used + r.credits
    grants := s.pwr.grants ++ [r.credits]
    maxWait := max s.pwr.maxWait (s.clk.cc - r.queuedAt) }
  let s := r.nums.foldl (fun s n => beginWake s r.kind n) s
  match r.child with
  | some (k, n) => beginWake s k n
  | none => s

/-- WAKE_GRANT (R519, R521, R522): the head of the order, except for requests passed over, is granted
when the budget of 64 credits holds it. -/
def execWakeGrant (s : State) : Host.Outcome State Fault Refusal :=
  match s.pwr.queue.find? (fun r => !passedOver s r) with
  | some r => if s.pwr.used + r.credits ≤ 64 then .next (grantReq s r) else .next s
  | none => .next s

/-- CREDIT_RETURN (R521): the credits of the oldest grant return. -/
def execCreditReturn (s : State) : Host.Outcome State Fault Refusal :=
  match s.pwr.grants with
  | [] => .next s
  | c :: cs => .next (s.withPwr { s.pwr with grants := cs, used := s.pwr.used - c })

/-- Completes the POWER_WAKE commands that wait for a block. -/
def finishAll (s : State) (r : Reply) : List Nat → State
  | [] => s
  | a :: as => finishAll (finish s a r) r as

/-- A waking block is ready (R517): the POWER_WAKE commands that wait for it complete. -/
def blockReady (s : State) (k : BlockKind) (n : Nat) : State :=
  let b := blkAt s k n
  finishAll (setBlk s k n { b with
    st := .awake, since := s.clk.cc, dueAt := none, late := false, wakers := [] }) {} b.wakers

/-- A block goes out of service: its request leaves the queue and POWER_WAKE completes with ERROR
detail 5 (R525, R529). -/
def retireBlk (s : State) (k : BlockKind) (n : Nat) : State :=
  let b := blkAt s k n
  let s := setBlk s k n { b with st := .gone, since := s.clk.cc, dueAt := none, wakers := [] }
  finishAll (s.withPwr { s.pwr with
    queue := s.pwr.queue.filter (fun r => !(r.kind == k && r.nums == [n] && r.child.isNone)) })
    (err 5) b.wakers

/-- A sleep state as events and results code it (log 19). -/
def sleepCode : SleepSt → Nat
  | .awake => 0
  | .laneSleep => 1
  | .portSleep => 2
  | .retention => 3
  | .selfRefresh => 4
  | .clockGated => 5
  | .powerGated => 6
  | .waking => 7
  | .gone => 8

/-- Cycles as ns: one cycle is 2/3 ns. -/
def ccNs (n : Nat) : Nat := n * 2 / 3

/-- A first miss of the exit latency: wake-late, and a further exit latency (R525, R530). -/
def wakeLate (s : State) (k : BlockKind) (n : Nat) : State :=
  let b := blkAt s k n
  let s := setBlk s k n { b with late := true, dueAt := some (s.clk.cc + exitLatency k b.left) }
  postEvent s 0x0D 1 (origin s 19 1 0 0)
    (le 1 (kindCode k) ++ le 2 n ++ le 1 (sleepCode b.left) ++ le 8 (ccNs (s.clk.cc - b.granted.getD 0)))

/-- MIN_AWAKE_US as it acts, in cycles (R528). -/
def minAwake (s : State) : Nat := max 37 (regField s .wakeCfg 0 0 16) * 1500

/-- A block may enter a sleep state: it is awake, not held, has no request queued, and MIN_AWAKE_US have
passed since its last grant (R518, R529). -/
def maySleep (s : State) (k : BlockKind) (n : Nat) : Bool :=
  let b := blkAt s k n
  b.st == .awake && !b.hold && !wakeQueued s k n &&
    (match b.granted with
      | some g => decide (g + minAwake s ≤ s.clk.cc)
      | none => true)

/-- TJ_WARN as it acts (R528). -/
def tjWarn (s : State) : Int := ((max 60 (min 104 (regField s .thermalCfg 0 0 8)) : Nat) : Int)

/-- A sensor's reading at a sample: warning and critical events (R527, R530). -/
def sensorSample (s : State) (i : Nat) (t : Int) : State :=
  let body := le 1 i ++ le 1 (ofSigned 8 t)
  let s := if tjWarn s ≤ t then
      (if s.pwr.warned.contains i then s
       else postEvent (s.withPwr { s.pwr with warned := s.pwr.warned ++ [i] }) 0x0D 2
         (origin s 19 4 0 0) body)
    else if t < tjWarn s - 5 then s.withPwr { s.pwr with warned := s.pwr.warned.filter (· != i) }
    else s
  if 105 ≤ t then
    (if s.pwr.critical.contains i then s
     else postEvent (s.withPwr { s.pwr with critical := s.pwr.critical ++ [i] }) 0x0D 3
       (origin s 19 4 0 0) body)
  else s.withPwr { s.pwr with critical := s.pwr.critical.filter (· != i) }

/-- All readings of a sample, sensor 0 first. -/
def sensorSamples (s : State) (i : Nat) : List Int → State
  | [] => s
  | t :: ts => sensorSamples (sensorSample s i t) (i + 1) ts

/-- A rail's reading at a sample: rail-fault when it has left its range (R527, R657). -/
def railSample (s : State) (bad : List Nat) (i mv : Nat) : State :=
  if bad.contains i then
    if s.pwr.railBad.contains i then s
    else postEvent (s.withPwr { s.pwr with railBad := s.pwr.railBad ++ [i] }) 0x0D 4
      (origin s 19 4 0 0) (le 1 i ++ le 2 mv)
  else s.withPwr { s.pwr with railBad := s.pwr.railBad.filter (· != i) }

/-- All rails of a sample, rail 0 first. -/
def railSamples (s : State) (bad : List Nat) (i : Nat) : List Nat → State
  | [] => s
  | v :: vs => railSamples (railSample s bad i v) bad (i + 1) vs

/-- Lowers the five rail enables in one cycle (R660). -/
def lowerRails (s : State) : State :=
  (List.range 5).foldl (fun s i => emit s (.pin (.railEn i) false)) s

/-- Drives ALIVE (R551). -/
def driveAlive (s : State) (level : Bool) : State :=
  if s.stk.alive = level then s
  else emit (s.withStk { s.stk with alive := level }) (.pin .alive level)

/-- The thermal trip (R527, R551, R628, R660): THERMTRIP_N is driven and the rail enables fall; it holds
until the footing reset, which records it as its cause. -/
def thermalTrip (s : State) : State :=
  let s := emit (s.withPwr { s.pwr with trip := true }) (.pin .thermtripN false)
  let s := driveAlive (lowerRails s) false
  s.withBoot { s.boot with stickyCause := 2, phase := .tripped }

/-- The greatest of some readings and a first one. -/
def maxTemp (m : Int) (ts : List Int) : Int := ts.foldl max m

/-- HEALTH_SAMPLE (R527): sensors in °C, rails in mV, and the rails that have been outside ±5 % of their
nominal voltage for 1 µs. -/
def execHealthSample (temps : List Int) (rails bad : List Nat) (s : State) :
    Host.Outcome State Fault Refusal :=
  let s := s.withPwr { s.pwr with
    sensors := temps, rails := rails, highest := maxTemp s.pwr.highest temps }
  let s := railSamples (sensorSamples s 0 temps) bad 0 rails
  if temps.any (fun t => decide (115 ≤ t)) && !s.pwr.trip then .next (thermalTrip s) else .next s

/-- The place of a block's queued request, counted from 1; 0 for none. -/
def queuePlace (k : BlockKind) (n : Nat) (i : Nat) : List WakeReq → Nat
  | [] => 0
  | r :: rs => if r.names k n then i + 1 else queuePlace k n (i + 1) rs

/-- The block that a command names, if there is one. -/
def namedBlock (kind : BitVec 8) (num : BitVec 16) : Option BlockKind :=
  match kindOf kind.toNat with
  | some k => if num.toNat < kindCount k then some k else none
  | none => none

/-- POWER_STATUS (R529). -/
def execPowerStatus (c : Cmd) (kind : BitVec 8) (num : BitVec 16) (s : State) :
    Host.Outcome State Fault Refusal :=
  runCommand c 0x0D01 (fun _ s =>
    match namedBlock kind num with
    | some k =>
      let b := blkAt s k num.toNat
      let block := le 1 (sleepCode b.st) ++ le 8 (ccNs (s.clk.cc - b.since)) ++
        le 2 (queuePlace k num.toNat 0 s.pwr.queue)
      .done { block := block } s
    | none => .done (err 2) s) s

/-- POWER_WAKE (R520, R529): completes when the block is ready.  DESIGN CHOICE: for a lane that R35 or R36 holds in lane sleep
it completes with the ERROR of a retired block (log 86). -/
def execPowerWake (c : Cmd) (kind : BitVec 8) (num : BitVec 16) (s : State) :
    Host.Outcome State Fault Refusal :=
  runCommand c 0x0D02 (fun aseq s =>
    match namedBlock kind num with
    | some k =>
      match (blkAt s k num.toNat).st with
      | .awake => .done {} s
      | .gone => .done (err 5) s
      | _ =>
        if (askable s k [num.toNat]).isEmpty then .done (err 5) s else
        let s := wakeRequest s k [num.toNat] false
        let b := blkAt s k num.toNat
        .later (setBlk s k num.toNat { b with wakers := b.wakers ++ [aseq] })
    | none => .done (err 2) s) s

/-- POWER_HOLD (R529): 0 hold, 1 release (log 19). -/
def execPowerHold (c : Cmd) (kind : BitVec 8) (num : BitVec 16) (hold : BitVec 8) (s : State) :
    Host.Outcome State Fault Refusal :=
  runCommand c 0x0D03 (fun _ s =>
    match namedBlock kind num with
    | some k =>
      if 2 ≤ hold.toNat then .done (err 2) s
      else .done {} (setBlk s k num.toNat { blkAt s k num.toNat with hold := hold == 0 })
    | none => .done (err 2) s) s

/-- HEALTH_STATUS (R529). -/
def execHealthStatus (c : Cmd) (addr : BitVec 64) (s : State) : Host.Outcome State Fault Refusal :=
  runCommand c 0x0D04 (fun _ s =>
    let block := (List.range 32).map (fun i => BitVec.ofNat 8 (ofSigned 8 (s.pwr.sensors.getD i 0))) ++
      (List.range 7).flatMap (fun i => le 2 (s.pwr.rails.getD i 0)) ++ le 1 (ofSigned 8 s.pwr.highest)
    .done { block := block, addr := some addr.toNat } s) s

/-- WAKE_STATUS (R529): queued requests by class, credits in use, longest grant wait in ns. -/
def execWakeStatus (c : Cmd) (s : State) : Host.Outcome State Fault Refusal :=
  runCommand c 0x0D05 (fun _ s =>
    let block := (upFrom 1 6).flatMap (fun k =>
        le 2 (s.pwr.queue.filter (fun r => r.cls == k)).length) ++
      le 1 s.pwr.used ++ le 8 (ccNs s.pwr.maxWait)
    .done { block := block } s) s

end Sys2Proof.Machine
end

