-- ==== Sys2Proof/Machine/Joint.lean ====
section
/-! DEFINITION. What the data plane reads through the table joint: epochs and fences (R121, R244),
registers and table entries as a frame of an epoch sees them (R22, R257, R263, R264), and the token
buckets of tenants (R145, R204, R213). -/

namespace Sys2Proof.Machine

/-! Epochs. -/

/-- Epoch x is earlier than epoch y, seen from the current epoch (R244). -/
def earlierAt (cur x y : Nat) : Bool := decide (wrapSub 32 cur y < wrapSub 32 cur x)

/-- Epoch x is earlier than epoch y now. -/
def earlier (s : State) (x y : Nat) : Bool := earlierAt s.tbl.epoch x y

/-- A frame counts for its slice's oldest epoch: from the parser to its verdict, a fetch included
(R121). -/
def inEpochCount (f : Frame) : Bool := f.stage == .slice || f.stage == .tierB

/-- A slice reports to the fence (R244): it is neither in retention, stopped nor retired, and it has been
opened; S16 reports while it serves an opened group or holds a frame. -/
def sliceReports (s : State) (n : Nat) : Bool :=
  let x := sliceAt s n
  !x.stopped && !x.retired && isAwake s .slice n &&
    (if n < 16 then decide (x.opened ≠ 0) else true)

/-- The fence of an epoch is passed: the current epoch is later, and so is that of every frame counted by
a slice that reports; a slice without such a frame reports the current epoch (R244). -/
def fencePassed (s : State) (e : Nat) : Bool :=
  earlier s e s.tbl.epoch &&
    s.slices.frames.all (fun p => match p.2 with
      | some f => !(inEpochCount f && sliceReports s f.slice) || earlier s e f.epoch
      | none => true)

/-- No frame of an epoch earlier than the boundary is left in a sequencer without a verdict (R133). -/
def epochDrained (s : State) (boundary : Nat) : Bool :=
  s.slices.frames.all (fun p => match p.2 with
    | some f => !inEpochCount f || !(earlier s f.epoch boundary)
    | none => true)

/-- A register as a frame of epoch e sees it: the oldest value kept whose successor took effect after e,
or else the applied value (R22). -/
def regValAt (s : State) (e : Nat) (r : Reg) (i : Nat) : Nat :=
  match s.regs.past.find? (fun p => p.1 == r.off i && earlier s e p.2.1) with
  | some p => p.2.2.toNat
  | none => regVal s r i

/-- A field of a register as a frame of epoch e sees it. -/
def regFieldAt (s : State) (e : Nat) (r : Reg) (i lo w : Nat) : Nat := bits (regValAt s e r i) lo w

/-! Configuration tables (R263). -/

/-- What R263 and the tables of other chapters say of a table: entries, bytes of an entry, key bytes of a
hashed table or 0, first instance code and number of instances, and whether it is digested. -/
structure TableInfo where
  count : Nat
  size : Nat
  keyLen : Nat := 0
  first : Nat := 0
  insts : Nat := 1
  digested : Bool := true
  deriving DecidableEq, Repr

/-- The tables that TABLE_WRITE and its like name (R263, R225, R390, R398, R379, R380, R416, R539). -/
def tableInfo (id : Nat) : Option TableInfo :=
  match id with
  | 0x01 => some { count := 262144, size := 16, keyLen := 8 }
  | 0x02 => some { count := 256, size := 16 }
  | 0x03 => some { count := 262144, size := 2 }
  | 0x04 => some { count := 65536, size := 4 }
  | 0x05 => some { count := 65536, size := 4 }
  | 0x06 => some { count := 65536, size := 8 }
  | 0x08 => some { count := 4194304, size := 16, keyLen := 8 }
  | 0x09 => some { count := 1048576, size := 32, keyLen := 20 }
  | 0x0A => some { count := 524288, size := 32, keyLen := 24 }
  | 0x0B => some { count := 65536, size := 128 }
  | 0x0C => some { count := 1024, size := 8 }
  | 0x0D => some { count := 65536, size := 8 }
  | 0x10 => some { count := 262144, size := 32, first := 0x10, insts := 8 }
  | 0x11 => some { count := 512, size := 4, first := 0x10, insts := 8 }
  | 0x20 => some { count := 32768, size := 96, first := 0x20, insts := 8 }
  | 0x21 => some { count := 64, size := 4, first := 0x20, insts := 8 }
  | 0x30 => some { count := 4096, size := 64 }
  | 0x31 => some { count := 65536, size := 32 }
  | 0x32 => some { count := 16777216, size := 2 }
  | 0x33 => some { count := 4194304, size := 32 }
  | 0x40 => some { count := 65536, size := 16 }
  | 0x41 => some { count := 128, size := 8 }
  | 0x42 => some { count := 64, size := 8 }
  | 0x43 => some { count := 196608, size := 8 }
  | 0x44 => some { count := 384, size := 32 }
  | 0x48 => some { count := 3072, size := 16 }
  | 0x50 => some { count := 65536, size := 8 }
  | 0x51 => some { count := 64, size := 4 }
  | _ => none

/-- The identifiers of the tables in ascending order. -/
def tableIds : List Nat :=
  [0x01, 0x02, 0x03, 0x04, 0x05, 0x06, 0x08, 0x09, 0x0A, 0x0B, 0x0C, 0x0D, 0x10, 0x11, 0x20, 0x21,
   0x30, 0x31, 0x32, 0x33, 0x40, 0x41, 0x42, 0x43, 0x44, 0x48, 0x50, 0x51]

/-- Entries in a bucket of 64 B of a hashed table (R264). -/
def TableInfo.perBucket (t : TableInfo) : Nat := 64 / t.size

/-- Buckets of a hashed table (R264). -/
def TableInfo.buckets (t : TableInfo) : Nat := t.count / t.perBucket

/-- The key of an entry in the store: table, instance, index. -/
def tableKey (id inst idx : Nat) : Nat := 2 ^ 32 * (id * 64 + inst) + idx

/-- A configuration entry. -/
def entAt (s : State) (id inst idx : Nat) : Ent := getAt {} s.tbl.ents (tableKey id inst idx)

/-- Writes a configuration entry. -/
def setEnt (s : State) (id inst idx : Nat) (e : Ent) : State :=
  s.withTbl { s.tbl with ents := setAt {} s.tbl.ents (tableKey id inst idx) e }

/-- An entry is present for a frame of an epoch (R257, R244). -/
def entVisible (s : State) (epoch : Nat) (e : Ent) : Bool :=
  match e.st with
  | .empty => false
  | .valid t => e.settled || !earlier s epoch t
  | .retiring t => !e.settled && earlier s epoch t

/-- The contents of an indexed entry as a frame of an epoch reads it; `none` where it is absent (R257,
R670). -/
def tableRead (s : State) (epoch id inst idx : Nat) : Option Bytes :=
  let e := entAt s id inst idx
  if entVisible s epoch e then some e.bytes else none

/-- The contents of an indexed entry for the current epoch. -/
def tableNow (s : State) (id inst idx : Nat) : Option Bytes := tableRead s s.tbl.epoch id inst idx

/-- The two buckets of a key and its tag: primary, alternate, tag (R168). -/
def hashBuckets (h1 h2 nba : Nat) : Nat × Nat × Nat :=
  let tag := h2 % 2 ^ 24
  let m := (tag * 0x5BD1E9) % 2 ^ 24 ||| 1
  (h1 % nba, (h1 % nba + m) % nba, tag)

/-- The buckets of a key of a hashed table (R264): its key bytes, zeros, and the table identifier. -/
def tableBuckets (s : State) (id : Nat) (t : TableInfo) (key : Bytes) : Nat × Nat × Nat :=
  let block := cut (cut key 0 t.keyLen) 0 39 ++ [BitVec.ofNat 8 id]
  hashBuckets (flowHash block polyA s.fs.seedEA).toNat (flowHash block polyB s.fs.seedEB).toNat t.buckets

/-- The indexes of the entries of a bucket. -/
def bucketIdxs (t : TableInfo) (b : Nat) : List Nat := upFrom (b * t.perBucket) t.perBucket

/-- The candidate indexes of a key: its primary bucket, then its alternate. -/
def keyIdxs (s : State) (id : Nat) (t : TableInfo) (key : Bytes) : List Nat :=
  let b := tableBuckets s id t key
  bucketIdxs t b.1 ++ (if b.2.1 = b.1 then [] else bucketIdxs t b.2.1)

/-- The index of an entry of a key that meets a test, in a hashed table of instance 0. -/
def keyFind (s : State) (id : Nat) (t : TableInfo) (key : Bytes) (p : Ent → Bool) : Option Nat :=
  (keyIdxs s id t key).find? (fun i =>
    let e := entAt s id 0 i
    e.bytes.length == t.size && cut e.bytes 0 t.keyLen == cut key 0 t.keyLen && p e)

/-- The index and contents of the entry of a key as a frame of an epoch reads it (R257, R264). -/
def hashedRead (s : State) (epoch id : Nat) (key : Bytes) : Option (Nat × Bytes) :=
  match tableInfo id with
  | some t =>
    match keyFind s id t key (entVisible s epoch) with
    | some i => some (i, (entAt s id 0 i).bytes)
    | none => none
  | none => none

/-- Contents of an indexed entry with zeros where it is absent. -/
def tableOr0 (s : State) (epoch id inst idx size : Nat) : Bytes :=
  match tableRead s epoch id inst idx with
  | some b => b
  | none => List.replicate size 0

/-- A group-member entry for an epoch: an absent one names no subport (R379, R670). -/
def memberEntry (s : State) (epoch i : Nat) : Bytes :=
  match tableRead s epoch 0x0D 0 (i % 65536) with
  | some b => b
  | none => le 8 0xFFF

/-! Token buckets (R145, R204, R213).  Kind 0 is the deadline-fault budget, 1 the miss budget, 2 the
setup bucket; levels are in thousandths of a token. -/

/-- What governs a bucket at this moment. -/
structure BucketCfg where
  refill : Nat
  burst : Nat
  unbudgeted : Bool
  deriving DecidableEq, Repr

/-- Refill and burst by the fields of a deadline-budget entry or DL_BUDGET_DEF. -/
def dlCfg (v : Nat) : BucketCfg :=
  { refill := bits v 0 16, burst := bits v 16 16, unbudgeted := bits v 0 16 == 0xFFFF }

/-- Refill and burst by the fields of a flow-store or setup entry, or of FS_MISS_DEF or SETUP_DEF. -/
def fsCfg (v : Nat) : BucketCfg :=
  { refill := bits v 0 20, burst := bits v 20 11 * 64, unbudgeted := bits v 0 20 == 0xFFFFF }

/-- The table that holds the entries of a kind of bucket, and the size of an entry. -/
def bucketTable (kind : Nat) : Nat × Nat := if kind = 0 then (0x04, 4) else if kind = 1 then (0x05, 4) else (0x06, 8)

/-- The default register of a kind of bucket. -/
def bucketDefault (s : State) (kind : Nat) : BucketCfg :=
  if kind = 0 then dlCfg (regVal s .dlBudgetDef 0)
  else if kind = 1 then fsCfg (regVal s .fsMissDef 0)
  else fsCfg (regVal s .setupDef 0)

/-- What governs a tenant's bucket: its entry for the current epoch, or for an entry of 0, EMPTY or absent
the default register as applied (R145, R670). -/
def bucketCfg (s : State) (kind ten : Nat) : BucketCfg :=
  let t := bucketTable kind
  match tableNow s t.1 0 ten with
  | some b =>
    if leVal b = 0 then bucketDefault s kind
    else if kind = 0 then dlCfg (leAt b 0 4) else fsCfg (leAt b 0 4)
  | none => bucketDefault s kind

/-- The buckets of a kind. -/
def bucketsOf (s : State) (kind : Nat) : Buckets :=
  if kind = 0 then s.ten.dl else if kind = 1 then s.ten.miss else s.ten.setup

/-- Writes the buckets of a kind. -/
def setBuckets (s : State) (kind : Nat) (b : Buckets) : State :=
  s.withTen (if kind = 0 then { s.ten with dl := b } else if kind = 1 then { s.ten with miss := b }
    else { s.ten with setup := b })

/-- The level of a tenant's bucket. -/
def bucketLevel (s : State) (kind ten : Nat) : Nat :=
  match getAt none (bucketsOf s kind).lv ten with
  | some v => v
  | none => (bucketsOf s kind).base

/-- Writes the level of a tenant's bucket. -/
def setLevel (s : State) (kind ten v : Nat) : State :=
  let b := bucketsOf s kind
  setBuckets s kind { b with lv := setAt none b.lv ten (some v) }

/-- A bucket holds at least one token. -/
def hasToken (s : State) (kind ten : Nat) : Bool := decide (1000 ≤ bucketLevel s kind ten)

/-- A tenant is refused setups for its deadline budget (R147). -/
def refusing (s : State) (ten : Nat) : Bool := getAt false s.ten.refusing ten

/-- Sets the refusal of a tenant. -/
def setRefusing (s : State) (ten : Nat) (v : Bool) : State :=
  s.withTen { s.ten with refusing := setAt false s.ten.refusing ten v }

/-- The body of budget-exhausted and budget-restored (R667). -/
def budgetBody (s : State) (ten : Nat) : Bytes :=
  le 2 ten ++ le 2 (bucketLevel s 0 ten / 1000) ++ le 2 (bucketCfg s 0 ten).burst

/-- Refusal ends when the bucket holds at least half its burst (R147). -/
def checkRestored (s : State) (ten : Nat) : State :=
  if refusing s ten && decide ((bucketCfg s 0 ten).burst * 1000 ≤ 2 * bucketLevel s 0 ten) then
    let s := setRefusing s ten false
    postEvent s 0x02 6 (origin s 31 0 0 0) (budgetBody s ten)
  else s

/-- Refusal begins when the bucket becomes empty, unless the tenant is unbudgeted (R145, R147). -/
def checkExhausted (s : State) (ten before : Nat) : State :=
  if decide (1000 ≤ before) && !hasToken s 0 ten && !refusing s ten && !(bucketCfg s 0 ten).unbudgeted then
    let s := setRefusing s ten true
    postEvent s 0x02 5 (origin s 31 0 0 0) (budgetBody s ten)
  else s

/-- Takes one token; an empty bucket gives none and keeps its level (R145). -/
def takeToken (s : State) (kind ten : Nat) : State :=
  let v := bucketLevel s kind ten
  if v < 1000 then s
  else
    let s := setLevel s kind ten (v - 1000)
    if kind = 0 then checkExhausted s ten v else s

/-- Adds a token back, up to the burst (R213). -/
def returnToken (s : State) (kind ten : Nat) : State :=
  setLevel s kind ten (min (bucketLevel s kind ten + 1000) ((bucketCfg s kind ten).burst * 1000))

/-- Fills a bucket: its entry has been validated (R145). -/
def fillBucket (s : State) (kind ten : Nat) : State :=
  let before := bucketLevel s kind ten
  let s := setLevel s kind ten ((bucketCfg s kind ten).burst * 1000)
  if kind = 0 then checkRestored (checkExhausted s ten before) ten else s

/-- One bucket at a tick of the rate grid, or, with `add` false, capped at its burst (R145). -/
def bucketTick (s : State) (kind : Nat) (add : Bool) (ten : Nat) : State :=
  let c := bucketCfg s kind ten
  let before := bucketLevel s kind ten
  let s := setLevel s kind ten (min (before + if add then c.refill else 0) (c.burst * 1000))
  if kind = 0 then checkRestored (checkExhausted s ten before) ten else s

/-- The tenants that share the base level have become empty (DEF_BURST 0): each is refused and its refusal posted, and a
burst of 0 ends it again at once (R145, R147). -/
def othersEmpty (s : State) (before : Nat) : State :=
  ((List.range 65536).filter (fun t => (getAt none s.ten.dl.lv t).isNone)).foldl
    (fun s t => checkRestored (checkExhausted s t before) t) s

/-- Every bucket of a kind at a tick of the rate grid, or capped: the tenants listed apart, then the level
that all others share, to which the default register applies (R145). -/
def bucketsTick (s : State) (kind : Nat) (add : Bool) : State :=
  let s := ((bucketsOf s kind).lv.map (·.1)).foldl (fun s t => bucketTick s kind add t) s
  let c := bucketDefault s kind
  let b := bucketsOf s kind
  let s := setBuckets s kind { b with base := min (b.base + if add then c.refill else 0) (c.burst * 1000) }
  if kind = 0 && decide (1000 ≤ b.base) && decide (c.burst = 0) then othersEmpty s b.base else s

end Sys2Proof.Machine
end

