-- ==== Sys2Proof/Machine/Shed.lean ====
section
/-! DEFINITION. Lanes of a subport that return to sleep, shed handshake frames (R56) and the start of a shedding step
(R59-R61). -/

namespace Sys2Proof.Machine

/-- LP_METHOD allows lane shedding, and software has not suspended it (R44, R78). -/
def shedEnabled (s : State) (sub : Nat) : Bool :=
  (regField s .subportLinkCfg sub 24 2 == 1 || regField s .subportLinkCfg sub 24 2 == 3) &&
    !(subAt s sub).shedOff

/-- A field of SHED_CFG within its range; the current window keeps the value it began with (R651). -/
def shedField (s : State) (sub lo w least most : Nat) : Nat :=
  let v := (subAt s sub).shedNow.getD (regVal s .shedCfg sub)
  max least (min most (bits v lo w))

/-! Shed handshake frames (R56). -/

/-- The messages of R56. -/
abbrev msgHello : Nat := 0
/-- A request for a step. -/
abbrev msgReq : Nat := 1
/-- Its acceptance. -/
abbrev msgAck : Nat := 2
/-- Its refusal. -/
abbrev msgNak : Nat := 3
/-- Receive lanes are locked. -/
abbrev msgReady : Nat := 4

/-- The subport's own address in wire order (R649). -/
def ownMac (s : State) (sub : Nat) : Bytes := le 6 (regField s .subportMac sub 0 48)

/-- A shed handshake frame, without its FCS. -/
def shedFrame (s : State) (sub msg reason seq target delay : Nat) : Bytes :=
  [0x01, 0x80, 0xC2, 0x00, 0x00, 0x0E] ++ ownMac s sub ++ [0x88, 0xB7] ++
    be 3 (regField s .vendorOui 0 0 24) ++ be 2 1 ++ [1] ++ le 1 msg ++ le 1 reason ++ be 2 seq ++
    le 1 (subAt s sub).width ++ le 1 target ++ le 1 (healthyMask s sub) ++ le 1 (ownFloor s sub) ++
    be 2 delay ++ List.replicate 30 0

/-- A subport's low-power idle ends because something waits to be sent: the exit starts (R67). -/
def startLpiExit (s : State) (sub : Nat) : State :=
  let x := subAt s sub
  if x.lpi = .idle then setSub s sub { x with lpi := .waking } else s

/-- A shed handshake frame begins; on a bond link it is the payload of a LINK cell (R51, R532). -/
def beginShed (s : State) (sub : Nat) (f : Bytes) : State :=
  if isBond s (sub / 4) then sendCell s sub 0 (mkCell s 5 (bondAt s sub).peer 0 0 0 true true f)
  else emit s (.frame sub f false)

/-- Sends a shed handshake frame.  It waits while a switch of width lasts, and for the end of low-power idle, whose exit
starts (R60, R67). -/
def sendShed (s : State) (sub msg reason seq target delay : Nat) : State :=
  let x := subAt s sub
  let f := shedFrame s sub msg reason seq target delay
  if x.switching ∨ x.lpi ≠ .active then startLpiExit (setSub s sub { x with shedOut := x.shedOut ++ [f] }) sub
  else beginShed s sub f

/-- The handshake frames that waited are sent, oldest first. -/
def flushShed (s : State) (sub : Nat) : State :=
  let x := subAt s sub
  x.shedOut.foldl (fun s f => beginShed s sub f) (setSub s sub { x with shedOut := [] })

/-- Sends HELLO with the full width. -/
def sendHello (s : State) (sub : Nat) : State := sendShed s sub msgHello 0 0 (fullOf s sub) 0

/-! The start of a step (R59-R61). -/

/-- The device lanes that a subport's link runs on: those of its width, or those that a recovery left it (R76). -/
def usedLanes (s : State) (sub : Nat) : List Nat :=
  let x := subAt s sub
  if x.recLanes.isEmpty then logicalLanes s sub 0 x.width else x.recLanes

/-- The lanes that a target width adds to those in use. -/
def addedLanes (s : State) (sub target : Nat) : List Nat :=
  (logicalLanes s sub 0 target).filter (fun l => !(usedLanes s sub).contains l)

/-- The subport may decide on steps: it sheds, holds no step, and no lane is being recalibrated. -/
def mayStep (s : State) (sub : Nat) : Bool :=
  let x := subAt s sub
  x.up && x.method == .shed && !x.shedSuspended && !x.shedOff && x.req.isNone && x.stepTo.isNone &&
    x.reduced.isNone && !s.ft.recals.any (fun r => r.port == sub / 4)

/-- Sends a REQ for a target width, and wakes the lanes that it adds (R60, R61). -/
def requestStep (s : State) (sub target : Nat) : State :=
  let x := subAt s sub
  let s := setSub s sub { x with
    nextSeq := (x.nextSeq + 1) % 65536, req := some { seq := x.nextSeq, target := target, tries := 1 } }
  let s := wakeRequest s .lane (addedLanes s sub target) false
  sendShed s sub msgReq 0 x.nextSeq target 0

/-- A widening step is asked for, to the full width, if it is possible and not yet under way. -/
def widenStep (s : State) (sub : Nat) : State :=
  let full := fullOf s sub
  if mayStep s sub && decide ((subAt s sub).width < full) &&
      (addedLanes s sub full).all (fun l => !(laneAt s l).failed) then requestStep s sub full
  else s

/-- A lane returns to lane sleep: one that is waking at once, one that is awake unless it must stay so (R61, R518). -/
def sleepLane (s : State) (l : Nat) : State :=
  if (blkAt s .lane l).st = .waking ∧ (blkAt s .lane l).wakers = [] then putBlk s .lane l .laneSleep
  else if maySleep s .lane l then putBlk s .lane l .laneSleep
  else s

/-- Lanes return to lane sleep, and their queued wake requests are withdrawn, but for lanes that a POWER_WAKE asks for
(R35, R60, R61, R518). -/
def sleepLanes (s : State) (ls : List Nat) : State :=
  ls.foldl sleepLane (withdrawLanes s (ls.filter (fun l => (blkAt s .lane l).wakers.isEmpty)))

end Sys2Proof.Machine
end

