-- ==== Sys2Proof/Machine/Buffer.lean ====
section
/-! DEFINITION. The packet buffer: cells, references and release, admission to queues (R358-R380), and
the flow control that cell counts raise (R372, R373). -/

namespace Sys2Proof.Machine

/-- The cells of the buffer (R358). -/
abbrev cellCount : Nat := 1572864

/-- The frame descriptors of the buffer (R358). -/
abbrev descCount : Nat := 524288

/-- The cells of L bytes (R360). -/
def cellsFor (len : Nat) : Nat := (len + 255) / 256

/-- A frame's length with its FCS (R43). -/
def frameLen (f : Frame) : Nat := f.bytes.length + 4

/-- A cell header. -/
def cellAt (s : State) (c : Nat) : CellHdr := getAt {} s.buf.cells c

/-- Writes a cell header. -/
def setCell (s : State) (c : Nat) (x : CellHdr) : State :=
  s.withBuf { s.buf with cells := setAt {} s.buf.cells c x }

/-- A queue (R377). -/
def queueAt (s : State) (q : Nat) : Queue := getAt {} s.buf.queues q

/-- Writes a queue. -/
def setQueue (s : State) (q : Nat) (x : Queue) : State :=
  s.withBuf { s.buf with queues := setAt {} s.buf.queues q x }

/-- The allocation class of an owner tag: the engines are one class (R363). -/
def allocClass (tag : Nat) : Nat := if 0x20 ≤ tag ∧ tag ≤ 0xA7 then 0x20 else tag

/-- The allocation classes (R363). -/
def allocClasses : List Nat := List.range 17 ++ [0x20, 0xC0, 0xC1]

/-- The cells U that a class holds allocated (R364). -/
def classUsed (s : State) (c : Nat) : Nat := getAt 0 s.buf.used c

/-- The free cells: those never allocated and those freed. -/
def freeCells (s : State) : Nat := cellCount - s.buf.fresh + s.buf.freed.length

/-- The key of a subport and a priority. -/
def prioKey (sub p : Nat) : Nat := sub * 8 + p

/-- FC_MODE of a subport: 0 none, 1 PAUSE, 2 PFC (R44). -/
def fcMode (s : State) (sub : Nat) : Nat :=
  let m := regField s .subportLinkCfg sub 14 2
  if m = 3 then 0 else m

/-- The headroom of a subport in cells (R373). -/
def headroomOf (s : State) (sub : Nat) : Nat :=
  if fcMode s sub = 0 then 0 else regField s .subportFcThr sub 20 8 * 64

/-- The headroom cells a subport has in use. -/
def headroomUsed (s : State) (sub : Nat) : Nat :=
  ((List.range 8).map (fun p => getAt 0 s.buf.headroom (prioKey sub p))).foldl (· + ·) 0

/-- The subports whose FC_MODE has been written. -/
def fcSubports (s : State) : List Nat :=
  s.regs.applied.filterMap (fun e => match regAt e.1 with
    | some (.subportLinkCfg, i) => some i
    | _ => none)

/-- The headroom set aside and not in use (R373). -/
def headroomSet (s : State) : Nat :=
  ((fcSubports s).map (fun n => headroomOf s n - headroomUsed s n)).foldl (· + ·) 0

/-- The reserve of a class in cells (R364). -/
def allocMin (s : State) : Nat := regField s .bufCfg 0 0 16

/-- The unused reserves of all classes (R364). -/
def unusedReserves (s : State) : Nat :=
  (allocClasses.map (fun c => allocMin s - classUsed s c)).foldl (· + ·) 0

/-- The shared cells: free, less unused reserves and headroom set aside (R364). -/
def sharedCells (s : State) : Nat := freeCells s - unusedReserves s - headroomSet s

/-! Flow control (R372, R373). -/

/-- Cells that a subport holds for a priority: I of R372. -/
def ingCells (s : State) (sub p : Nat) : Nat := getAt 0 s.buf.ing (prioKey sub p)

/-- Cells that a subport holds for all priorities. -/
def ingAll (s : State) (sub : Nat) : Nat :=
  ((List.range 8).map (ingCells s sub)).foldl (· + ·) 0

/-- XOFF of one count: asserted at XOFF_TH, released at XON_TH, else as it stands (R372). -/
def xoffNext (s : State) (sub n : Nat) (now : Bool) : Bool :=
  let thr := regVal s .subportFcThr sub
  let off := bits thr 0 10 * 64
  let on := min (bits thr 10 10) (bits thr 0 10) * 64
  if off ≤ n then true else if n ≤ on then false else now

/-- The XOFF bits of a subport after a change of its counts: bits 0 to 7 under PFC for the lossless
priorities, bit 8 under PAUSE (R372). -/
def xoffBits (s : State) (sub : Nat) : Nat :=
  let x := (subAt s sub).xoff
  match fcMode s sub with
  | 1 => if xoffNext s sub (ingAll s sub) (bit x 8) then 256 else 0
  | 2 =>
    (List.range 8).foldl (fun n p =>
      if bit (regVal s .subportFcPrio sub) p && xoffNext s sub (ingCells s sub p) (bit x p) then n + 2 ^ p
      else n) 0
  | _ => 0

/-- Brings the XOFF state of a subport up to date (R372). -/
def updateXoff (s : State) (sub : Nat) : State :=
  setSub s sub { subAt s sub with xoff := xoffBits s sub }

/-- XOFF is asserted for a subport and priority (R373). -/
def xoffFor (s : State) (sub p : Nat) : Bool :=
  match fcMode s sub with
  | 1 => bit (subAt s sub).xoff 8
  | 2 => bit (subAt s sub).xoff p
  | _ => false

/-! Allocation (R364, R365). -/

/-- How an allocation is granted: from the class's reserve or the shared cells, or from headroom. -/
inductive Grant where | normal | headroom | empty
  deriving DecidableEq, Repr

/-- Whether one more cell is granted to a class, for a frame of a subport and priority if it came from
one (R364, R373). -/
def grantCell (s : State) (c : Nat) (ing : Option (Nat × Nat)) : Grant :=
  if freeCells s = 0 then .empty
  else if classUsed s c < allocMin s then .normal
  else if 0 < sharedCells s then .normal
  else match ing with
    | some (sub, p) =>
      if xoffFor s sub p && decide (headroomUsed s sub < headroomOf s sub) then .headroom else .empty
    | none => .empty

/-- The cell gauges of a class and of the buffer change. -/
def touchCells (s : State) (c : Nat) : State := touch (touch s 7 c 2) 12 0 4

/-- Takes the next free cell for an owner: cells never allocated first, then freed ones from the head. -/
def takeCell (s : State) (tag : Nat) (ing : Option (Nat × Nat)) (hr : Bool) : State × Nat :=
  let c := allocClass tag
  let (n, s) :=
    if s.buf.fresh < cellCount then (s.buf.fresh, s.withBuf { s.buf with fresh := s.buf.fresh + 1 })
    else (s.buf.freed.headD 0, s.withBuf { s.buf with freed := s.buf.freed.tail })
  let s := setCell s n { alloc := true, owner := tag, refs := 1, ing := match ing with
    | some (sub, p) => prioKey sub p + 1
    | none => 0 }
  let s := countPmc s { code := 0x11, block := 25, unit := some 0 } 1
  let s := touchCells s c
  let s := s.withBuf { s.buf with used := setAt 0 s.buf.used c (classUsed s c + 1) }
  match ing with
  | some (sub, p) =>
    let k := prioKey sub p
    let s := s.withBuf { s.buf with ing := setAt 0 s.buf.ing k (getAt 0 s.buf.ing k + 1) }
    let s := if hr then
        s.withBuf { s.buf with headroom := setAt 0 s.buf.headroom k (getAt 0 s.buf.headroom k + 1) }
      else s
    (updateXoff s sub, n)
  | none => (s, n)

/-- Allocates cells one after another; the cells granted and whether all were. -/
def takeCells (s : State) (tag : Nat) (ing : Option (Nat × Nat)) : Nat → State × List Nat × Bool
  | 0 => (s, [], true)
  | n + 1 =>
    match grantCell s (allocClass tag) ing with
    | .empty => (s, [], false)
    | g =>
      let (s, c) := takeCell s tag ing (g == .headroom)
      match takeCells s tag ing n with
      | (s, cs, ok) => (s, c :: cs, ok)

/-! Policers (R398-R400). -/

/-- A policer. -/
def polAt (s : State) (i : Nat) : Policer := getAt {} s.buf.pol i

/-- Writes a policer. -/
def setPol (s : State) (i : Nat) (p : Policer) : State :=
  s.withBuf { s.buf with pol := setAt {} s.buf.pol i p }

/-- A bucket size of an entry in units of 1/46,875 bit. -/
def polSize (e : Bytes) (off : Nat) : Nat := leAt e off 2 * 256 * 8 * 46875

/-- A policer refilled up to the present cycle: every 64 cc each bucket gains its rate's bits, of which
2/46,875 a kb/s, and in mode 1 what C cannot hold goes to E (R398, R399). -/
def polRefill (s : State) (e : Bytes) (p : Policer) : Policer :=
  let n := s.clk.cc / 64 - p.refillAt / 64
  let c := p.c + 2 * leAt e 4 4 * n
  let cs := polSize e 12
  let es := polSize e 14
  if leAt e 0 1 % 4 = 1 then
    { p with c := min c cs, e := min (p.e + (c - cs)) es, refillAt := s.clk.cc }
  else { p with c := min c cs, e := min (p.e + 2 * leAt e 8 4 * n) es, refillAt := s.clk.cc }

/-- The colour of a frame of so many units, and the buckets after it: RFC 2697, RFC 2698 and RFC 4115 by mode
(R398, R399).  Colours: 0 green, 1 yellow, 2 red. -/
def polColour (mode colour b : Nat) (p : Policer) : Nat × Policer :=
  let green := { p with c := p.c - b }
  let yellow := { p with e := p.e - b }
  match mode with
  | 0 => (0, p)
  | 1 =>
    if colour = 0 ∧ b ≤ p.c then (0, green) else if colour ≤ 1 ∧ b ≤ p.e then (1, yellow) else (2, p)
  | 2 =>
    if colour = 2 ∨ p.e < b then (2, p)
    else if colour = 1 ∨ p.c < b then (1, yellow) else (0, { p with c := p.c - b, e := p.e - b })
  | _ =>
    if colour = 0 ∧ b ≤ p.c then (0, green) else if colour ≤ 1 ∧ b ≤ p.e then (1, yellow) else (2, p)

/-- Counts a frame by its colour in its policer. -/
def polCount (p : Policer) (colour len : Nat) : Policer :=
  match colour with
  | 0 => { p with green := (p.green + 1) % 2 ^ 64, greenB := (p.greenB + len) % 2 ^ 64 }
  | 1 => { p with yellow := (p.yellow + 1) % 2 ^ 64, yellowB := (p.yellowB + len) % 2 ^ 64 }
  | _ => { p with red := (p.red + 1) % 2 ^ 64, redB := (p.redB + len) % 2 ^ 64 }

/-- A policer answers a frame's request (R399, R400): an index that is absent for the frame's epoch is
answered green and counted. -/
def police (s : State) (f : Frame) : State × Nat :=
  match tableRead s f.epoch 0x40 0 f.policer with
  | none => (count s 12 0 6 1, 0)
  | some e =>
    let p := polRefill s e (polAt s f.policer)
    let len := ((frameLen f : Int) + toSigned 8 (leAt e 1 1)).toNat
    let inC := (byteAt f.verdict 12).toNat % 4
    let x := polColour (leAt e 0 1 % 4) (if f.aware ∧ inC ≠ 3 then inC else 0) (len * 8 * 46875) p
    (setPol s f.policer (polCount x.2 x.1 len), x.1)

/-! Release (R366-R369). -/

/-- The subport and priority whose count a frame's cells are in (R372). -/
def frameIng (f : Frame) : Option (Nat × Nat) :=
  match f.ingress with
  | .subport n => some (n, f.prio)
  | _ => none

/-- A cell counted for a subport and priority is freed: the counts fall, headroom first (R372, R373). -/
def ingFree (s : State) (ing : Nat) : State :=
  if ing = 0 then s
  else
    let k := ing - 1
    let s := s.withBuf { s.buf with
      ing := setAt 0 s.buf.ing k (getAt 0 s.buf.ing k - 1)
      headroom := setAt 0 s.buf.headroom k (getAt 0 s.buf.headroom k - 1) }
    updateXoff s (k / 8)

/-- A policer request whose answer no frame waits for any more: the policer's buckets and counts change as for any other
(R125, R399). -/
def orphanRequest (s : State) (fid : Nat) : State :=
  match frameAt s fid with
  | some f => if f.policed && f.colour.isNone then (police s f).1 else s
  | none => s

/-- A frame has no holder left: its descriptor is freed and the device forgets it (R367). -/
def forgetFrame (s : State) (fid : Nat) : State :=
  let s := orphanRequest s fid
  setFrame (s.withBuf { s.buf with descs := s.buf.descs - 1 }) fid none

/-- The allocator frees a cell: ALLOC, the HOLD bits and U of the owner's class are cleared, OWNER stays, and the cell goes
to the tail of the free list (R368). -/
def freeCell (s : State) (c : Nat) : State :=
  let h := cellAt s c
  let k := allocClass h.owner
  let s := touchCells (setCell s c { owner := h.owner }) k
  let s := s.withBuf { s.buf with
    used := setAt 0 s.buf.used k (classUsed s k - 1)
    freed := s.buf.freed ++ [c] }
  ingFree s h.ing

/-- The holder class of a party holds a reference to a cell (R359, R363). -/
def holdsFor (h : CellHdr) (party : Nat) : Bool :=
  (0xE0 ≤ party && party ≤ 0xE1 && h.holdEgress) || (0x20 ≤ party && party ≤ 0xA7 && h.holdEngine) ||
    (0xE8 ≤ party && party ≤ 0xE9 && h.holdHost)

/-- A release is rejected: it is counted by cause and free-rejected is posted (R368, R403). -/
def rejectRelease (s : State) (cause loc party : Nat) : State :=
  let h := cellAt s (loc / 256)
  postEvent (count s 12 0 (cause - 1) 1) 0x09 1 (origin s 25 0 0 0)
    (le 1 cause ++ le 8 loc ++ le 1 party ++ le 1 h.owner ++ le 2 h.refs)

/-- A release of a cell by its location and the party's code (R368): causes 1 MISALIGNED, 2 OUT_OF_RANGE,
3 DOUBLE_FREE, 4 FOREIGN, in the order of their checks; a header that cannot be read keeps its cell allocated (R359). -/
def releaseCell (s : State) (loc party : Nat) : State :=
  let c := loc / 256
  if loc % 256 ≠ 0 ∨ 2 ^ 29 ≤ loc then rejectRelease s 1 loc party
  else if cellCount ≤ c then rejectRelease s 2 loc party
  else
    let h := cellAt s c
    if h.bad then s
    else if h.alloc = false then rejectRelease s 3 loc party
    else if h.owner ≠ party ∧ holdsFor h party = false then rejectRelease s 4 loc party
    else if h.refs ≤ 1 then freeCell s c
    else setCell s c { h with refs := h.refs - 1 }

/-- Releases cells by their numbers. -/
def releaseCells (s : State) (party : Nat) (cs : List Nat) : State :=
  cs.foldl (fun s c => releaseCell s (c * 256) party) s

/-- The owner releases every cell of a frame that is dropped before enqueue (R366). -/
def dropFrame (s : State) (fid : Nat) : State :=
  match frameAt s fid with
  | some f => forgetFrame (releaseCells s f.tag f.cells) fid
  | none => s

/-! Queues and admission (R374-R377). -/

/-- The index of an internal queue. -/
def internalQ (k : Nat) : Nat := 6144 + k

/-- The subport of a subport queue. -/
def queueSub (q : Nat) : Nat := q / 16

/-- A queue is a subport queue. -/
def isSubQ (q : Nat) : Bool := decide (q < 6144)

/-- A copy to be made of a frame. -/
structure CopyReq where
  queue : Nat
  encap : Nat := 0
  mirror : Bool := false
  trunc : Nat := 0
  deriving DecidableEq, Repr

/-- The number of cells that a copy covers (R366). -/
def coverage (f : Frame) (trunc : Nat) : Nat :=
  if trunc = 0 then f.cells.length else min (cellsFor trunc) f.cells.length

/-- A copy's bytes as they stand in the queue, its FCS included. -/
def copyLen (f : Frame) (trunc : Nat) : Nat := if trunc = 0 then frameLen f else min trunc (frameLen f)

/-- The cells that a pool's queues hold. -/
def poolUsed (s : State) (p : Nat) : Nat := getAt 0 s.buf.pool p

/-- The admission rule of R374: 0 admit, 1 tail drop at MAX, 2 tail drop at the pool limit. -/
def admission (s : State) (epoch q c : Nat) : Nat :=
  let d := (queueAt s q).depth
  let cfg := regValAt s epoch .queueCfg q
  let p := bits cfg 21 2
  if d < regFieldAt s epoch .queueThr q 0 16 then 0
  else if bits cfg 0 21 < d + c then 1
  else if min (regFieldAt s epoch .poolLimit p 0 21) cellCount < poolUsed s p + c then 2
  else 0

/-- A subport's link is down with no hold running: it has never been up, or its hold has expired (R72). -/
def dropsAtEnqueue (s : State) (sub : Nat) : Bool := !(subAt s sub).up && (subAt s sub).hold.isNone

/-- The KEY_LAYER of a frame's class makes its key layer the inner one (R98). -/
def keyInner (f : Frame) : Bool :=
  bits (byteAt f.clsEntry 0).toNat 2 2 == 1 && f.parse.tunnel != 0

/-- The IP layer at a frame's key layer (R98). -/
def keyLayer (f : Frame) : Option IpLayer := if keyInner f then f.parse.inner else f.parse.outer

/-- The IP layer that the egress edits work at: the key layer, or the outermost where the rewrite area
says so (R393). -/
def editLayer (f : Frame) : Option IpLayer :=
  if bit (byteAt f.verdict 1).toNat 2 && byteAt f.rewrite 2 == 1 then f.parse.outer else keyLayer f

/-- A copy admitted above the marking threshold carries CE (R375). -/
def marksCe (s : State) (f : Frame) (q : Nat) : Bool :=
  let th := regFieldAt s f.epoch .queueThr q 16 16
  th != 0 && decide (th * 16 ≤ (queueAt s q).depth) && bit (byteAt f.verdict 1).toNat 3 &&
    (match editLayer f with
      | some l => l.ecn == 1 || l.ecn == 2
      | none => false)

/-- A gate schedule is in force on a subport (R391). -/
def gateAt (s : State) (sub : Nat) : Gate := getAt {} s.buf.gates sub

/-- A copy cuts through (R118, R381). -/
def cutsThrough (s : State) (f : Frame) (q : Nat) : Bool :=
  isSubQ q && bit (byteAt f.verdict 1).toNat 0 && (queueAt s q).copies.isEmpty &&
    (match getAt none s.buf.tx (queueSub q) with
      | some t => t.queue != q
      | none => true) &&
    (match f.ingress with
      | .subport n => decide (subRate s (queueSub q) ≤ subRate s n)
      | _ => false) &&
    !(gateAt s (queueSub q)).enabled

/-- The rate of a queue's token shaper in kb/s. -/
def queueRate (s : State) (q : Nat) : Nat := regField s .queueRate q 0 32

/-- The burst of a queue's token shaper in units of 1/12,000,000 B. -/
def queueBurst (s : State) (q : Nat) : Int := ((regField s .queueSched q 16 16 * 256 * 12000000 : Nat) : Int)

/-- A token level after some cycles (R386). -/
def tokensAfter (level : Int) (rate dt : Nat) (burst : Int) : Int := min (level + ((rate * dt : Nat) : Int)) burst

/-- The bits of the longest frame in units of 1/1,500,000 bit (R387). -/
def maxFrameCredit : Nat := 10240 * 8 * 1500000

/-- hiCredit of a queue (R387): the credit that it gains while the longest frame is sent at its subport's rate. -/
def hiCredit (s : State) (q : Nat) : Int :=
  ((maxFrameCredit * regField s .queueIdleSlope q 0 32 / max 1 (subRate s (queueSub q) * 1000000) : Nat) : Int)

/-- A queue with its token shaper and credit brought up to the present cycle (R386, R387): credit rises to hiCredit at most,
that of an empty queue to 0, and positive credit of an empty queue is 0. -/
def settleQueue (s : State) (q : Nat) : Queue :=
  let x := queueAt s q
  let tokens := if queueRate s q = 0 then x.tokens
    else tokensAfter x.tokens (queueRate s q) (s.clk.cc - x.refillAt) (queueBurst s q)
  let up := x.credit + ((regField s .queueIdleSlope q 0 32 * (s.clk.cc - x.creditAt) : Nat) : Int)
  let credit := if regField s .queueCfg q 24 1 = 0 ∨ isSubQ q = false then 0
    else if x.copies.isEmpty then min up 0 else min up (max x.credit (hiCredit s q))
  { x with tokens := tokens, refillAt := s.clk.cc, credit := credit, creditAt := s.clk.cc }

/-- A queue is served with strict priority (R383), for a frame of an epoch (R22). -/
def isSp (s : State) (ep q : Nat) : Bool := regFieldAt s ep .queueCfg q 23 1 == 1

/-- A waking DWRR queue, by a frame of an epoch, joins the tail of the current round with deficit 0 (R384). -/
def joinRound (s : State) (ep q : Nat) : State :=
  if isSubQ q && !isSp s ep q then
    let sub := queueSub q
    let sc : Sched := getAt {} s.buf.sched sub
    if sc.round.contains q || sc.next.contains q then s
    else s.withBuf { s.buf with sched := setAt {} s.buf.sched sub { sc with round := sc.round ++ [q] } }
  else s

/-- Marks the peak depth of a queue (R611). -/
def notePeak (s : State) (q : Nat) : State :=
  if getAt 0 s.ctr.peak q < (queueAt s q).depth then
    s.withCtr { s.ctr with peak := setAt 0 s.ctr.peak q (queueAt s q).depth }
  else s

/-- Counts frames and bytes of a queue from a counter index on (R376). -/
def countQ (s : State) (q idx len : Nat) : State := count (count s 6 q idx 1) 6 q (idx + 1) len

/-- Puts an admitted copy at the tail of its queue: depth, pool, CE mark, counters (R374-R376). -/
def pushCopy (s : State) (fid : Nat) (f : Frame) (r : CopyReq) : State :=
  let c := coverage f r.trunc
  let p := regFieldAt s f.epoch .queueCfg r.queue 21 2
  let ce := marksCe s f r.queue
  let copy : Copy :=
    { fid := fid, encap := r.encap, mirror := r.mirror, trunc := r.trunc, ce := ce
      cut := cutsThrough s f r.queue, cells := c, pool := p }
  let x := settleQueue s r.queue
  let s := touch s 6 r.queue 17
  let s := setQueue s r.queue { x with copies := x.copies ++ [copy], depth := x.depth + c }
  let s := s.withBuf { s.buf with pool := setAt 0 s.buf.pool p (poolUsed s p + c) }
  let s := notePeak (joinRound s f.epoch r.queue) r.queue
  let s := countQ s r.queue 0 (copyLen f r.trunc)
  let s := countPmc s { code := 0x12, block := 25, unit := some 2, who := some (f.tenant, f.cls) } 1
  if ce then countQ s r.queue 4 (copyLen f r.trunc) else s

/-- Whether a queue takes frames at all: the reserved internal queues drop them (R377). -/
def queueUsed (q : Nat) : Bool :=
  decide (q < 6144 + 0x20) || (decide (6144 + 0x40 ≤ q) && decide (q < 6144 + 0xC0))

/-- All entries in the queues (R358). -/
def queueEntries (s : State) : Nat :=
  (s.buf.queues.map (fun e => e.2.copies.length)).foldl (· + ·) 0

/-- Offers one copy to its queue (R72, R362, R374): the state, and whether the copy was made. -/
def offerCopy (s : State) (fid : Nat) (r : CopyReq) : State × Bool :=
  match frameAt s fid with
  | none => (s, false)
  | some f =>
    let len := copyLen f r.trunc
    if queueUsed r.queue = false then (countQ s r.queue 6 len, false)
    else if isSubQ r.queue && dropsAtEnqueue s (queueSub r.queue) then (countQ s r.queue 14 len, false)
    else if cellCount ≤ queueEntries s then (countQ s r.queue 10 len, false)
    else match admission s f.epoch r.queue (coverage f r.trunc) with
      | 0 => (pushCopy s fid f r, true)
      | 1 => (countQ s r.queue 6 len, false)
      | _ => (countQ s r.queue 8 len, false)

/-- Offers copies in order; those that were made. -/
def offerCopies (s : State) (fid : Nat) : List CopyReq → State × List CopyReq
  | [] => (s, [])
  | r :: rs =>
    match offerCopy s fid r with
    | (s, true) => match offerCopies s fid rs with
      | (s, made) => (s, r :: made)
    | (s, false) => offerCopies s fid rs

/-- The holder class of a queue's consumer (R363, R377): 0 EGRESS, 1 ENGINE, 2 HOST. -/
def queueHolder (q : Nat) : Nat :=
  if q < 6144 then 0 else if q < 6144 + 0x10 then 1 else if q < 6144 + 0x20 then 2 else 0

/-- A party of the holder class of a queue's consumer, which releases the copies of the queue that are discarded (R363,
R367; log 65). -/
def queueParty (q : Nat) : Nat := if queueHolder q = 1 then 0x20 else if queueHolder q = 2 then 0xE8 else 0xE0

/-- One reference to a cell passes to the copies that cover it (R366): their number joins the count in its
place, their HOLD bits are set, and without such a copy `party` releases the cell. -/
def assignCell (s : State) (party i c : Nat) (f : Frame) (made : List CopyReq) : State :=
  let cover := made.filter (fun r => decide (i < coverage f r.trunc))
  if cover.isEmpty then releaseCell s (c * 256) party
  else
    let h := cellAt s c
    setCell s c { h with
      refs := h.refs + cover.length - 1
      holdEgress := h.holdEgress || cover.any (fun r => queueHolder r.queue == 0)
      holdEngine := h.holdEngine || cover.any (fun r => queueHolder r.queue == 1)
      holdHost := h.holdHost || cover.any (fun r => queueHolder r.queue == 2) }

/-- A reference to every cell of a list passes to the copies. -/
def assignCells (s : State) (party i : Nat) (f : Frame) (made : List CopyReq) : List Nat → State
  | [] => s
  | c :: cs => assignCells (assignCell s party i c f made) party (i + 1) f made cs

/-- A frame has no copy left: the device forgets it (R367). -/
def settleFrame (s : State) (fid : Nat) : State :=
  match frameAt s fid with
  | some f => if f.drefs = 0 then forgetFrame s fid else s
  | none => s

/-- Subport queues that have got a copy end low-power idle, and a queue deeper than WAKE_DEPTH asks for the
full width (R59, R67). -/
def wakeSubs (s : State) (made : List CopyReq) : State :=
  made.foldl (fun s r =>
    if isSubQ r.queue then
      let sub := queueSub r.queue
      let s := startLpiExit s sub
      if shedField s sub 32 16 1 65535 < (queueAt s r.queue).depth then widenStep s sub else s
    else s) s

/-- The frame is enqueued (R366): the reference that `party` holds passes to the copies that are
admitted; without one the frame's cells are released. -/
def enqueueFrame (s : State) (fid party : Nat) (reqs : List CopyReq) : State :=
  match offerCopies s fid reqs with
  | (s, made) =>
    match frameAt s fid with
    | none => s
    | some f =>
      let s := setFrame s fid (some { f with stage := .queued, drefs := made.length })
      let s := assignCells s party 0 f made f.cells
      settleFrame (wakeSubs s made) fid

/-- Takes a copy out of its queue: depth and pool fall, and an empty queue leaves the round with deficit 0
(R374, R384). -/
def popCopy (s : State) (q : Nat) (c : Copy) : State :=
  let x := settleQueue s q
  let rest := x.copies.filter (fun d => d != c)
  let x := { x with
    copies := rest, depth := x.depth - c.cells
    deficit := if rest.isEmpty then 0 else x.deficit
    visited := if rest.isEmpty then false else x.visited
    credit := if rest.isEmpty then min x.credit 0 else x.credit }
  let s := touch (setQueue s q x) 6 q 17
  let s := s.withBuf { s.buf with pool := setAt 0 s.buf.pool c.pool (poolUsed s c.pool - c.cells) }
  if rest.isEmpty && isSubQ q then
    let sc : Sched := getAt {} s.buf.sched (queueSub q)
    s.withBuf { s.buf with sched := setAt {} s.buf.sched (queueSub q) { sc with
      round := sc.round.filter (· != q), next := sc.next.filter (· != q) } }
  else s

/-- A copy gives up its references: every cell it covers is released and DREFS falls (R366, R367). -/
def releaseCopy (s : State) (party : Nat) (c : Copy) : State :=
  match frameAt s c.fid with
  | some f =>
    let s := setFrame s c.fid (some { f with drefs := f.drefs - 1 })
    settleFrame (releaseCells s party (f.cells.take (coverage f c.trunc))) c.fid
  | none => s

/-- Flushes the copies of a queue, counting them (R72); how many. -/
def flushCopies (s : State) (q : Nat) : List Copy → State
  | [] => s
  | c :: cs =>
    let len := match frameAt s c.fid with
      | some f => copyLen f c.trunc
      | none => 0
    let s := countQ s q 12 len
    flushCopies (releaseCopy (popCopy s q c) 0xE0 c) q cs

/-- Flushes the egress queues of a subport (R72); how many frames. -/
def flushSub (s : State) (sub : Nat) : State × Nat :=
  (List.range 16).foldl (fun a k =>
    let q := sub * 16 + k
    let cs := (queueAt a.1 q).copies
    (flushCopies a.1 q cs, a.2 + cs.length)) (s, 0)

/-! Taking in a frame: descriptor and cells (R361, R364, R365). -/

/-- An allocation drop of a frame is counted, and the headroom overrun of one that meets XOFF (R365, R373). -/
def allocDrop (s : State) (f : Frame) : State :=
  let s := match frameIng f with
    | some (n, p) => if xoffFor s n p then count s 1 n 35 1 else s
    | none => s
  count s 7 f.tag 0 1

/-- The cells of a frame that its bytes have reached as it is taken in: of one still being received the first (log 14). -/
def cellsSoFar (f : Frame) : Nat := if f.whole then cellsFor (frameLen f) else 1

/-- A frame enters the buffer with its descriptor and cells, or is dropped and counted; its number. -/
def bufferFrame (s : State) (f : Frame) : State × Option Nat :=
  if descCount ≤ s.buf.descs then (count s 7 f.tag 1 1, none)
  else
    let fid := s.slices.nextFid
    match takeCells s f.tag (frameIng f) (cellsSoFar f) with
    | (s, cs, ok) =>
      let s := s.withSlices { s.slices with nextFid := fid + 1 }
      let s := s.withBuf { s.buf with descs := s.buf.descs + 1 }
      let s := setFrame s fid (some { f with cells := cs })
      if ok then (s, some fid) else (dropFrame (allocDrop s f) fid, none)

/-! The rest of a frame comes in (R365, R367, R374). -/

/-- The copies of a frame that wait in queues or are being sent. -/
def liveCopies (s : State) (fid : Nat) : List Copy :=
  s.buf.queues.flatMap (fun e => e.2.copies.filter (fun c => c.fid == fid)) ++
    s.buf.tx.filterMap (fun e => match e.2 with
      | some t => if t.copy.fid = fid then some t.copy else none
      | none => none)

/-- Cell i of a frame is allocated after the enqueue (R367): it takes a reference of every copy, less those of truncated
copies that release it at once. -/
def lateCell (s : State) (f : Frame) (cs : List Copy) (i c : Nat) : State :=
  if f.stage ≠ .queued then s
  else match cs.countP (fun x => x.trunc == 0 || decide (i < cellsFor x.trunc)) with
    | 0 => freeCell s c
    | n =>
      let h := cellAt s (f.cells.headD 0)
      setCell s c { cellAt s c with
        refs := n, holdEgress := h.holdEgress, holdEngine := h.holdEngine, holdHost := h.holdHost }

/-- The cells that come after the first i of a frame. -/
def lateCells (f : Frame) (copies : List Copy) : Nat → List Nat → State → State
  | _, [], s => s
  | i, c :: cs, s => lateCells f copies (i + 1) cs (lateCell s f copies i c)

/-- The later cells of a frame join depth and pool of a queue that holds copies of it, without a check (R374). -/
def growQueue (fid : Nat) (f : Frame) (s : State) (q : Nat) : State :=
  let x := queueAt s q
  let add := ((x.copies.filter (fun c => c.fid == fid)).map (fun c => coverage f c.trunc - c.cells)).foldl (· + ·) 0
  if add = 0 then s
  else
    let p := regFieldAt s f.epoch .queueCfg q 21 2
    let cs := x.copies.map (fun c => if c.fid = fid then { c with cells := coverage f c.trunc } else c)
    let s := setQueue (touch s 6 q 17) q { x with copies := cs, depth := x.depth + add }
    notePeak (s.withBuf { s.buf with pool := setAt 0 s.buf.pool p (poolUsed s p + add) }) q

/-- The cells of the rest of a frame are allocated as it comes in; whether all were. -/
def growFrame (s : State) (fid : Nat) : State × Bool :=
  match frameAt s fid with
  | none => (s, true)
  | some f =>
    let n := f.cells.length
    match takeCells s f.tag (frameIng f) (cellsFor (frameLen f) - n) with
    | (s, cs, ok) =>
      let g := { f with cells := f.cells ++ cs }
      let s := lateCells f (liveCopies s fid) n cs (setFrame s fid (some g))
      ((s.buf.queues.map (·.1)).foldl (growQueue fid g) s, ok)

end Sys2Proof.Machine
end

