-- ==== Sys2Proof/Machine/Parse.lean ====
section
/-! DEFINITION. The parser: headers, malformed causes and the parse result (R80-R90), and the addresses,
ports and keys formed from it (R86, R100, R101). -/

namespace Sys2Proof.Machine

/-- What the parser works with: the frame's bytes without FCS, whether lengths are checked against its
end (R90), a third TPID, and the second VXLAN and Geneve ports (R88). -/
structure Head where
  bytes : Bytes
  endKnown : Bool
  tpidAlt : Nat
  vxlan : Nat
  geneve : Nat
  deriving DecidableEq, Repr

/-- A big-endian field of the head. -/
def Head.u (h : Head) (off n : Nat) : Nat := beAt h.bytes off n

/-- One byte of the head. -/
def Head.b (h : Head) (off : Nat) : Nat := (byteAt h.bytes off).toNat

/-- A header of n bytes at an offset: 0, or cause 1 TRUNCATED or 16 WINDOW (R89). -/
def Head.need (h : Head) (off n : Nat) : Nat :=
  if off + n ≤ h.bytes.length ∧ off + n ≤ 256 then 0
  else if h.bytes.length < 256 then 1 else 16

/-- An EtherType that a tag has (R83, R88). -/
def Head.isTpid (h : Head) (et : Nat) : Bool :=
  et == 0x8100 || et == 0x88A8 || (h.tpidAlt != 0 && et == h.tpidAlt)

/-- A layer-2 header: cause, final EtherType, offset after it, tags. -/
structure L2 where
  cause : Nat
  et : Nat
  next : Nat
  tags : List Nat

/-- Up to n more tags at an offset, whose first TPID has been read (R83, R89 cause 2). -/
def parseTags (h : Head) : Nat → Nat → Nat → List Nat → L2
  | 0, et, off, tags => { cause := if h.isTpid et then 2 else 0, et := et, next := off, tags := tags }
  | n + 1, et, off, tags =>
    if h.isTpid et then
      match h.need off 4 with
      | 0 => parseTags h n (h.u (off + 2) 2) (off + 4) (tags ++ [h.u off 2])
      | c => { cause := c, et := et, next := off, tags := tags }
    else { cause := 0, et := et, next := off, tags := tags }

/-- An Ethernet header with up to two tags (R83). -/
def parseL2 (h : Head) (off : Nat) : L2 :=
  match h.need off 14 with
  | 0 => parseTags h 2 (h.u (off + 12) 2) (off + 14) []
  | c => { cause := c, et := 0, next := off, tags := [] }

/-- The words of the labels of an MPLS stack, of at most n labels (R82, R83). -/
def mplsLabels (h : Head) : Nat → Nat → List Nat
  | 0, _ => []
  | n + 1, off =>
    if h.need off 4 ≠ 0 then []
    else h.u off 4 :: (if bit (h.b (off + 2)) 0 then [] else mplsLabels h n (off + 4))

/-- An MPLS stack: up to n more labels; the cause, and the EtherType and offset of what follows (R83,
R89 cause 3). -/
def parseMpls (h : Head) : Nat → Nat → Nat × Nat × Nat
  | 0, off => (3, 0, off)
  | n + 1, off =>
    match h.need off 4 with
    | 0 =>
      if bit (h.b (off + 2)) 0 then
        let nib := h.b (off + 4) / 16
        (0, if h.bytes.length ≤ off + 4 then 0 else if nib = 4 then 0x0800 else if nib = 6 then 0x86DD
          else 0, off + 4)
      else parseMpls h n (off + 4)
    | c => (c, 0, off)

/-- Adds up 16-bit words, most significant byte first, an odd last byte being the high one. -/
def sum16 : Bytes → Nat
  | [] => 0
  | [a] => a.toNat * 256
  | a :: b :: bs => a.toNat * 256 + b.toNat + sum16 bs

/-- Folds a sum to 16 bits with end-around carry. -/
def fold16 (n : Nat) : Nat :=
  let m := n % 65536 + n / 65536
  let m := m % 65536 + m / 65536
  m % 65536 + m / 65536

/-- An IPv4 address as a 16-B field (R10). -/
def mapped (a : Bytes) : Bytes := List.replicate 10 0 ++ [0xFF, 0xFF] ++ a

/-- Extension headers that the parser supports (R83). -/
def extSupported (nh : Nat) : Bool := nh == 0 || nh == 43 || nh == 44 || nh == 51 || nh == 60

/-- Extension headers that make a frame malformed (R85). -/
def extRefused (nh : Nat) : Bool := nh == 135 || nh == 139 || nh == 140 || nh == 253 || nh == 254

/-- Walks IPv6 extension headers: `left` more may be counted, `first` says that none has been met.  The
layer with its protocol and L4 offset, and the cause (R83, R85, R89).  DESIGN CHOICE: a Fragment header with offset 0 and
M clear leaves the fragment state none, and the walk ends at the Fragment header of a non-first fragment, whatever next
header it names (log 63). -/
def walkExt (h : Head) : Nat → Bool → Nat → Nat → IpLayer → IpLayer × Nat
  | left, first, nh, cur, l =>
    let l := { l with proto := nh, l4 := cur }
    if extRefused nh || (nh == 0 && !first) then (l, 8)
    else if extSupported nh = false then (l, 0)
    else match left with
      | 0 => (l, 7)
      | left + 1 =>
        match h.need cur 8 with
        | 0 =>
          if nh = 44 then
            let fo := h.u (cur + 2) 2
            let l := { l with
              frag := if fo / 8 ≠ 0 then 2 else if bit fo 0 then 1 else 0
              fragOff := fo / 8 * 8, fragId := h.u (cur + 4) 4 }
            if l.frag = 2 then ({ l with proto := h.b cur, l4 := cur + 8 }, 0)
            else walkExt h left false (h.b cur) (cur + 8) l
          else
            let n := if nh = 51 then (h.b (cur + 1) + 2) * 4 else (h.b (cur + 1) + 1) * 8
            match h.need cur n with
            | 0 => walkExt h left false (h.b cur) (cur + n) l
            | c => (l, c)
        | c => (l, c)

/-- An IPv4 header (R83, R89 causes 4 to 6); no layer where it cannot be read.  DESIGN CHOICE: cause 5 is tested before
cause 6 (log 63). -/
def parseIpv4 (h : Head) (off : Nat) : Option IpLayer × Nat :=
  match h.need off 20 with
  | 0 =>
    let hl := h.b off % 16 * 4
    if h.b off / 16 ≠ 4 ∨ hl < 20 then (none, 4)
    else match h.need off hl with
      | 0 =>
        let tot := h.u (off + 2) 2
        let fw := h.u (off + 6) 2
        let l : IpLayer :=
          { off := off, l4 := off + hl, proto := h.b (off + 9), stop := off + tot
            src := mapped (cut h.bytes (off + 12) 4), dst := mapped (cut h.bytes (off + 16) 4)
            ttl := h.b (off + 8), dscp := h.b (off + 1) / 4, ecn := h.b (off + 1) % 4
            frag := if fw % 8192 ≠ 0 then 2 else if bit fw 13 then 1 else 0
            fragOff := fw % 8192 * 8, fragId := h.u (off + 4) 2 }
        if fold16 (sum16 (cut h.bytes off hl)) ≠ 65535 then (some l, 5)
        else if tot < hl ∨ (h.endKnown = true ∧ h.bytes.length < off + tot) then (some l, 6)
        else (some l, 0)
      | c => (none, c)
  | c => (none, c)

/-- An IPv6 header and its extension headers (R83, R85, R89 causes 6 to 8). -/
def parseIpv6 (h : Head) (off : Nat) : Option IpLayer × Nat :=
  match h.need off 40 with
  | 0 =>
    let w := h.u off 4
    let l : IpLayer :=
      { v6 := true, off := off, l4 := off + 40, proto := h.b (off + 6)
        stop := off + 40 + h.u (off + 4) 2
        src := cut h.bytes (off + 8) 16, dst := cut h.bytes (off + 24) 16
        ttl := h.b (off + 7), dscp := bits w 22 6, ecn := bits w 20 2, label := bits w 0 20 }
    if h.endKnown = true ∧ h.bytes.length < l.stop then (some l, 6)
    else match walkExt h 3 true (h.b (off + 6)) (off + 40) l with
      | (l, c) => (some l, c)
  | c => (none, c)

/-- The bytes of L4 header that a first fragment must hold (R89 cause 9). -/
def l4Min (l : IpLayer) : Nat :=
  if l.proto = 6 then 20
  else if l.proto = 17 ∨ (l.proto = 1 ∧ l.v6 = false) ∨ (l.proto = 58 ∧ l.v6 = true) then 8 else 0

/-- The checks of cause 9 on a fragment (R89). -/
def fragBad (l : IpLayer) : Bool :=
  let pay := l.stop - l.l4
  l.frag != 0 &&
    (decide (65535 < l.fragOff + pay) || (l.frag == 1 && decide (pay < l4Min l)) ||
      (l.frag == 2 && l.proto == 6 && l.fragOff == 8))

/-- The header of a protocol is ICMP of its family. -/
def isIcmp (l : IpLayer) : Bool := (l.proto == 1 && !l.v6) || (l.proto == 58 && l.v6)

/-- Echo request 1, echo reply 2, other 0, by protocol and type (R86). -/
def echoKind (proto t : Nat) : Nat :=
  if proto = 1 then (if t = 8 then 1 else if t = 0 then 2 else 0)
  else if proto = 58 then (if t = 128 then 1 else if t = 129 then 2 else 0)
  else 0

/-- An ICMP error by protocol and type (R86). -/
def icmpErrorType (proto t : Nat) : Bool :=
  if proto = 1 then t == 3 || t == 4 || t == 5 || t == 11 || t == 12 else 1 ≤ t && t ≤ 4

/-- n bytes from an offset lie in the ICMP message and can be read: cause 13, 1 or 16 otherwise. -/
def embNeed (h : Head) (stop off n : Nat) : Nat := if stop < off + n then 13 else h.need off n

/-- The ports of an embedded header, of a fragment too, taken from its L4 header, swapped into the error's direction (R86,
R100). -/
def embPorts (h : Head) (l : IpLayer) (v6 : Bool) (src dst : Bytes) (proto l4 : Nat) :
    IpLayer × Nat :=
  let l := { l with
    icmpError := true, embOff := l.l4 + 8, embV6 := v6, embProto := proto
    kSrc := dst, kDst := src, kProto := proto }
  if proto = 6 ∨ proto = 17 then
    match embNeed h l.stop l4 4 with
    | 0 => ({ l with embL4 := l4, kSport := h.u (l4 + 2) 2, kDport := h.u l4 2 }, 0)
    | c => (l, c)
  else if (proto = 1 ∧ v6 = false) ∨ (proto = 58 ∧ v6 = true) then
    match embNeed h l.stop l4 1 with
    | 0 =>
      let e := echoKind proto (h.b l4)
      if e = 0 then (l, 0)
      else match embNeed h l.stop l4 6 with
        | 0 =>
          let id := h.u (l4 + 4) 2
          ({ l with
            embL4 := l4, embEcho := e, kSport := if e = 2 then id else 0
            kDport := if e = 1 then id else 0 }, 0)
        | c => (l, c)
    | c => (l, c)
  else (l, 0)

/-- The embedded header of an ICMP error (R86, R89 cause 13). -/
def parseEmbedded (h : Head) (l : IpLayer) : IpLayer × Nat :=
  let e := l.l4 + 8
  match embNeed h l.stop e 1 with
  | 0 =>
    if h.b e / 16 = 4 then
      let hl := h.b e % 16 * 4
      if hl < 20 then (l, 13)
      else match embNeed h l.stop e hl with
        | 0 => embPorts h l false (mapped (cut h.bytes (e + 12) 4))
            (mapped (cut h.bytes (e + 16) 4)) (h.b (e + 9)) (e + hl)
        | c => (l, c)
    else if h.b e / 16 = 6 then
      match embNeed h l.stop e 40 with
      | 0 =>
        match walkExt h 3 true (h.b (e + 6)) (e + 40) {} with
        | (x, 0) =>
          if l.stop < x.l4 then (l, 13)
          else embPorts h l true (cut h.bytes (e + 8) 16) (cut h.bytes (e + 24) 16)
            x.proto x.l4
        | (_, 16) => (l, 16)
        | (_, _) => (l, 13)
      | c => (l, c)
    else (l, 13)
  | c => (l, c)

/-- The TCP header (R83, R89 causes 10 and 11; cause 9 for a first fragment too short for it).  DESIGN CHOICE: a header
whose first 20 bytes end beyond the frame has cause 1 before cause 10 (log 63). -/
def parseTcp (h : Head) (l : IpLayer) : IpLayer × Nat :=
  match h.need l.l4 20 with
  | 0 =>
    let doff := h.b (l.l4 + 12) / 16
    let fl := h.b (l.l4 + 13) % 64
    let l := { l with
      sport := h.u l.l4 2, dport := h.u (l.l4 + 2) 2, tcpFlags := fl
      tcpSeq := h.u (l.l4 + 4) 4, tcpAck := h.u (l.l4 + 8) 4, tcpWindow := h.u (l.l4 + 14) 2, tcpOff := doff
      pay := l.l4 + doff * 4
      kSport := h.u l.l4 2, kDport := h.u (l.l4 + 2) 2 }
    if doff < 5 then (l, 10)
    else if l.stop < l.l4 + doff * 4 then (l, if l.frag = 1 then 9 else 10)
    else match h.need l.l4 (doff * 4) with
      | 0 =>
        if fl = 0 ∨ (bit fl 1 ∧ (bit fl 0 ∨ bit fl 2)) ∨ (bit fl 0 ∧ bit fl 3 ∧ bit fl 5 ∧ ¬ bit fl 4) then
          (l, 11)
        else (l, 0)
      | c => (l, c)
  | c => (l, c)

/-- The UDP header (R83, R89 cause 12): its length is judged against the IP payload of this packet, of a first fragment too
(log 63). -/
def parseUdp (h : Head) (l : IpLayer) : IpLayer × Nat :=
  match h.need l.l4 8 with
  | 0 =>
    let n := h.u (l.l4 + 4) 2
    let l := { l with
      sport := h.u l.l4 2, dport := h.u (l.l4 + 2) 2, pay := l.l4 + 8
      kSport := h.u l.l4 2, kDport := h.u (l.l4 + 2) 2 }
    if n < 8 ∨ l.stop < l.l4 + n then (l, 12) else (l, 0)
  | c => (l, c)

/-- The ICMP or ICMPv6 header (R83, R86). -/
def parseIcmp (h : Head) (l : IpLayer) : IpLayer × Nat :=
  match h.need l.l4 8 with
  | 0 =>
    let e := echoKind l.proto (h.b l.l4)
    let id := h.u (l.l4 + 4) 2
    let l := { l with icmpType := h.b l.l4, icmpCode := h.b (l.l4 + 1), icmpId := id, pay := l.l4 + 8 }
    if e ≠ 0 then
      ({ l with echo := e, kSport := if e = 1 then id else 0, kDport := if e = 2 then id else 0 }, 0)
    else if icmpErrorType l.proto (h.b l.l4) then parseEmbedded h l
    else (l, 0)
  | c => (l, c)

/-- An IP layer with its L4 header (R83-R86), and the fields of R100 as far as the headers go. -/
def parseIp (h : Head) (et off : Nat) : Option IpLayer × Nat :=
  match if et = 0x0800 then parseIpv4 h off else parseIpv6 h off with
  | (some l, 0) =>
    let l := { l with kSrc := l.src, kDst := l.dst, kProto := l.proto, pay := l.l4 }
    if fragBad l then (some l, 9)
    else if l.frag = 2 then
      (some { l with
        kSport := if l.v6 then l.fragId / 65536 else l.fragId
        kDport := if l.v6 then l.fragId % 65536 else 0 }, 0)
    else
      let r := if l.proto = 6 then parseTcp h l
        else if l.proto = 17 then parseUdp h l
        else if isIcmp l then parseIcmp h l
        else (l, 0)
      (some r.1, r.2)
  | (some l, c) => (some { l with kSrc := l.src, kDst := l.dst, kProto := l.proto }, c)
  | (none, c) => (none, c)

/-- A tunnel header: cause, kind (1 VXLAN, 2 Geneve, 3 NVGRE, 4 GRE), VNI, its offset, protocol type, O and C bits and
option length of Geneve, the EtherType of what follows (0: nothing that is parsed) and its offset. -/
structure Tun where
  cause : Nat := 0
  kind : Nat := 0
  vni : Nat := 0
  off : Nat := 0
  proto : Nat := 0
  o : Bool := false
  c : Bool := false
  opts : Nat := 0
  et : Nat := 0
  next : Nat := 0

/-- VXLAN at an offset (R83, R89 cause 14). -/
def parseVxlan (h : Head) (t : Nat) : Tun :=
  match h.need t 8 with
  | 0 => if bit (h.b t) 3 then { kind := 1, vni := h.u (t + 4) 3, off := t, et := 0x6558, next := t + 8 }
    else { cause := 14 }
  | c => { cause := c }

/-- Geneve at an offset (R83, R89 causes 14 and 15). -/
def parseGeneve (h : Head) (t : Nat) : Tun :=
  match h.need t 8 with
  | 0 =>
    let n := h.b t % 64 * 4
    if h.b t / 64 ≠ 0 then { cause := 14 }
    else if 64 < n then { cause := 15 }
    else match h.need t (8 + n) with
      | 0 =>
        { kind := 2, vni := h.u (t + 4) 3, off := t, proto := h.u (t + 2) 2, o := bit (h.b (t + 1)) 7
          c := bit (h.b (t + 1)) 6, opts := n, et := h.u (t + 2) 2, next := t + 8 + n }
      | c => { cause := c }
  | c => { cause := c }

/-- GRE and NVGRE at an offset (R83, R89 cause 14). -/
def parseGre (h : Head) (t : Nat) : Tun :=
  match h.need t 4 with
  | 0 =>
    let f := h.b t
    let et := h.u (t + 2) 2
    let n := 4 + 4 * (bits f 7 1 + bits f 5 1 + bits f 4 1)
    if h.b (t + 1) % 8 ≠ 0 ∨ bit f 6 then { cause := 14 }
    else match h.need t n with
      | 0 =>
        if et = 0x6558 ∧ bit f 5 then
          if bit f 7 ∨ bit f 4 then { cause := 14 }
          else { kind := 3, vni := h.u (t + 4) 3, off := t, et := et, next := t + n }
        else { kind := 4, off := t, et := et, next := t + n }
      | c => { cause := c }
  | c => { cause := c }

/-- The tunnel that follows the outer layer, if there is one (R83, R87). -/
def parseTunnel (h : Head) (l : IpLayer) : Option Tun :=
  if l.frag = 2 then none
  else if l.proto = 17 then
    if l.dport = 4789 ∨ l.dport = h.vxlan then some (parseVxlan h (l.l4 + 8))
    else if l.dport = 6081 ∨ l.dport = h.geneve then some (parseGeneve h (l.l4 + 8))
    else none
  else if l.proto = 47 then some (parseGre h l.l4)
  else none

/-- The parse result with the IP layer that a tunnel carries, and the payload behind it. -/
def withInner (p : Parse) (r : Option IpLayer × Nat) (off : Nat) : Parse :=
  { p with inner := r.1, cause := r.2, payload := if r.2 ≠ 0 then 255 else (r.1.map (·.pay)).getD off }

/-- What follows a tunnel header: inner Ethernet, inner IP, or nothing (R84). -/
def parseInner (h : Head) (t : Tun) (p : Parse) : Parse :=
  let p := { p with tunnel := t.kind, tunOff := t.off, vni := t.vni, genProto := t.proto, genO := t.o, genC := t.c
                    genOpts := t.opts, payload := t.next }
  if t.et = 0x6558 then
    let l2 := parseL2 h t.next
    let p := { p with innerL2 := t.next, payload := l2.next }
    if l2.cause ≠ 0 then { p with cause := l2.cause, payload := 255 }
    else if l2.et = 0x0800 ∨ l2.et = 0x86DD then withInner p (parseIp h l2.et l2.next) l2.next
    else p
  else if t.et = 0x0800 ∨ t.et = 0x86DD then withInner p (parseIp h t.et t.next) t.next
  else p

/-- The parse result of a frame (R80-R90). -/
def parseHead (h : Head) : Parse :=
  let l2 := parseL2 h 0
  let p : Parse :=
    { dmac := cut h.bytes 0 6, smac := cut h.bytes 6 6, tags := l2.tags, etherType := l2.et, l3off := l2.next }
  if l2.cause ≠ 0 then { p with cause := l2.cause }
  else
    let isMpls := decide (l2.et = 0x8847 ∨ l2.et = 0x8848)
    let m := if isMpls then parseMpls h 4 l2.next else (0, l2.et, l2.next)
    let p := { p with
      mpls := if isMpls then mplsLabels h 4 l2.next else [], mplsOff := if isMpls then l2.next else 0, l3off := m.2.2 }
    if m.1 ≠ 0 then { p with cause := m.1 }
    else if m.2.1 = 0x0800 ∨ m.2.1 = 0x86DD then
      let r := parseIp h m.2.1 m.2.2
      let p := { p with outer := r.1, cause := r.2 }
      match r with
      | (some l, 0) => match parseTunnel h l with
        | some t => if t.cause ≠ 0 then { p with cause := t.cause } else parseInner h t p
        | none => { p with payload := l.pay }
      | _ => p
    else { p with payload := m.2.2 }

/-- An offset as the parse result gives it: 0xFF for a layer that is absent (R82). -/
def layerOff (here : Bool) (o : Nat) : Byte := if here then BitVec.ofNat 8 o else 0xFF

/-- Offsets of an IP layer and its L4 header; a non-first fragment has no L4 header (log 63). -/
def ipOffsets : Option IpLayer → Bytes
  | some l => [layerOff true l.off, layerOff (l.l4 != 0 && l.frag != 2) l.l4]
  | none => [0xFF, 0xFF]

/-- The layer offsets of a parse result (R82): tags, MPLS stack, outer L3, outer L4, tunnel header, inner L2, inner L3, inner
L4, payload. -/
def layerOffsets (p : Parse) : Bytes :=
  [layerOff (!p.tags.isEmpty) 12, layerOff (!p.mpls.isEmpty) p.mplsOff] ++ ipOffsets p.outer ++
    [layerOff (p.tunnel != 0) p.tunOff, layerOff (p.innerL2 != 0) p.innerL2] ++ ipOffsets p.inner ++
    [layerOff true p.payload]

/-- The parser's view of a frame for an epoch.  The parser knows the end of a frame whose end lies in the head; `endKnown`
gives it that of a longer frame, as the receive MAC has it (R88, R90). -/
def headOf (s : State) (epoch : Nat) (bytes : Bytes) (endKnown : Bool) : Head :=
  let t := regValAt s epoch .parseTunnelCfg 0
  { bytes := bytes, endKnown := endKnown || decide (bytes.length + 4 ≤ 256)
    tpidAlt := regFieldAt s epoch .parseMiscCfg 0 0 16, vxlan := bits t 0 16, geneve := bits t 16 16 }

/-- The malformed cause that the parser finds in a frame's head, 0 for none. -/
def headCause (s : State) (bytes : Bytes) : Nat := (parseHead (headOf s s.tbl.epoch bytes false)).cause

/-- The length check that the receive MAC repeats at the end of a frame longer than its head (R90): a cause that the head did
not show, or 0.  A frame malformed in its head is checked too (R92). -/
def lateCause (s : State) (bytes : Bytes) : Nat :=
  let c := (parseHead (headOf s s.tbl.epoch bytes true)).cause
  if c ≠ headCause s bytes ∧ (c = 6 ∨ c = 10 ∨ c = 12) then c else 0

/-- The VID of the outer tag; none where there is no tag or its VID is 0 (R83). -/
def outerVid (p : Parse) : Option Nat :=
  match p.tags with
  | t :: _ => if t % 4096 = 0 then none else some (t % 4096)
  | [] => none

/-- The flow key of an IP layer (R100, R101): `inner` says that it is the inner layer of a tunnel. -/
def keyOf (l : IpLayer) (tenant : Nat) (inner : Bool) : Bytes :=
  l.kSrc ++ l.kDst ++ be 2 l.kSport ++ be 2 l.kDport ++ le 1 l.kProto ++ le 2 tenant ++
    le 1 (flag (!l.v6) + 2 * flag (l.frag == 2) + 8 * flag inner)

/-- A key with its addresses and ports exchanged. -/
def swapKey (k : Bytes) : Bytes := cut k 16 16 ++ cut k 0 16 ++ cut k 34 2 ++ cut k 32 2 ++ k.drop 36

/-- The canonical key: source address and port not above destination address and port (R170). -/
def canonicalKey (k : Bytes) : Bytes :=
  if beVal (cut k 0 16 ++ cut k 32 2) ≤ beVal (cut k 16 16 ++ cut k 34 2) then k else swapKey k

end Sys2Proof.Machine
end

