-- ==== Sys2Proof/Machine/Rewrite.lean ====
section
/-! DEFINITION. What the egress makes of a frame: decapsulation, edits, encapsulation and checksums
(R393-R397). -/

namespace Sys2Proof.Machine

/-- A checksum updated for a word that changes from m to m' (RFC 1624, R395). -/
def csumUpd (hc m m' : Nat) : Nat := 65535 - fold16 ((65535 - hc) + (65535 - m) + m')

/-- Writes bytes over a string without changing its length. -/
def overlay (bs : Bytes) (off : Nat) (new : Bytes) : Bytes :=
  if off + new.length ≤ bs.length then bs.take off ++ new ++ bs.drop (off + new.length) else bs

/-- Writes a 16-bit word at an even distance from its checksums, and updates each of them. -/
def edit16 (bs : Bytes) (cs : List Nat) (off v : Nat) : Bytes :=
  if bs.length < off + 2 then bs
  else
    let old := beAt bs off 2
    cs.foldl (fun b c => overlay b c (be 2 (csumUpd (beAt b c 2) old v))) (overlay bs off (be 2 v))

/-- Writes words one after another, updating the checksums. -/
def editWords (bs : Bytes) (cs : List Nat) (off : Nat) : List Nat → Bytes
  | [] => bs
  | w :: ws => editWords (edit16 bs cs off w) cs (off + 2) ws

/-- The words of a byte string of even length. -/
def wordsOf : Bytes → List Nat
  | a :: b :: bs => (a.toNat * 256 + b.toNat) :: wordsOf bs
  | _ => []

/-- Writes a byte string of even length, updating the checksums. -/
def editBytes (bs : Bytes) (cs : List Nat) (off : Nat) (new : Bytes) : Bytes :=
  editWords bs cs off (wordsOf new)

/-- The IPv4 header checksum of a layer; an IPv6 header has none. -/
def ipCsum (l : IpLayer) : List Nat := if l.v6 then [] else [l.off + 10]

/-- The offset of the L4 checksum that a layer's L4 header has, 0 for none. -/
def l4CsumOff (l : IpLayer) : Nat :=
  if l.frag = 2 ∨ l.l4 = 0 then 0
  else if l.proto = 6 then l.l4 + 16
  else if l.proto = 17 then l.l4 + 6
  else if isIcmp l then l.l4 + 2
  else 0

/-- The L4 checksum to update for a change in the L4 header: an IPv4 UDP checksum of 0 stays 0 (R395). -/
def l4Csum (bs : Bytes) (l : IpLayer) : List Nat :=
  let o := l4CsumOff l
  if o = 0 ∨ (l.proto = 17 ∧ l.v6 = false ∧ beAt bs o 2 = 0) then [] else [o]

/-- The L4 checksum to update for a change of address: ICMP over IPv4 has no pseudo-header (R395). -/
def pseudoCsum (bs : Bytes) (l : IpLayer) : List Nat :=
  if l.proto = 1 ∧ l.v6 = false then [] else l4Csum bs l

/-- A UDP checksum that has come out as 0 is sent as all ones (RFC 768). -/
def udpOnes (before after : Bytes) (l : IpLayer) : Bytes :=
  let o := l4CsumOff l
  if l.proto = 17 ∧ o ≠ 0 ∧ beAt before o 2 ≠ 0 ∧ beAt after o 2 = 0 then overlay after o [0xFF, 0xFF] else after

/-- Offset and length of the source address of an IP header. -/
def srcAt (v6 : Bool) (off : Nat) : Nat × Nat := if v6 then (off + 8, 16) else (off + 12, 4)

/-- Offset and length of the destination address of an IP header. -/
def dstAt (v6 : Bool) (off : Nat) : Nat × Nat := if v6 then (off + 24, 16) else (off + 16, 4)

/-- Writes an address field: an IPv4 address takes the last 4 bytes of its field (R394). -/
def editAddr (bs : Bytes) (cs : List Nat) (at' : Nat × Nat) (field : Bytes) : Bytes :=
  editBytes bs cs at'.1 (cut field (16 - at'.2) at'.2)

/-- The edit flags of a frame, 0 where verdict flag [2] is clear (R393). -/
def editFlags (f : Frame) : Nat := if bit (byteAt f.verdict 1).toNat 2 then leAt f.rewrite 0 2 else 0

/-- The address and port edits of an ordinary frame at a layer (R394 step 2). -/
def editTuple (bs : Bytes) (l : IpLayer) (fl : Nat) (rw : Bytes) : Bytes :=
  let acs := ipCsum l ++ pseudoCsum bs l
  let pcs := l4Csum bs l
  let bs := if bit fl 0 then editAddr bs acs (srcAt l.v6 l.off) (cut rw 4 16) else bs
  let bs := if bit fl 1 then editAddr bs acs (dstAt l.v6 l.off) (cut rw 20 16) else bs
  if l.frag = 2 ∨ l.l4 = 0 then bs
  else if l.proto = 6 ∨ l.proto = 17 then
    let bs := if bit fl 2 then editBytes bs pcs l.l4 (cut rw 36 2) else bs
    if bit fl 3 then editBytes bs pcs (l.l4 + 2) (cut rw 38 2) else bs
  else if l.echo = 1 then
    if bit fl 2 then editBytes bs pcs (l.l4 + 4) (cut rw 36 2)
    else if bit fl 3 then editBytes bs pcs (l.l4 + 4) (cut rw 38 2) else bs
  else if l.echo = 2 then
    if bit fl 3 then editBytes bs pcs (l.l4 + 4) (cut rw 38 2)
    else if bit fl 2 then editBytes bs pcs (l.l4 + 4) (cut rw 36 2) else bs
  else bs

/-- A port edit on the embedded header of an ICMP error: which of its ports, and the new value. -/
def editEmbPort (bs : Bytes) (l : IpLayer) (dst : Bool) (new : Bytes) : Bytes :=
  let cs := [l.l4 + 2]
  if l.embL4 = 0 then bs
  else if l.embProto = 6 ∨ l.embProto = 17 then editBytes bs cs (l.embL4 + if dst then 2 else 0) new
  else if (l.embEcho = 1 ∧ dst = false) ∨ (l.embEcho = 2 ∧ dst = true) then
    editBytes bs cs (l.embL4 + 4) new
  else bs

/-- The address and port edits of an ICMP error: they work on the embedded header, whose destination
fields the source edits rewrite; DST_ADDR also rewrites the outer destination address (R394, R395). -/
def editIcmpError (bs : Bytes) (l : IpLayer) (fl : Nat) (rw : Bytes) : Bytes :=
  let ecs := [l.l4 + 2]
  let addr := fun (b : Bytes) (at' : Nat × Nat) (field : Bytes) =>
    let old := if l.embV6 then 0 else beAt b (l.embOff + 10) 2
    let b := editAddr b (ecs ++ if l.embV6 then [] else [l.embOff + 10]) at' field
    if l.embV6 then b
    else overlay b (l.l4 + 2) (be 2 (csumUpd (beAt b (l.l4 + 2) 2) old (beAt b (l.embOff + 10) 2)))
  let bs := if bit fl 0 then addr bs (dstAt l.embV6 l.embOff) (cut rw 4 16) else bs
  let bs := if bit fl 1 then
      editAddr (addr bs (srcAt l.embV6 l.embOff) (cut rw 20 16)) (ipCsum l ++ pseudoCsum bs l)
        (dstAt l.v6 l.off) (cut rw 20 16)
    else bs
  let bs := if bit fl 2 then editEmbPort bs l true (cut rw 36 2) else bs
  if bit fl 3 then editEmbPort bs l false (cut rw 38 2) else bs

/-- Offset of the word of an IP header that holds its traffic class. -/
def editTos (bs : Bytes) (l : IpLayer) (mask v : Nat) : Bytes :=
  let w := beAt bs l.off 2
  if l.v6 then edit16 bs [] l.off (w - (w / 16 % 256 &&& mask) * 16 + v * 16)
  else edit16 bs (ipCsum l) l.off (w - (w % 256 &&& mask) + v)

/-- The DSCP edit (R393). -/
def editDscp (bs : Bytes) (l : IpLayer) (dscp : Nat) : Bytes := editTos bs l 0xFC (dscp % 64 * 4)

/-- Writes the ECN field. -/
def editEcn (bs : Bytes) (l : IpLayer) (ecn : Nat) : Bytes := editTos bs l 0x03 (ecn % 4)

/-- The ECN field of a layer as it stands. -/
def ecnNow (bs : Bytes) (l : IpLayer) : Nat :=
  if l.v6 then beAt bs l.off 2 / 16 % 4 else (byteAt bs (l.off + 1)).toNat % 4

/-- The DSCP of a layer as it stands. -/
def dscpNow (bs : Bytes) (l : IpLayer) : Nat :=
  if l.v6 then beAt bs l.off 2 / 64 % 64 else (byteAt bs (l.off + 1)).toNat / 4

/-- The TTL or hop limit goes down by one (R394). -/
def decTtl (bs : Bytes) (l : IpLayer) : Bytes :=
  if l.v6 then overlay bs (l.off + 7) [byteAt bs (l.off + 7) - 1]
  else edit16 bs (ipCsum l) (l.off + 8) (beAt bs (l.off + 8) 2 - 256)

/-- The TTL or hop limit of a layer as it stands. -/
def ttlNow (bs : Bytes) (l : IpLayer) : Nat := (byteAt bs (l.off + if l.v6 then 7 else 8)).toNat

/-- The TCP delta edits ACK_ADD and SEQ_SUB (R394). -/
def editDelta (bs : Bytes) (l : IpLayer) (fl : Nat) (rw : Bytes) : Bytes :=
  if l.proto ≠ 6 ∨ l.frag = 2 then bs
  else
    let d := leAt rw 56 4
    let cs := l4Csum bs l
    let bs := if bit fl 10 then
        editBytes bs cs (l.l4 + 8) (be 4 ((beAt bs (l.l4 + 8) 4 + d) % 2 ^ 32)) else bs
    if bit fl 11 then
      editBytes bs cs (l.l4 + 4) (be 4 ((beAt bs (l.l4 + 4) 4 + 2 ^ 32 - d) % 2 ^ 32)) else bs

/-- With CSUM_SUPPLIED, the supplied checksums, held as little-endian numbers, stand at the edited layer (R128, R393, R395). -/
def supplied (bs : Bytes) (l : IpLayer) (fl : Nat) (rw : Bytes) : Bytes :=
  if bit fl 13 then
    let bs := if l.v6 then bs else overlay bs (l.off + 10) (be 2 (leAt rw 54 2))
    let o := l4CsumOff l
    if o = 0 then bs else overlay bs o (be 2 (leAt rw 60 2))
  else bs

/-- Step 2 of R394 at a layer: `none` where TTL_DEC meets a TTL of 0 or 1.  `emb` says that the frame's key carries
ICMP_ERROR: the embedded header is edited. -/
def editLayerOf (bs : Bytes) (l : IpLayer) (emb : Bool) (fl : Nat) (rw : Bytes) (dscp : Nat) (ce : Bool) : Option Bytes :=
  if bit fl 5 ∧ ttlNow bs l ≤ 1 then none
  else
    let b0 := bs
    let bs := if emb then editIcmpError bs l fl rw else editTuple bs l fl rw
    let bs := if bit fl 5 then decTtl bs l else bs
    let bs := if bit fl 4 then editDscp bs l dscp else bs
    let bs := if ce then editEcn bs l 3 else bs
    some (supplied (udpOnes b0 (editDelta bs l fl rw) l) l fl rw)

/-- A UDP checksum other than 0 of the tunnel that encloses the edited layer covers the edited bytes and is
updated for them (R395); a 0 there is no checksum (R396). -/
def encloseCsum (before after : Bytes) (o : IpLayer) : Bytes :=
  let c := l4CsumOff o
  if o.proto ≠ 17 ∨ c = 0 ∨ beAt before c 2 = 0 ∨ before = after then after
  else
    let v := csumUpd (beAt before c 2) (fold16 (sum16 (before.drop (o.l4 + 8)))) (fold16 (sum16 (after.drop (o.l4 + 8))))
    overlay after c (be 2 (if v = 0 then 65535 else v))

/-- The update of the enclosing checksum where the edited layer is the inner one of a frame that keeps its
outer headers. -/
def encloseOf (f : Frame) (decap : Bool) (l : IpLayer) (before after : Bytes) : Bytes :=
  match f.parse.outer with
  | some o => if decap || o.off == l.off then after else encloseCsum before after o
  | none => after

/-- How many tags stand after the MAC addresses of a frame, at most n. -/
def tagCount (isTag : Nat → Bool) (bs : Bytes) : Nat → Nat → Nat
  | 0, _ => 0
  | n + 1, off => if isTag (beAt bs off 2) && decide (off + 4 ≤ bs.length) then 1 + tagCount isTag bs n (off + 4) else 0

/-- Step 3 of R394: MAC addresses, TAG_POP, TAG_PUSH. -/
def editMac (isTag : Nat → Bool) (bs : Bytes) (fl : Nat) (rw : Bytes) : Bytes :=
  let bs := if bit fl 6 then overlay bs 0 (cut rw 40 6) else bs
  let bs := if bit fl 7 then overlay bs 6 (cut rw 46 6) else bs
  let bs := if bit fl 9 ∧ isTag (beAt bs 12 2) = true then bs.take 12 ++ bs.drop 16 else bs
  if bit fl 8 then bs.take 12 ++ [0x81, 0x00] ++ cut rw 52 2 ++ bs.drop 12 else bs

/-- Fills in the outer IP header of a template (R396): `n` bytes follow the L3 offset in all. -/
def fillIp (t : Bytes) (v6 : Bool) (l3 n : Nat) (tos : Option (Nat × Nat × Bool)) : Bytes :=
  let setTos := fun (b : Bytes) =>
    match tos with
    | some (dscp, ecn, copyDscp) =>
      let l : IpLayer := { v6 := v6, off := l3 }
      let w := beAt b l3 2
      let old := if v6 then w / 16 % 256 else w % 256
      let new := (if copyDscp then dscp * 4 else old / 4 * 4) + ecn
      if l.v6 then overlay b l3 (be 2 (w - old * 16 + new * 16)) else overlay b l3 (be 2 (w - old + new))
    | none => b
  if v6 then overlay (setTos t) (l3 + 4) (be 2 (n - 40))
  else
    let t := overlay (overlay (setTos t) (l3 + 2) (be 2 n)) (l3 + 4) [0, 0]
    let hl := (byteAt t l3).toNat % 16 * 4
    let t := overlay t (l3 + 10) [0, 0]
    overlay t (l3 + 10) (be 2 (65535 - fold16 (sum16 (cut t l3 hl))))

/-- Fills in a template of kind 2 to 5 for a frame of `len` bytes (R396). -/
def fillTemplate (isTag : Nat → Bool) (e t : Bytes) (len hash : Nat) (tos : Option (Nat × Nat)) : Bytes :=
  let kind := leAt e 0 1
  let fl := leAt e 2 1
  let v6 := bit fl 0
  let l3 := 14 + 4 * tagCount isTag t 2 12
  let l4 := l3 + if v6 then 40 else (byteAt t l3).toNat % 16 * 4
  let t := fillIp t v6 l3 (t.length - l3 + len)
    (match tos with
      | some (d, c) => some (d, c, bit fl 2)
      | none => none)
  let vni := be 3 (leAt e 4 4 % 2 ^ 24)
  if kind = 2 ∨ kind = 3 then
    let t := overlay t (l4 + 4) (be 2 (t.length - l4 + len))
    let t := if bit fl 1 then overlay t l4 (be 2 (0xC000 + hash % 2 ^ 14)) else t
    overlay (overlay t (l4 + 6) [0, 0]) (l4 + 12) vni
  else if kind = 4 then overlay t (l4 + 4) vni
  else if bit (byteAt t l4).toNat 5 then overlay t (l4 + 4) (0 :: vni)
  else t

/-- What step 4 of R394 makes of a frame. -/
inductive Encapped where
  | sent (data : Bytes)
  | unencapsulated (data : Bytes)
  | oversize (data : Bytes)
  deriving DecidableEq, Repr

/-- Step 4 of R394: the encapsulation of an entry, by the frame's own IP header where it has one (R269,
R396, R397). -/
def encapsulate (isTag : Nat → Bool) (e : Option Bytes) (bs : Bytes) (hash : Nat)
    (tos : Option (Nat × Nat)) : Encapped :=
  match e with
  | none => .unencapsulated bs
  | some e =>
    let kind := leAt e 0 1
    if kind = 0 ∨ 6 ≤ kind then .unencapsulated bs
    else
      let t := cut e 16 (min (leAt e 1 1) (if kind = 1 then 22 else 112))
      let out :=
        if kind = 1 then t ++ bs.drop (14 + 4 * tagCount isTag bs 2 12)
        else fillTemplate isTag e t bs.length hash tos ++ bs
      if 10240 < out.length + 4 then .oversize out else .sent out

/-- How the egress ends with a copy (R394, R397). -/
inductive Egressed where
  | sent (data : Bytes) (unencapsulated : Bool)
  | ttlDrop
  | oversize (data : Bytes)
  | misrouted
  deriving DecidableEq, Repr

/-- Step 1 of R394: the ECN copy of decapsulation: an outer CE goes into an inner ECT field. -/
def decapEcn (bs : Bytes) (outer inner : Option IpLayer) : Bytes :=
  match outer, inner with
  | some o, some i =>
    if ecnNow bs o = 3 ∧ (ecnNow bs i = 1 ∨ ecnNow bs i = 2) then editEcn bs i 3 else bs
  | _, _ => bs

/-- The egress rewrite of a copy (R394-R397): `encap` is none where no encapsulation is asked for, else
the entry read for its index. -/
def rewriteFrame (isTag : Nat → Bool) (f : Frame) (bs : Bytes) (ce : Bool) (encap : Option (Option Bytes)) :
    Egressed :=
  let fl := editFlags f
  let decap := bit fl 12 && f.parse.innerL2 != 0
  let bs := if decap then decapEcn bs f.parse.outer f.parse.inner else bs
  let edited := match editLayer f with
    | some l =>
      match editLayerOf bs l (f.icmpErr && l.icmpError) fl f.rewrite (leAt f.verdict 12 1 / 4) ce with
      | some b => some (encloseOf f decap l bs b)
      | none => none
    | none => some bs
  match edited with
  | none => .ttlDrop
  | some bs =>
    let own := if decap then f.parse.inner else f.parse.outer
    let tos := match own with
      | some l => some (dscpNow bs l, ecnNow bs l)
      | none => none
    let bs := editMac isTag (if decap then bs.drop f.parse.innerL2 else bs) fl f.rewrite
    match encap with
    | none => .sent bs false
    | some e =>
      match encapsulate isTag e bs f.hash tos with
      | .sent d => .sent d false
      | .unencapsulated d => .sent d true
      | .oversize d => .oversize d

end Sys2Proof.Machine
end

