-- ==== Sys2Proof/Machine/Time.lean ====
section
/-! DEFINITION. Network time (R404-R430): domain clocks, servos, the residual, pulse outputs, the PPS
output and capture inputs. -/

namespace Sys2Proof.Machine

/-- A domain's state as events and results code it (R430). -/
def domStateCode : DomState → Nat
  | .acquire => 0
  | .locking => 1
  | .locked => 2
  | .holdover => 3

/-- The origin code of the footing domain's time unit (R8, R430). -/
def timeOrigin (s : State) : Nat := origin s 19 2 0 0

/-- A pulse output. -/
def pulseAt (s : State) (k : Nat) : Pulse := getAt {} s.time.pulses k

/-- Writes a pulse output. -/
def setPulse (s : State) (k : Nat) (p : Pulse) : State :=
  s.withTime { s.time with pulses := setAt {} s.time.pulses k p }

/-- A capture input. -/
def captureAt (s : State) (k : Nat) : Capture := getAt {} s.time.caps k

/-- Writes a capture input. -/
def setCapture (s : State) (k : Nat) (c : Capture) : State :=
  s.withTime { s.time with caps := setAt {} s.time.caps k c }

/-- Whether a pattern's pulse is on at a time (R422). -/
def pulseOn (p : PulsePattern) (t : Nat) : Bool :=
  if p.mode = 0 ∨ t < p.start then false
  else if p.mode = 1 then decide (t - p.start < p.width)
  else decide ((t - p.start) % p.period < p.width)

/-- How many edges of a pattern have a time below t. -/
def edgesBelow (p : PulsePattern) (t : Nat) : Nat :=
  if p.mode = 0 ∨ t ≤ p.start then 0
  else if p.mode = 1 then (if p.start + p.width < t then 2 else 1)
  else (t - p.start + p.period - 1) / p.period +
    (if t - p.start ≤ p.width then 0 else (t - p.start - p.width + p.period - 1) / p.period)

/-- The first edge of a pattern at or after a time (R423). -/
def firstEdge (p : PulsePattern) (t : Nat) : Nat :=
  if t ≤ p.start then p.start
  else if p.mode = 1 then (if t ≤ p.start + p.width then p.start + p.width else t)
  else
    let k := (t - p.start) % p.period
    if k = 0 then t else if k ≤ p.width then t + (p.width - k) else t + (p.period - k)

/-- The edges from time a to before time b of an output with a pattern and those that wait behind it, by a role: a waiting
pattern takes over at its first edge (R423, R426). -/
def edgesBetween (alternate : Bool) (p : PulsePattern) : List (PulsePattern × Nat) → Nat → Nat → Nat
  | [], a, b => if p.alternate = alternate then edgesBelow p b - edgesBelow p a else 0
  | (q, t) :: rest, a, b =>
    if q.alternate = alternate ∧ t < b then
      (if p.alternate = alternate then edgesBelow p (max a t) - edgesBelow p a else 0) +
        edgesBetween alternate q rest (max a t) b
    else edgesBetween alternate p rest a b

/-- A step of the time that a role follows: the edges that it passes over are counted as skipped by the
output; an edge at the new time is produced (R426). -/
def skipEdges (s : State) (alternate : Bool) (old new k : Nat) : State :=
  let x := pulseAt s k
  if old < new then count s 14 0 (37 + k) (edgesBetween alternate x.pat x.next (old + 1) new) else s

/-- The same for all four outputs. -/
def skipAll (s : State) (alternate : Bool) (old new : Nat) : State :=
  skipEdges (skipEdges (skipEdges (skipEdges s alternate old new 0) alternate old new 1)
    alternate old new 2) alternate old new 3

/-- Changes a domain's state, clears both run counts and posts time-state (R409, R430). -/
def domTo (s : State) (d : Nat) (st : DomState) : State :=
  let x := domainOf s.time d
  if x.st = st then setDomain s d { x with below := 0, above := 0 }
  else
    postEvent (setDomain s d { x with st := st, below := 0, above := 0 }) 0x0A 1 (timeOrigin s)
      (le 1 d ++ le 1 (domStateCode x.st) ++ le 1 (domStateCode st) ++ le 8 (ofSigned 64 x.last))

/-- A step of a domain by o in 2^-16 ns (R410, R411): the domain time moves by o; a backward step of the
primary domain raises the residual by -o, so primary time stands. -/
def stepDomain (s : State) (d : Nat) (o : Int) : State :=
  let oldAlt := roleTime s true
  let oldPri := roleTime s false
  let x := domainOf s.time d
  let back := primaryDom s = d ∧ o < 0
  let s := setDomain s d { x with t := x.t + o * 65536 }
  let s := if back then s.withTime { s.time with resid := s.time.resid - o } else s
  let s := skipAll (skipAll s true oldAlt (roleTime s true)) false oldPri (roleTime s false)
  postEvent s 0x0A 3 (timeOrigin s)
    (le 1 d ++ le 8 (ofSigned 64 o) ++ le 8 (ofSigned 64 (if back then -o else 0)))

/-- The rate that a sample sets, in steps of R405: the clamped ppb of R410 computed without rounding and
then rounded to the nearest step.  o and integ are in 2^-16 ns, so KP o + KI integ over 2^32 is in ppb,
and one ppb of 10 ns is 2^32 / 10^8 steps. -/
def servoRate (kp ki rateMax : Nat) (o integ : Int) : Int :=
  let n := o * (kp * 256 : Nat) + integ * (ki : Nat)
  let lim : Int := ((rateMax * 1000 * 4294967296 : Nat) : Int)
  roundDiv (max (-lim) (min lim n)) 100000000

/-- LOCK_NS as it acts, in 2^-16 ns. -/
def lockLimit (s : State) : Int := ((max 1 (regField s .timeServoCfg 0 16 8) * 65536 : Nat) : Int)

/-- Applies a sample outside ACQUIRE: the run counts, the rate, and the changes of state that the runs
make (R409, R410). -/
def servoSample (s : State) (d : Nat) (o : Int) : State :=
  let s := setDomain s d { domainOf s.time d with last := o }
  let s := if (domainOf s.time d).st = .holdover then domTo s d .locking else s
  let x := domainOf s.time d
  let near := decide (-(lockLimit s) < o) && decide (o < lockLimit s)
  let integ := max (-1099511627776) (min 1099511627776 (x.integ + o))
  let rate := servoRate (regField s .timeServoCfg 0 0 8) (regField s .timeServoCfg 0 8 8)
    (max 1 (min 1000 (regField s .timeLimitCfg 0 0 10))) o integ
  let below := if near then x.below + 1 else 0
  let above := if near then 0 else x.above + 1
  let s := setDomain s d
    { x with integ := integ, rate := rate, below := below, above := above }
  if x.st = .locking ∧ 8 ≤ below then domTo s d .locked
  else if x.st = .locked ∧ 4 ≤ above then domTo s d .locking
  else s

/-- Applies one sample of a domain (R409-R411): in ACQUIRE it steps the domain and counts toward no
run. -/
def applySample (s : State) (d : Nat) (o : Int) : State :=
  if (domainOf s.time d).st = .acquire then
    let s := stepDomain s d o
    let x := domainOf s.time d
    domTo (setDomain s d { x with integ := 0, last := o }) d .locking
  else servoSample s d o

/-- A domain's state and rate as a result (R429). -/
def domResult (s : State) (d : Nat) : Bytes :=
  le 1 (domStateCode (domainOf s.time d).st) ++ le 8 (ofSigned 64 (domainOf s.time d).rate)

/-- TIME_OFFSET (R410, R429). -/
def execTimeOffset (c : Cmd) (dom : BitVec 8) (off : BitVec 64) (s : State) :
    Host.Outcome State Fault Refusal :=
  runCommand c 0x0A01 (fun _ s =>
    if 2 ≤ dom.toNat then .done (err 2) s
    else
      let s := applySample s dom.toNat off.toInt
      .done { block := domResult s dom.toNat } s) s

/-- TIME_ACQUIRE (R409). -/
def execTimeAcquire (c : Cmd) (dom : BitVec 8) (s : State) : Host.Outcome State Fault Refusal :=
  runCommand c 0x0A02 (fun _ s =>
    if 2 ≤ dom.toNat then .done (err 2) s else .done {} (domTo s dom.toNat .acquire)) s

/-- The absolute value of a difference of times. -/
def timeGap (a b : Int) : Int := if a ≤ b then b - a else a - b

/-- Makes the alternate domain primary (R413): r takes the old primary time minus the new primary
domain's time, rounded up so that primary time never decreases (R407; log 21); outputs that follow the
alternate change domain (R414, R426). -/
def switchPrimary (s : State) : State :=
  let alt := 1 - primaryDom s
  let old := primaryTime s
  let oldAlt := roleTime s true
  let r := -((-(old - (domainOf s.time alt).t)) / 65536)
  let s := setRegField (s.withTime { s.time with resid := r, slewCarry := 0 }) .timeCfg 0 0 1 alt
  let s := skipAll s true oldAlt (roleTime s true)
  postEvent s 0x0A 2 (timeOrigin s) (le 1 alt ++ le 8 (ofSigned 64 r))

/-- TIME_SWITCH (R413): accepted only when the alternate domain is LOCKED and within SWITCH_MAX_US of
primary time. -/
def execTimeSwitch (c : Cmd) (s : State) : Host.Outcome State Fault Refusal :=
  runCommand c 0x0A03 (fun _ s =>
    let alt := domainOf s.time (1 - primaryDom s)
    let lim : Int := ((max 1 (regField s .timeLimitCfg 0 20 12) * 1000 * 4294967296 : Nat) : Int)
    if alt.st = .locked ∧ timeGap alt.t (primaryTime s) ≤ lim then .done {} (switchPrimary s)
    else .done (err 5) s) s

/-- TIME_STATUS (R429). -/
def execTimeStatus (c : Cmd) (addr : BitVec 64) (s : State) : Host.Outcome State Fault Refusal :=
  runCommand c 0x0A04 (fun _ s =>
    let block := le 8 (nsOf s.time.dom0.t) ++ le 8 (nsOf s.time.dom1.t) ++ le 8 (timeNs s) ++
      domResult s 0 ++ domResult s 1 ++ le 8 (ofSigned 64 s.time.resid)
    .done { block := block, addr := some addr.toNat } s) s

/-- The operands of TIME_PULSE are in range (R422). -/
def pulseOk (p : PulsePattern) (now : Nat) : Bool :=
  decide (100 ≤ p.period) && decide (10 ≤ p.width) && decide (p.width + 10 ≤ p.period) &&
    (p.mode != 1 || decide (now + 10000 ≤ p.start))

/-- The time of a role at which an outstanding command was accepted (R447). -/
def acceptTime (s : State) (aseq : Nat) (alternate : Bool) : Nat :=
  match s.host.accepted.find? (fun a => a.aseq == aseq) with
  | some a => if alternate then a.times.2 else a.times.1
  | none => roleTime s alternate

/-- A new pattern waits for its first edge; one that waits for a later edge is superseded (R423). -/
def pulseWaits (x : Pulse) (p : PulsePattern) (t : Nat) : Pulse :=
  { x with next := x.next.filter (fun q => decide (q.2 < t)) ++ [(p, t)] }

/-- The patterns whose first edge has come take effect, in order; the rest wait (R423). -/
def pulseDue (s : State) (x : Pulse) : Pulse :=
  let due := fun (q : PulsePattern × Nat) => decide (q.2 ≤ roleTime s q.1.alternate)
  { x with pat := ((x.next.filter due).getLast?.map (·.1)).getD x.pat, next := x.next.filter (fun q => !due q) }

/-- TIME_PULSE (R422, R423): the new pattern takes effect at its first edge 10 µs or more after
acceptance, the pattern off 10 µs after it (log 22). -/
def execTimePulse (c : Cmd) (out role mode : BitVec 8) (secs : BitVec 64) (ns period width : BitVec 32)
    (polarity : BitVec 8) (s : State) : Host.Outcome State Fault Refusal :=
  runCommand c 0x0A05 (fun aseq s =>
    let p : PulsePattern :=
      { alternate := role == 1, mode := mode.toNat, start := secs.toNat * 1000000000 + ns.toNat
        period := period.toNat, width := width.toNat, polarity := polarity == 1 }
    let now := acceptTime s aseq p.alternate
    if 4 ≤ out.toNat ∨ 2 ≤ role.toNat ∨ 3 ≤ mode.toNat ∨ 2 ≤ polarity.toNat ∨
        1000000000 ≤ ns.toNat ∨ pulseOk p now = false then .done (err 2) s
    else
      let at10 := if p.mode = 0 then now + 10000 else firstEdge p (now + 10000)
      .done {} (setPulse s out.toNat (pulseWaits (pulseAt s out.toNat) p at10))) s

/-- TIME_CAPTURE (R424). -/
def execTimeCapture (c : Cmd) (inp edges role enable : BitVec 8) (s : State) :
    Host.Outcome State Fault Refusal :=
  runCommand c 0x0A06 (fun _ s =>
    if 4 ≤ inp.toNat ∨ 3 ≤ edges.toNat ∨ 2 ≤ role.toNat ∨ 2 ≤ enable.toNat then .done (err 2) s
    else
      let x := captureAt s inp.toNat
      .done {} (setCapture s inp.toNat
        { x with enabled := enable == 1, edges := edges.toNat, alternate := role == 1 })) s

/-- HOLDOVER_TIMEOUT (R409): from LOCKING or LOCKED. -/
def execHoldoverTimeout (dom : Fin 2) (s : State) : Host.Outcome State Fault Refusal :=
  match (domainOf s.time dom.val).st with
  | .locking | .locked => .next (domTo s dom.val .holdover)
  | _ => .next s

/-- A pulse output at an edge time (R422, R423): a waiting pattern whose first edge has come takes
effect, and the output takes the level of its pattern. -/
def pulseEdge (s : State) (k : Nat) : State :=
  let x := pulseDue s (pulseAt s k)
  let level := pulseOn x.pat (roleTime s x.pat.alternate) != x.pat.polarity
  let s' := setPulse s k { x with level := level }
  if level = x.level then s' else emit s' (.pin (.tp k) level)

/-- PULSE_EDGE (R422, R423). -/
def execPulseEdge (out : Fin 4) (s : State) : Host.Outcome State Fault Refusal :=
  .next (pulseEdge s out.val)

/-- PPS_EDGE (R425): the PPS output begins a pulse. -/
def execPpsEdge (s : State) : Host.Outcome State Fault Refusal :=
  if regField s .timePpsCfg 0 0 1 = 0 then .next s
  else .next (emit (s.withTime { s.time with pps := true }) (.pin .pps true))

/-- Writes a record to the timestamp ring; one that is not written is counted (R420). -/
def tsRecord (s : State) (rec : Bytes) : State :=
  let r := telPost s (regField s .timeCfg 0 27 1) (regField s .timeCfg 0 24 3) rec
  if r.2 then r.1 else count r.1 14 0 45 1

/-- A CAPTURE record (R420, R424). -/
def captureRecord (inp : Nat) (falling : Bool) (dom count t : Nat) : Bytes :=
  le 1 2 ++ le 1 (dom + 2 * flag falling) ++ le 2 inp ++ le 2 0 ++ le 2 count ++
    le 8 (t / 1000000000) ++ le 4 (t % 1000000000) ++ le 2 0 ++ List.replicate 10 0

/-- CAPTURE_EDGE (R424): an armed input records an edge of its kind, at most one per µs. -/
def execCaptureEdge (inp : Fin 4) (falling : Bool) (s : State) : Host.Outcome State Fault Refusal :=
  let x := captureAt s inp.val
  if x.enabled = false ∨ (x.edges = 0 ∧ falling = true) ∨ (x.edges = 1 ∧ falling = false) then .next s
  else if (match x.lastAt with
      | some t => decide (s.clk.cc < t + 1500)
      | none => false) then .next (count s 14 0 (41 + inp.val) 1)
  else
    let dom := if x.alternate then 1 - primaryDom s else primaryDom s
    let s' := setCapture s inp.val { x with count := x.count + 1, lastAt := some s.clk.cc }
    .next (tsRecord s' (captureRecord inp.val falling dom (x.count + 1) (roleTime s x.alternate)))

/-- What the residual moves toward 0 in one footing clock, in 2^-32 ns, for an advance of the primary
domain: SLEW_PPM for each ns of primary time (R407). -/
def slewStep (slew : Nat) (positive : Bool) (adv : Int) : Nat :=
  if positive then slew * adv.toNat / (1000000 + slew) else slew * adv.toNat / (1000000 - slew)

/-- The advance of a domain in one footing clock (R405). -/
def domAdvance (x : Domain) : Int := 42949672960 + x.rate

/-- One footing clock of network time (R405, R407). -/
def timeTick (s : State) : State :=
  let t := s.time
  let adv := domAdvance (domainOf t (primaryDom s))
  let slew := max 1 (min 1000 (regField s .timeLimitCfg 0 10 10))
  let move := t.slewCarry + slewStep slew (decide (0 < t.resid)) adv
  let m : Nat := move / 65536
  let resid := if t.resid = 0 then 0
    else if 0 < t.resid then max 0 (t.resid - m) else min 0 (t.resid + m)
  s.withTime { t with
    dom0 := { t.dom0 with t := t.dom0.t + domAdvance t.dom0 }
    dom1 := { t.dom1 with t := t.dom1.t + domAdvance t.dom1 }
    resid := resid
    slewCarry := if resid = 0 then 0 else move % 65536 }

/-- The PPS pulse ends PPS_WIDTH ms after it began (R425). -/
def ppsEnd (s : State) : State :=
  let off := toSigned 22 (regField s .timePpsCfg 0 10 22)
  let w := max 1 (min 500 (regField s .timePpsCfg 0 1 9)) * 1000000
  if s.time.pps ∧ (w : Int) ≤ ((timeNs s : Int) - off) % 1000000000 then
    emit (s.withTime { s.time with pps := false }) (.pin .pps false)
  else s

end Sys2Proof.Machine
end

