-- ==== Sys2Proof/Machine/Egress.lean ====
section
/-! DEFINITION. What leaves the buffer: shapers, time gates, the scheduler of a subport and its egress
(R381-R397), timestamps and one-step insertion (R415-R420). -/

namespace Sys2Proof.Machine

/-! Timestamps (R415-R419). -/

/-- The width code of R416: 0 full, 1 half, 2 quarter. -/
def widthCode (full width : Nat) : Nat := if full ≤ width then 0 else if full ≤ 2 * width then 1 else 2

/-- The entry of table 0x48 of a subport's current mode and width (R416). -/
def latEntry (s : State) (sub : Nat) : Bytes :=
  let mode := portMode s (sub / 4)
  tableOr0 s s.tbl.epoch 0x48 0
    (sub / 4 * 32 + mode * 4 + widthCode (fullWidth mode) (subAt s sub).width) 16

/-- A PTP message of R417: the offset of its header and its IP layer, if it is carried over UDP. -/
def ptpOf (p : Parse) : Option (Nat × Option IpLayer) :=
  if p.tunnel ≠ 0 then none
  else if p.etherType = 0x88F7 ∧ p.tags.length ≤ 2 then some (p.l3off, none)
  else match p.outer with
    | some l =>
      if l.proto = 17 ∧ l.frag ≠ 2 ∧ l.l4 ≠ 0 ∧ (l.dport = 319 ∨ l.dport = 320) then some (l.l4 + 8, some l)
      else none
    | none => none

/-- The domain that a PTP domainNumber maps to (R417). -/
def ptpDomain (s : State) (dn : Nat) : Option Nat :=
  if dn = regField s .timeCfg 0 8 8 then some 0
  else if dn = regField s .timeCfg 0 16 8 then some 1 else none

/-- A time in 2^-32 ns as a capture in 2^-16 ns, which resolves to 0.125 ns (R415). -/
def captureOf (t : Int) : Int := t / 536870912 * 8192

/-- The capture in the time of a domain, or in primary time, with the domain that it names (R417). -/
def captureNow (s : State) (d : Option Nat) : Stamp :=
  match d with
  | some d => { t := captureOf (domainOf s.time d).t, dom := d }
  | none => { t := captureOf (primaryTime s), dom := primaryDom s }

/-- The domain in whose time a frame is timestamped: the mapped domain of an event message (R417). -/
def stampDomain (s : State) (p : Parse) (bs : Bytes) : Option Nat :=
  match ptpOf p with
  | some (o, _) => if (byteAt bs o).toNat % 16 ≤ 3 then ptpDomain s (byteAt bs (o + 4)).toNat else none
  | none => none

/-- A receive timestamp: the capture less RX_LAT, and for a Sync message less ASYM (R416). -/
def rxStamp (s : State) (sub : Nat) (bs : Bytes) : Stamp :=
  let p := parseHead (headOf s s.tbl.epoch bs false)
  let e := latEntry s sub
  let c := captureNow s (stampDomain s p bs)
  let sync := match ptpOf p with
    | some (o, _) => (byteAt bs o).toNat % 16 == 0
    | none => false
  { c with t := c.t - toSigned 32 (leAt e 0 4) - if sync then toSigned 32 (leAt e 8 4) else 0 }

/-- A transmit timestamp: the capture plus TX_LAT (R416). -/
def txStamp (s : State) (sub : Nat) (d : Option Nat) : Stamp :=
  let c := captureNow s d
  { c with t := c.t + toSigned 32 (leAt (latEntry s sub) 4 4) }

/-- The seconds, nanoseconds and sub-nanoseconds of a time in 2^-16 ns. -/
def splitTime (t : Int) : Nat × Nat × Nat :=
  let n := (t / 65536).toNat
  (n / 1000000000, n % 1000000000, (t % 65536).toNat)

/-- Writes words over a string; the trailer at `tr` takes each change back (R419). -/
def editTrailer (bs : Bytes) (tr off : Nat) : List Nat → Bytes
  | [] => bs
  | w :: ws =>
    let t := fold16 (beAt bs tr 2 + beAt bs off 2 + (65535 - w))
    editTrailer (overlay (overlay bs off (be 2 w)) tr (be 2 t)) tr (off + 2) ws

/-- Writes bytes of a PTP message and keeps its checksums valid (R419). -/
def ptpEdit (bs : Bytes) (ip : Option IpLayer) (ptp off : Nat) (new : Bytes) : Bytes :=
  match ip with
  | none => overlay bs off new
  | some l =>
    if l.v6 ∧ beAt bs (l.l4 + 4) 2 = beAt bs (ptp + 2) 2 + 10 then
      editTrailer bs (l.l4 + beAt bs (l.l4 + 4) 2 - 2) off (wordsOf new)
    else udpOnes bs (editBytes bs (l4Csum bs l) off new) l

/-- Adds a time in 2^-16 ns to the correctionField (R418). -/
def addCorrection (bs : Bytes) (ip : Option IpLayer) (ptp : Nat) (d : Int) : Bytes :=
  ptpEdit bs ip ptp (ptp + 8) (be 8 (ofSigned 64 (toSigned 64 (beAt bs (ptp + 8) 8) + d)))

/-- Row 1 of R418: a Sync gets its originTimestamp and the sub-nanoseconds. -/
def insertSync (bs : Bytes) (ip : Option IpLayer) (ptp : Nat) (t : Int) : Bytes :=
  let x := splitTime t
  let bs := ptpEdit bs ip ptp (ptp + 34) (be 6 x.1 ++ be 4 x.2.1)
  addCorrection bs ip ptp (x.2.2 : Nat)

/-- The insertion of R418 into a PTP message of a frame, `none` where the fourth row applies. -/
def insertTime (f : Frame) (bs : Bytes) (ip : Option IpLayer) (ptp : Nat) (dom : Option Nat)
    (t tPrimary : Int) : Option Bytes :=
  let kind := (byteAt bs ptp).toNat % 16
  let two := bit (byteAt bs (ptp + 6)).toNat 1
  match f.ingress with
  | .subport _ | .bond _ =>
    if kind ≤ 3 then some (addCorrection bs ip ptp (tPrimary - ((f.arrival * 65536 : Nat) : Int))) else none
  | .engine _ => if kind = 0 ∧ two = false ∧ dom.isSome then some (insertSync bs ip ptp t) else none
  | .inj _ _ =>
    if two ∨ dom.isNone then none
    else if kind = 0 then some (insertSync bs ip ptp t)
    else if kind = 3 then
      match f.refTs with
      | some r => some (addCorrection bs ip ptp (t - r))
      | none => none
    else none

/-- The TX_TS record of R420; sequenceId and sourcePortIdentity stand in it as in the message (R10). -/
def txTsRecord (bs : Bytes) (ptp sub : Nat) (x : Stamp) : Bytes :=
  let t := splitTime x.t
  [1] ++ le 1 x.dom ++ le 2 sub ++ le 1 ((byteAt bs ptp).toNat % 16) ++ le 1 (byteAt bs (ptp + 4)).toNat ++
    cut bs (ptp + 30) 2 ++ le 8 t.1 ++ le 4 t.2.1 ++ le 2 t.2.2 ++ cut bs (ptp + 20) 10

/-- The last step of the egress for a frame with verdict flag [4] (R394 step 6, R418-R420). -/
def oneStep (s : State) (sub : Nat) (f : Frame) (bs : Bytes) : State × Bytes :=
  if bit (byteAt f.verdict 1).toNat 4 = false then (s, bs)
  else match ptpOf (parseHead (headOf s f.epoch bs false)) with
    | none => (s, bs)
    | some (ptp, ip) =>
      let dom := ptpDomain s (byteAt bs (ptp + 4)).toNat
      let event := decide ((byteAt bs ptp).toNat % 16 ≤ 3)
      let x := txStamp s sub (if event then dom else none)
      let two := bit (byteAt bs (ptp + 6)).toNat 1
      match insertTime f bs ip ptp dom x.t (txStamp s sub none).t with
      | some bs' => (if event && two then tsRecord s (txTsRecord bs' ptp sub x) else s, bs')
      | none =>
        let s := count s 1 sub 36 1
        (if event then tsRecord s (txTsRecord bs ptp sub x) else s, bs)

/-! Shapers (R385-R387). -/

/-- The OVERHEAD of a subport (R401) for a frame of an epoch (R22). -/
def overhead (s : State) (ep sub : Nat) : Int := max (-32) (toSigned 7 (regFieldAt s ep .subportSchedCfg sub 0 7))

/-- The charged length of a frame of an epoch and of some length as sent on a subport (R385). -/
def charged (s : State) (ep sub len : Nat) : Nat := ((len : Int) + overhead s ep sub).toNat

/-- The scheduler of a subport. -/
def schedAt (s : State) (sub : Nat) : Sched := getAt {} s.buf.sched sub

/-- Writes the scheduler of a subport. -/
def setSched (s : State) (sub : Nat) (x : Sched) : State :=
  s.withBuf { s.buf with sched := setAt {} s.buf.sched sub x }

/-- The rate of a subport's shaper in kb/s. -/
def subShaperRate (s : State) (sub : Nat) : Nat := regField s .subportRate sub 0 32

/-- The burst of a subport's shaper in units of 1/12,000,000 B. -/
def subBurst (s : State) (sub : Nat) : Int :=
  ((regField s .subportSchedCfg sub 8 16 * 256 * 12000000 : Nat) : Int)

/-- A subport's shaper brought up to the present cycle (R386). -/
def settleSched (s : State) (sub : Nat) : Sched :=
  let x := schedAt s sub
  let r := subShaperRate s sub
  { x with
    tokens := if r = 0 then x.tokens else tokensAfter x.tokens r (s.clk.cc - x.refillAt) (subBurst s sub)
    refillAt := s.clk.cc }

/-- A queue's own shapers let it send (R382). -/
def shaperOpen (s : State) (q : Nat) : Bool :=
  let x := settleQueue s q
  (queueRate s q == 0 || decide (0 ≤ x.tokens)) &&
    (!isSubQ q || regField s .queueCfg q 24 1 == 0 || decide (0 ≤ x.credit))

/-- A frame's start charges its queue's shapers (R386, R387).  The whole charge is made at the start, and credit goes on
rising while the frame is sent; so charged, the loCredit that it may reach at the frame's end is a frame of 10,240 B below
0 at its start. -/
def chargeQueue (s : State) (q len : Nat) : State :=
  let x := settleQueue s q
  setQueue s q { x with
    tokens := if queueRate s q = 0 then x.tokens else x.tokens - ((len * 12000000 : Nat) : Int)
    credit := if isSubQ q && regField s .queueCfg q 24 1 == 1
      then max (x.credit - ((len * 8 * 1500000 : Nat) : Int)) (-(maxFrameCredit : Int)) else x.credit }

/-- A frame's start charges its subport's shaper (R386). -/
def chargeSub (s : State) (sub len : Nat) : State :=
  let x := settleSched s sub
  setSched s sub { x with
    tokens := if subShaperRate s sub = 0 then x.tokens else x.tokens - ((len * 12000000 : Nat) : Int) }

/-! Time gates (R389-R392). -/

/-- Gate states and interval of an entry of a subport's gate list (R390). -/
def gateEntry (s : State) (sub bank i : Nat) : Nat × Nat :=
  let v := leAt (tableOr0 s s.tbl.epoch 0x43 0 ((sub * 2 + bank) * 256 + i) 8) 0 8
  (bits v 0 16, bits v 16 32)

/-- The sum of the first i intervals of the list in force. -/
def gateSum (s : State) (sub : Nat) (g : Gate) (i : Nat) : Nat :=
  ((List.range i).map (fun j => (gateEntry s sub g.bank j).2)).foldl (· + ·) 0

/-- The time at which the entry in force ends by the list alone: the last entry holds to the cycle's end,
where the list is cut (R391). -/
def gateEnd (s : State) (sub : Nat) (g : Gate) : Nat :=
  g.start + if g.len ≤ g.entry + 1 then g.cycle else min g.cycle (gateSum s sub g (g.entry + 1))

/-- The list with its next entry in force, in the next cycle where this one is over. -/
def gateStep (s : State) (sub : Nat) (g : Gate) : Gate :=
  if g.len ≤ g.entry + 1 ∨ g.cycle ≤ gateSum s sub g (g.entry + 1) then
    { g with start := g.start + g.cycle, entry := 0 }
  else { g with entry := g.entry + 1 }

/-- The list that waits, put in force (R391). -/
def gateChange (g : Gate) : Gate :=
  match g.change with
  | some (t, bank, len, cycle) =>
    { g with enabled := true, bank := bank, len := len, cycle := cycle, start := t, entry := 0, change := none }
  | none => g

/-- The gate of a queue (0 to 15) of the subport is open now. -/
def gateOpen (s : State) (sub k : Nat) (g : Gate) : Bool :=
  !g.enabled || bit (gateEntry s sub g.bank g.entry).1 k

/-- When the open gate of a queue next closes, across consecutive entries that keep it open; `none` where
none closes it (R392). -/
def gateCloses (s : State) (sub k : Nat) : Nat → Gate → Option Nat
  | 0, _ => none
  | n + 1, g =>
    let e := gateEnd s sub g
    let (t, g') := match g.change with
      | some (t, _) => if t ≤ e then (t, gateChange g) else (e, gateStep s sub g)
      | none => (e, gateStep s sub g)
    if gateOpen s sub k g' then gateCloses s sub k n g' else some t

/-- A frame of a charged length ends before its queue's gate closes (R392). -/
def gateFits (s : State) (sub k len : Nat) (g : Gate) : Bool :=
  if g.enabled = false then
    match g.change with
    | some (t, _) =>
      if gateOpen s sub k (gateChange g) then
        match gateCloses s sub k 1100 (gateChange g) with
        | some u => fitsBy u
        | none => true
      else fitsBy t
    | none => true
  else match gateCloses s sub k 1100 g with
    | some t => fitsBy t
    | none => true
where
  /-- The frame ends by a time. -/
  fitsBy (t : Nat) : Bool :=
    decide (((len * 8 * 4294967296 : Nat) : Int) ≤
      ((t * 4294967296 : Nat) - primaryTime s) * ((subRate s sub : Nat) : Int))

/-- The state of a queue's gate and the length, for each entry of one cycle of the list in force. -/
def gateSpans (s : State) (sub k : Nat) (g : Gate) : Nat → Nat → List (Bool × Nat)
  | 0, _ => []
  | n + 1, at' =>
    let x := gateEntry s sub g.bank g.entry
    let stop := gateEnd s sub g - g.start
    (bit x.1 k, stop - at') ::
      (if g.len ≤ g.entry + 1 ∨ g.cycle ≤ stop then [] else gateSpans s sub k { g with entry := g.entry + 1 } n stop)

/-- The longest run of open spans. -/
def longestRun (best run : Nat) : List (Bool × Nat) → Nat
  | [] => max best run
  | (true, n) :: xs => longestRun best (run + n) xs
  | (false, _) :: xs => longestRun (max best run) 0 xs

/-- A frame of a charged length is longer than the longest open span of its queue (R392). -/
def neverFits (s : State) (sub k len : Nat) (g : Gate) : Bool :=
  let xs := gateSpans s sub k { g with entry := 0 } 256 0
  xs.any (fun x => !x.1) && decide (longestRun 0 0 (xs ++ xs) * subRate s sub < len * 8)

/-! What a copy is as sent (R385, R393-R397). -/

/-- The encap index of a copy: its override, else the verdict's (R362). -/
def encapIdx (f : Frame) (c : Copy) : Nat := if c.encap ≠ 0 then c.encap else leAt f.verdict 6 2

/-- The device subport a frame came in on, 0xFFFF for none. -/
def ingressSub (f : Frame) : Nat :=
  match f.ingress with
  | .subport n => n
  | .bond n => n
  | _ => 0xFFFF

/-- The prefix of a frame on a bond link (R538): STEER for a steered frame, else DELIVER with the target that the
remote-target table gives for the copy's encap index, if that is valid and names the device at the far end (R539). -/
def bondPrefix (s : State) (sub : Nat) (f : Frame) (c : Copy) : Option Bytes :=
  let v1 := (byteAt f.verdict 1).toNat &&& 0x1C
  let who := le 1 (ownDev s + v1) ++ le 2 (ingressSub f) ++ le 2 f.tenant ++ le 1 f.cls ++ le 1 f.profile
  let len := le 2 (copyLen f c.trunc)
  if f.steered then some (le 1 1 ++ who ++ List.replicate 6 0 ++ len)
  else
    let e := tableOr0 s f.epoch 0x50 0 (encapIdx f c) 8
    let b := (byteAt e 0).toNat
    if bit b 7 && b % 4 == (bondAt s sub).peer then
      some (le 1 2 ++ who ++ cut e 2 4 ++ cut f.verdict 12 1 ++ [0] ++ len ++ f.rewrite)
    else none

/-- A frame whose rewrite area asks for no edit, with the layer that it names (R393). -/
def unedited (f : Frame) : Frame := { f with rewrite := [0, 0] ++ cut f.rewrite 2 1 ++ List.replicate 61 0 }

/-- A copy after the egress rewrite, before one-step insertion.  On a bond subport only a CE mark is made here: the
other edits and the encapsulation are the receiving member's (R539, R540). -/
def egressOf (s : State) (sub : Nat) (f : Frame) (c : Copy) : Egressed :=
  let i := encapIdx f c
  let isTag := (headOf s f.epoch f.bytes false).isTpid
  let bs := f.bytes.take (copyLen f c.trunc - 4)
  if isBond s (sub / 4) then
    match bondPrefix s sub f c with
    | none => .misrouted
    | some p =>
      match rewriteFrame isTag (unedited f) bs c.ce none with
      | .sent d u => .sent (p ++ d) u
      | x => x
  else rewriteFrame isTag f bs c.ce (if i = 0 then none else some (tableRead s f.epoch 0x0B 0 i))

/-- A bond link takes a frame: it is in service, and no cell of an earlier frame waits for credit (R535-R537). -/
def bondReady (s : State) (sub : Nat) : Bool :=
  let b := bondAt s sub
  b.st == .service && !b.waiting.any (fun w => decide (2 ≤ w.1))

/-- Sends the FRAME cells of a frame with its prefix; a frame whose end is bad lacks LAST, and is torn (R41, R535). -/
def sendFrameCells (sub cls num : Nat) (bad first : Bool) : List Bytes → State → State
  | [], s => s
  | p :: ps, s =>
    sendFrameCells sub cls num bad false ps
      (sendCell s sub cls (mkCell s 1 (bondAt s sub).peer cls num 0 first (ps.isEmpty && !bad) p))

/-- A frame leaves on a bond link as cells of class 2 or 3 by its queue (R535). -/
def sendBonded (s : State) (sub k : Nat) (data : Bytes) (bad : Bool) : State :=
  let b := bondAt s sub
  let s := setBond s sub { b with txFrame := (b.txFrame + 1) % 2 ^ 32 }
  sendFrameCells sub (if 8 ≤ k then 2 else 3) b.txFrame bad true (payloads (data.length + 1) data) s

/-- The length that the schedulers charge for a copy, before OVERHEAD (R385): as sent, a truncated mirror copy its truncated
length, one that cuts through and grows too long the 10,240 B after which it ends (R397), one that is not sent nothing. -/
def sentLen (f : Frame) (c : Copy) : Egressed → Nat
  | .sent d _ => if c.mirror ∧ c.trunc ≠ 0 then copyLen f c.trunc else d.length + 4
  | .oversize _ => if f.whole then 0 else 10240
  | _ => 0

/-- The charge of a copy (R385). -/
def chargeOf (s : State) (sub : Nat) (f : Frame) (c : Copy) (out : Egressed) : Nat :=
  if sentLen f c out = 0 then 0 else charged s f.epoch sub (sentLen f c out)

/-- A queue of a subport is paused (R50): by PAUSE, or by a paused priority whose mask includes it. -/
def queuePaused (s : State) (sub k : Nat) : Bool :=
  let x := subAt s sub
  (getAt none x.paused 8).isSome ||
    (List.range 8).any (fun p => (getAt none x.paused p).isSome &&
      bit (regField s (if p < 4 then .pfcQmapLo else .pfcQmapHi) sub (p % 4 * 16) 16) k)

/-- A copy that may be sent next: its queue, the copy, what it becomes and its charged length. -/
structure Cand where
  queue : Nat
  copy : Copy
  frame : Frame
  out : Egressed
  charge : Nat
  deriving DecidableEq, Repr

/-- The head copy of a queue, if the queue is eligible (R382). -/
def candidate (s : State) (sub q : Nat) : Option Cand :=
  match (queueAt s q).copies with
  | [] => none
  | c :: _ =>
    match frameAt s c.fid with
    | none => none
    | some f =>
      let out := egressOf s sub f c
      let n := chargeOf s sub f c out
      let g := gateAt s sub
      if (!isBond s (sub / 4) || bondReady s sub) && (f.whole || c.cut) && !queuePaused s sub (q % 16) && gateOpen s sub (q % 16) g &&
          gateFits s sub (q % 16) n g && shaperOpen s q
      then some { queue := q, copy := c, frame := f, out := out, charge := n } else none

/-- The queues of a subport. -/
def subQueues (sub : Nat) : List Nat := upFrom (sub * 16) 16

/-- A queue's visit of the round is over or not begun. -/
def clearVisit (s : State) (q : Nat) : State :=
  let x := queueAt s q
  if x.visited then setQueue s q { x with visited := false } else s

/-- The deficit round robin of R384 among the eligible queues: the round's first eligible queue gains its
quantum at the start of its visit, and either sends or moves to the next round. -/
def dwrr (sub : Nat) (cs : List Cand) : Nat → State → State × Option Cand
  | 0, s => (s, none)
  | n + 1, s =>
    let sc := schedAt s sub
    match sc.round.findSome? (fun q => cs.find? (fun c => c.queue == q)) with
    | some c =>
      let x := queueAt s c.queue
      let d := if x.visited then x.deficit else x.deficit + max 1 (regFieldAt s c.frame.epoch .queueSched c.queue 0 16)
      if c.charge ≤ d then
        (setQueue s c.queue { x with deficit := d - c.charge, visited := true }, some c)
      else
        let s := setQueue s c.queue { x with deficit := d, visited := false }
        dwrr sub cs n (setSched s sub { sc with
          round := sc.round.filter (· != c.queue), next := sc.next ++ [c.queue] })
    | none =>
      if sc.next.any (fun q => cs.any (fun c => c.queue == q)) then
        let all := sc.round ++ sc.next
        let s := all.foldl clearVisit s
        dwrr sub cs n (setSched s sub { sc with round := (subQueues sub).filter all.contains, next := [] })
      else (s, none)

/-- A queue that holds a copy stands in the round if its head is one of DWRR (R384). -/
def rejoin (s : State) (q : Nat) : State :=
  match (queueAt s q).copies with
  | [] => s
  | c :: _ => match frameAt s c.fid with
    | some f => joinRound s f.epoch q
    | none => s

/-- The copy that a subport's scheduler selects (R382-R384). -/
def pick (s : State) (sub : Nat) : State × Option Cand :=
  if subShaperRate s sub ≠ 0 ∧ (settleSched s sub).tokens < 0 then (s, none)
  else
    let s := (subQueues sub).foldl rejoin s
    let cs := (subQueues sub).filterMap (candidate s sub)
    match (cs.filter (fun c => isSp s c.frame.epoch c.queue)).getLast? with
    | some c => (s, some c)
    | none => dwrr sub cs 400000 s

/-- A selected copy goes into transmission: shapers are charged, times inserted (R386, R418). -/
def startTx (s : State) (sub : Nat) (c : Cand) (d : Bytes) (stomped : Bool) : State :=
  let s := chargeSub (chargeQueue s c.queue c.charge) sub c.charge
  let s := popCopy s c.queue c.copy
  let (s, d) := if isBond s (sub / 4) then (s, d) else oneStep s sub c.frame d
  s.withBuf { s.buf with
    tx := setAt none s.buf.tx sub (some { queue := c.queue, copy := c.copy, data := d, stomped := stomped }) }

/-- A selected copy that is not sent is discarded and counted in the BUFFER group. -/
def discardCopy (s : State) (c : Cand) (idx : Nat) : State :=
  releaseCopy (popCopy (count s 12 0 idx 1) c.queue c.copy) 0xE0 c.copy

/-- The scheduler selects the next frame of a subport (R382); a copy that the egress drops makes room for
another selection at once (R394, R397). -/
def selectNext (sub : Nat) : Nat → State → State
  | 0, s => s
  | n + 1, s =>
    match pick s sub with
    | (s, none) => s
    | (s, some c) =>
      match c.out with
      | .sent d unenc => startTx (if unenc then count s 12 0 9 1 else s) sub c d false
      | .ttlDrop => selectNext sub n (discardCopy s c 10)
      | .misrouted => selectNext sub n (releaseCopy (popCopy (count s 16 0 3 1) c.queue c.copy) 0xE0 c.copy)
      | .oversize d =>
        if c.frame.whole then selectNext sub n (discardCopy s c 8)
        else startTx (count s 12 0 8 1) sub c (d.take 10236) true

/-! Frames in mid-reception. -/

/-- A frame leaves every head queue of its slice. -/
def dropHead (s : State) (fid n : Nat) : State :=
  let x := sliceAt s n
  setSlice s n { x with heads := x.heads.map (fun l => l.filter (· != fid)) }

/-- The copies of a frame that wait in queues are discarded; each gives up its references as its consumer would (R367). -/
def dropCopies (s : State) (fid : Nat) : State :=
  s.buf.queues.foldl (fun s e =>
    (e.2.copies.filter (fun c => c.fid == fid)).foldl (fun s c => releaseCopy (popCopy s e.1 c) (queueParty e.1) c) s) s

/-- The transmissions of a frame that cuts through end with an inverted FCS (R41). -/
def stompTx (s : State) (fid : Nat) : State :=
  s.withBuf { s.buf with tx := s.buf.tx.map (fun e => (e.1, match e.2 with
    | some t => if t.copy.fid = fid then some { t with stomped := true } else some t
    | none => none)) }

/-- A frame whose reception fails: transmissions of it are stomped, everything else of it is dropped; says
whether bytes of it had been forwarded (R41, R69). -/
def abandonFrame (s : State) (fid : Nat) : State × Bool :=
  match frameAt s fid with
  | none => (s, false)
  | some f =>
    if f.stage = .queued then
      let sent := s.buf.tx.any (fun e => match e.2 with
        | some t => t.copy.fid == fid
        | none => false)
      let s := setFrame s fid (some { f with whole := true })
      (dropCopies (stompTx s fid) fid, sent)
    else (dropFrame (dropHead s fid f.slice) fid, false)

/-- A malformed frame of a subport is counted by its cause in a slice, and once in the subport (R92). -/
def countCause (s : State) (n sub cause : Nat) (once : Bool) : State := count (count s 4 n (cause - 1) 1) 1 sub 32 (flag once)

/-- Counts the length error that the end of a frame has shown, if it has shown one (R90, R92). -/
def countLate (s : State) (sub : Nat) (late : Option (Nat × Nat × Bool)) : State :=
  match late with
  | some (n, c, once) => countCause s n sub c once
  | none => s

/-- The last byte of the frame that a subport receives has come in: the rest of its cells is allocated (R365, R367), and the
length check of its end counts a cause (R90, R92); where either fails, the frame is dropped, or ended with an inverted FCS
where it is being cut through (R41). -/
def endRx (s : State) (sub : Nat) : State :=
  let x := subAt s sub
  match x.rxFrame with
  | none => s
  | some fid =>
    let s := setSub s sub { x with rxFrame := none, rxLate := none }
    let s := countLate s sub x.rxLate
    match frameAt s fid with
    | none => s
    | some f =>
      match growFrame (setFrame s fid (some { f with whole := true })) fid with
      | (s, false) => (abandonFrame (allocDrop s f) fid).1
      | (s, true) => if x.rxLate.isSome then (abandonFrame s fid).1 else s

/-- The frame that cuts through has come in whole. -/
def completeFrame (s : State) (fid : Nat) : State :=
  match frameAt s fid with
  | some f =>
    match f.whole, f.ingress with
    | false, .subport n => if (subAt s n).rxFrame = some fid then endRx s n else setFrame s fid (some { f with whole := true })
    | _, _ => setFrame s fid (some { f with whole := true })
  | none => s

/-- The frame in transmission ends: it has left, is counted, and its cells are released (R366, R376).  DESIGN CHOICE: the
mean transmit rate of R59 counts these frames, from the destination address to the FCS, and no MAC control or handshake
frame (log 94). -/
def endTx (s : State) (sub : Nat) : State :=
  match getAt none s.buf.tx sub with
  | none => s
  | some t =>
    let n := t.data.length + 4
    let s := completeFrame s t.copy.fid
    let t := (getAt none s.buf.tx sub).getD t
    let s := s.withBuf { s.buf with tx := setAt none s.buf.tx sub none }
    let s := if isBond s (sub / 4) then sendBonded s sub (t.queue % 16) t.data t.stomped
      else emit s (.frame sub t.data t.stomped)
    let s := count (count (countQ s t.queue 2 n) 1 sub 2 1) 1 sub 3 n
    let s := setSub s sub { subAt s sub with winBytes := (subAt s sub).winBytes + n }
    let s := if t.stomped then count s 1 sub 9 1 else s
    releaseCopy s 0xE0 t.copy

/-- A subport's transmitter takes frames: link up, not in low-power idle, not changing width. -/
def txReady (s : State) (sub : Nat) : Bool :=
  let x := subAt s sub
  x.up && x.lpi == .active && !x.switching

/-- EGRESS_SELECT (R382, R394, R418): a frame boundary of a subport, at which the frame in transmission has
ended and the scheduler selects the next. -/
def execEgressSelect (sub : SubNo) (s : State) : Host.Outcome State Fault Refusal :=
  let s := endTx s sub.val
  if txReady s sub.val then
    .next (selectNext sub.val
      (((subQueues sub.val).map (fun q => (queueAt s q).copies.length)).foldl (· + ·) 1) s)
  else .next s

/-! Gate events (R391, R392). -/

/-- The origin of the gate events of a subport (R403). -/
def gateOrigin (s : State) (sub : Nat) : Nat := origin s 25 3 (sub % 4) 0

/-- Counts the spans that frames too long for any of them miss as their gates close (R392). -/
def missedSpans (s : State) (sub : Nat) (g g' : Gate) : State :=
  (List.range 16).foldl (fun s k =>
    let q := sub * 16 + k
    if g.enabled && gateOpen s sub k g && !gateOpen s sub k g' then
      match (queueAt s q).copies with
      | c :: _ =>
        match frameAt s c.fid with
        | some f =>
          if (f.whole || c.cut) && neverFits s sub k (chargeOf s sub f c (egressOf s sub f c)) g then
            count s 6 q 16 1
          else s
        | none => s
      | [] => s
    else s) s

/-- Writes the gate of a subport. -/
def setGate (s : State) (sub : Nat) (g : Gate) : State :=
  s.withBuf { s.buf with gates := setAt {} s.buf.gates sub g }

/-- GATE_LIST_CHANGE (R391): the list that waits takes effect at its entry 0, and gate-change is posted. -/
def execGateListChange (sub : SubNo) (s : State) : Host.Outcome State Fault Refusal :=
  let g := gateAt s sub.val
  match g.change with
  | none => .next s
  | some (t, bank, _) =>
    let s := missedSpans s sub.val g (gateChange g)
    let s := setGate s sub.val (gateChange g)
    .next (postEvent s 0x09 3 (gateOrigin s sub.val) (le 1 bank ++ le 8 t))

/-- GATE_ENTRY_ADVANCE (R391): the interval of the entry in force ends, and the next entry's states apply. -/
def execGateEntryAdvance (sub : SubNo) (s : State) : Host.Outcome State Fault Refusal :=
  let g := gateAt s sub.val
  if g.enabled = false then .next s
  else
    let g' := gateStep s sub.val g
    .next (setGate (missedSpans s sub.val g g') sub.val g')

/-- A gate schedule lies outside R389: in its cycle time, its list length or an interval. -/
def gateFault (s : State) (sub : Nat) (e : Bytes) : Bool :=
  let cycle := leAt e 12 4
  let len := leAt e 16 2
  decide (cycle < 1000) || decide (1000000000 < cycle) || decide (len = 0) || decide (256 < len) ||
    (List.range len).any (fun i => decide ((gateEntry s sub (bits (leAt e 18 1) 1 1) i).2 < 32))

/-- A gate schedule has been validated (R391): with ENABLE clear every gate opens; else its list waits for
the first start of a cycle at least 10 us from now, or gate-error is posted; the code of its field is a
free value (log 50). -/
def gateValidated (s : State) (sub : Nat) (e : Bytes) : State :=
  if bit (leAt e 18 1) 0 = false then setGate s sub {}
  else if gateFault s sub e then
    let (v, s) := draw s
    postEvent s 0x09 4 (gateOrigin s sub) (le 1 v.toNat)
  else
      let base := leAt e 0 8 * 1000000000 + leAt e 8 4
      let cycle := leAt e 12 4
      let least := ((primaryTime s + 4294967295) / 4294967296).toNat + 10000
      let t := if least ≤ base then base else base + (least - base + cycle - 1) / cycle * cycle
      setGate s sub { gateAt s sub with change := some (t, bits (leAt e 18 1) 1 1, leAt e 16 2, cycle) }

end Sys2Proof.Machine
end

