-- ==== Sys2Proof/Machine/Ports.lean ====
section
/-! DEFINITION. The MAC and the link of a subport: frames received, pause, low-power idle, link down, hold
and flush, link up (R41-R53, R65-R74, R112, R113). -/

namespace Sys2Proof.Machine

/-! Pause (R45-R53). -/

/-- A received PAUSE or PFC frame: acted on under FC_MODE, or counted (R45). -/
def receivePause (s : State) (sub op : Nat) (params : Bytes) : State :=
  let x := subAt s sub
  if op = 1 ∧ fcMode s sub = 1 then
    setSub s sub { x with pausing := x.pausing ++ [[(8, beAt params 0 2)]] }
  else if op = 0x0101 ∧ fcMode s sub = 2 then
    let en := beAt params 0 2 &&& regField s .subportLinkCfg sub 16 8
    let ps := (List.range 8).filter (bit en)
    setSub s sub { x with pausing := x.pausing ++ [ps.map (fun p => (p, beAt params (2 + 2 * p) 2))] }
  else if op = 1 ∨ op = 0x0101 then count s 1 sub 28 1
  else count s 1 sub 29 1

/-- PAUSE_FRAME_RECEIVE (R45): a MAC control frame by its opcode and what follows it. -/
def execPauseFrameReceive (sub : SubNo) (op : BitVec 16) (params : Bytes) (s : State) :
    Host.Outcome State Fault Refusal :=
  if (subAt s sub.val).up && !isBond s (sub.val / 4) then .next (receivePause s sub.val op.toNat params)
  else .next s

/-- A pause of a priority starts, replaces or releases: quanta of 512 bit times at the present rate (R46,
R49, R52). -/
def startPause (s : State) (sub : Nat) (p : Nat × Nat) : State :=
  let x := subAt s sub
  let r := max 1 (subRate s sub)
  let v := if p.2 = 0 then none else some (s.clk.cc + (p.2 * 768 + r - 1) / r)
  setSub s sub { x with paused := setAt none x.paused p.1 v }

/-- PAUSE_EFFECT (R47-R50): the oldest pause frame received reaches its effect point. -/
def execPauseEffect (sub : SubNo) (s : State) : Host.Outcome State Fault Refusal :=
  let x := subAt s sub.val
  match x.pausing with
  | [] => .next s
  | m :: ms => .next (m.foldl (fun s p => startPause s sub.val p) (setSub s sub.val { x with pausing := ms }))

/-- PAUSE_EXPIRE (R47, R50): the pause time of a priority, 8 for PAUSE, has run out. -/
def execPauseExpire (sub : SubNo) (prio : Fin 9) (s : State) : Host.Outcome State Fault Refusal :=
  let x := subAt s sub.val
  .next (setSub s sub.val { x with paused := setAt none x.paused prio.val none })

/-- PAUSE_TX_TIME of a subport: 0 acts as 1 (R650). -/
def pauseTime (s : State) (sub : Nat) : Nat := max 1 (regField s .pauseTxTime sub 0 16)

/-- The PAUSE or PFC frame for the priorities of a mask, with time for those whose XOFF stands (R53). -/
def pauseFrame (s : State) (sub mask xoff : Nat) : Bytes :=
  let t := fun (p : Nat) => if bit xoff p then pauseTime s sub else 0
  let body :=
    if fcMode s sub = 1 then [0x00, 0x01] ++ be 2 (t 8)
    else [0x01, 0x01] ++ be 2 (mask % 256) ++
      ((List.range 8).map (fun p => be 2 (if bit mask p then t p else 0))).flatten
  cut ([0x01, 0x80, 0xC2, 0x00, 0x00, 0x01] ++ ownMac s sub ++ [0x88, 0x08] ++ body) 0 60

/-- The bits of XOFF that flow control of a subport tells its peer of: 8 for PAUSE, 0 to 7 for PFC, none without it (R44,
R53). -/
def fcBits (s : State) (sub : Nat) : Nat := if fcMode s sub = 1 then 256 else if fcMode s sub = 2 then 255 else 0

/-- Sends the pause frame for the priorities of a mask that flow control has, if any; the next repeat is due when half of the
time sent has passed (R53). -/
def sendPause (s : State) (sub mask : Nat) : State :=
  let x := subAt s sub
  let mask := mask &&& fcBits s sub
  let s := if mask = 0 then s else emit s (.frame sub (pauseFrame s sub mask x.xoff) false)
  setSub s sub { x with
    xoffSent := x.xoff &&& fcBits s sub, pauseDue := s.clk.cc + pauseTime s sub * 384 / max 1 (subRate s sub) }

/-- A subport can begin a MAC control frame: not while it switches its width; in low-power idle the exit starts instead (R51,
R60, R67). -/
def controlReady (s : State) (sub : Nat) : Bool :=
  let x := subAt s sub
  x.up && x.lpi == .active && !x.switching && !isBond s (sub / 4)

/-- What flow control has told the peer differs from the XOFF that stands, or XOFF was told under another mode (R53). -/
def pauseOwed (s : State) (sub : Nat) : Bool := (subAt s sub).xoffSent != (subAt s sub).xoff &&& fcBits s sub

/-- PAUSE_SEND (R53): the MAC tells the peer of the XOFF and XON changes since the last frame. -/
def execPauseSend (sub : SubNo) (s : State) : Host.Outcome State Fault Refusal :=
  let x := subAt s sub.val
  if pauseOwed s sub.val = false then .next s
  else if controlReady s sub.val then .next (sendPause s sub.val (x.xoff ^^^ x.xoffSent))
  else .next (startLpiExit s sub.val)

/-- PAUSE_REPEAT (R53): while XOFF persists the frame is sent again; at XON the frame with time zero is the
one sent. -/
def execPauseRepeat (sub : SubNo) (s : State) : Host.Outcome State Fault Refusal :=
  let x := subAt s sub.val
  if x.xoff &&& fcBits s sub.val = 0 ∧ x.xoffSent = 0 then .next s
  else if controlReady s sub.val then .next (sendPause s sub.val (x.xoff ||| x.xoffSent))
  else .next (startLpiExit s sub.val)

/-! Link down, hold, link up (R68-R74). -/

/-- HOLD_US in cycles (R44). -/
def holdCycles (s : State) (sub : Nat) : Nat := min 10000 (regField s .subportLinkCfg sub 0 14) * 1500

/-- A bond link leaves service (R537): what waited for credit is gone, and
bond-link is posted; the code of its cause is a free value (log 50). -/
def bondLeave (s : State) (sub : Nat) : State :=
  let b := bondAt s sub
  if b.st = .out then s
  else
    let s := setBond s sub { b with st := .out, waiting := [], credit := [0, 0, 0, 0] }
    let (v, s) := draw s
    postEvent s 0x0E 1 (subOrigin s sub) (le 1 1 ++ le 1 v.toNat ++ le 1 b.peer)

/-- The frame in transmission is cut off and counted (R69). -/
def cutTx (s : State) (sub : Nat) : State :=
  match getAt none s.buf.tx sub with
  | none => s
  | some t =>
    let s := s.withBuf { s.buf with tx := setAt none s.buf.tx sub none }
    releaseCopy (count (emit s (.cutOff sub)) 1 sub 8 1) 0xE0 t.copy

/-- The frame in reception is dropped and counted as truncated (R69). -/
def cutRx (s : State) (sub : Nat) : State :=
  match (subAt s sub).rxFrame with
  | none => s
  | some fid => (abandonFrame (count s 1 sub 7 1) fid).1

/-- The link goes down (R69), without its hold. -/
def dropLink (s : State) (sub : Nat) : State :=
  if (subAt s sub).up = false then s
  else
    let s := cutRx (cutTx s sub) sub
    let x := subAt s sub
    let s := setSub s sub { x with
      up := false, paused := [], pausing := [], xoffSent := 0, shedOut := [], lpi := .active, req := none, stepTo := none
      switching := false, readySent := false, readyRcvd := false, rxFrame := none, rxLate := none, method := .none }
    let s := postEvent s 0x01 1 (subOrigin s sub) (le 1 0 ++ le 1 x.width)
    if isBond s (sub / 4) then
      let s := bondLeave s sub
      setBond s sub { bondAt s sub with left := false }
    else s

/-- The hold expires (R72): the queues are flushed and hold-expired is posted. -/
def expireHold (s : State) (sub : Nat) : State :=
  let s := setSub s sub { subAt s sub with hold := none, holdLeft := some 0 }
  let r := flushSub s sub
  postEvent r.1 0x01 3 (subOrigin r.1 sub) (le 8 r.2)

/-- The hold starts, or goes on from the time it had left; without any it expires at once (R73). -/
def startHold (s : State) (sub : Nat) : State :=
  let x := subAt s sub
  let left := if holdCycles s sub = 0 then 0 else x.holdLeft.getD (holdCycles s sub)
  if left = 0 then expireHold s sub
  else setSub s sub { x with hold := some (s.clk.cc + left), holdLeft := none }

/-- Wakes the lanes of a port that have not failed: with the port if it sleeps, else as a lane group of it (R517, R520,
R521). -/
def wakePort (s : State) (port : Nat) (ls : List Nat) : State :=
  let s := wakeRequest s .port [port] false
  if isGranted s .port port then wakeRequest s .lane (ls.filter (fun l => !laneHeld s l && !(laneAt s l).failed)) false else s

/-- Link down with its hold; the lanes of full width are woken to train (R69, R71). -/
def linkDown (s : State) (sub : Nat) : State :=
  if (subAt s sub).up then wakePort (startHold (dropLink s sub) sub) (sub / 4) (subLanes s sub) else s

/-- The peer takes part in a recovery: it is an answering peer, or the other end of a bond link, on which R76 applies without
the HELLO of R57 (R532; log 87). -/
def answers (s : State) (sub : Nat) : Bool := (subAt s sub).answering == some true || isBond s (sub / 4)

/-- A recovery begins with a trial on the subport's lowest lane (R76). -/
def startRecovery (s : State) (sub : Nat) : State :=
  setSub s sub { subAt s sub with recovery := (subLanes s sub).head?, recUp := false, recLanes := [], reduced := none }

/-- LINK_DOWN (R69).  `far` says that the answering peer has lost a lane: this end starts its own trial of the recovery link
(R76; log 87). -/
def execLinkDown (loss : LinkLoss) (s : State) : Host.Outcome State Fault Refusal :=
  let n := loss.sub.val
  let up := (subAt s n).up
  let s := linkDown s n
  if up && loss.far && answers s n then .next (startRecovery s n) else .next s

/-- A subport is taken administratively down: its queues are flushed at once, whatever its hold (R74), and a hold timer
that runs stops with the time it has left, which a link-down soon after the next link-up resumes (R73).  DESIGN CHOICE: a
subport that is down already, with no hold running, posts no hold-expired (log 88). -/
def adminDown (s : State) (sub : Nat) : State :=
  let was := (subAt s sub).up || (subAt s sub).hold.isSome
  let s := dropLink s sub
  let x := subAt s sub
  let s := setSub s sub { x with
    hold := none, holdLeft := (x.hold.map (fun e => e - s.clk.cc)).or x.holdLeft, recovery := none, recUp := false }
  let r := flushSub s sub
  if was then postEvent r.1 0x01 3 (subOrigin r.1 sub) (le 8 r.2) else r.1

/-- HOLD_EXPIRE (R72). -/
def execHoldExpire (sub : SubNo) (s : State) : Host.Outcome State Fault Refusal :=
  if (subAt s sub.val).hold.isSome then .next (expireHold s sub.val) else .next s

/-- HOLD_RELOAD (R73): after HOLD_US of link-up the hold timer is reloaded. -/
def execHoldReload (sub : SubNo) (s : State) : Host.Outcome State Fault Refusal :=
  let x := subAt s sub.val
  if x.up then .next (setSub s sub.val { x with holdLeft := none }) else .next s

/-- The low-power method that R55 chooses. -/
def chooseMethod (s : State) (sub : Nat) : LpMethod :=
  let lp := regField s .subportLinkCfg sub 24 2
  let r := subRate s sub
  if isBond s (sub / 4) then .none
  else if shedEnabled s sub && decide (2 ≤ fullOf s sub) && (subAt s sub).answering == some true then .shed
  else if decide (2 ≤ lp) && (r == 100 || r == 200 || r == 400) && regField s .subportEee sub 0 16 != 0 &&
      regField s .subportEee sub 16 16 != 0 then .eee
  else .none

/-- A subport may come up: it exists, its port runs a SerDes image and is enabled, it is not administratively down, some
width is left to it, and its group has a slice. -/
def linkWanted (s : State) (sub : Nat) : Bool :=
  subExists s sub && (portSerdes s (sub / 4)).isSome && regField s .portCfg (sub / 4) 3 1 == 1 && !(subAt s sub).adminDown &&
    (subAt s sub).reduced != some 0 && !s.ft.dark.contains (sub / 24)

/-- The width at which a subport comes up: the one that a failed lane has left it, else a forced one, else the full one
(R71, R76, R78). -/
def upWidth (s : State) (sub : Nat) : Nat :=
  let x := subAt s sub
  (x.reduced.or x.forced).getD (fullOf s sub)

/-- The lanes on which a subport comes up. -/
def upLanes (s : State) (sub : Nat) : List Nat :=
  let x := subAt s sub
  if x.reduced.isSome ∧ x.recLanes ≠ [] then x.recLanes else logicalLanes s sub 0 (upWidth s sub)

/-- Link up (R71, R73): the hold stops with the time it has left, the queues resume, the method is chosen
anew, and HELLO goes out where shedding is allowed (R55, R57). -/
def linkUp (s : State) (sub : Nat) : State :=
  let x := subAt s sub
  let w := upWidth s sub
  let left := (x.hold.map (fun e => e - s.clk.cc)).or x.holdLeft
  let hello := shedEnabled s sub && !isBond s (sub / 4)
  let s := setSub s sub { x with
    up := true, width := w, hold := none, holdLeft := left, forced := none, recovery := none, recUp := false
    recLanes := if x.reduced.isSome then x.recLanes else []
    req := none, stepTo := none, switching := false, readySent := false, readyRcvd := false
    narrowWindows := 0, winBytes := 0, lastLoad := 0, answering := none, helloTries := flag hello
    shedSuspended := false, method := .none }
  let s := postEvent s 0x01 2 (subOrigin s sub) (le 1 1 ++ le 1 w)
  if hello then sendHello s sub else setSub s sub { subAt s sub with method := chooseMethod s sub }

/-- The port and these lanes of a subport have their grants: without them no link comes up (R19, R24). -/
def linkPowered (s : State) (sub : Nat) (ls : List Nat) : Bool := isGranted s .port (sub / 4) && ls.all (isGranted s .lane)

/-- A port and lanes on which a link has come up are locked, and so are ready. -/
def linkLocked (s : State) (sub : Nat) (ls : List Nat) : State :=
  let ready (k : BlockKind) (s : State) (n : Nat) : State := if (blkAt s k n).st = .waking then blockReady s k n else s
  ls.foldl (ready .lane) (ready .port s (sub / 4))

/-- LINK_UP (R71); on a recovery trial the recovery link comes up and HELLO goes out (R76).  Nothing comes up on a port or
lanes that wait for their grant (R24). -/
def execLinkUp (sub : SubNo) (s : State) : Host.Outcome State Fault Refusal :=
  let x := subAt s sub.val
  let ls := match x.recovery with
    | some l => [l]
    | none => upLanes s sub.val
  if x.up || x.recUp || !linkWanted s sub.val || !linkPowered s sub.val ls then .next s
  else
    let s := linkLocked s sub.val ls
    if x.recovery.isSome then .next (sendHello (setSub s sub.val { x with recUp := true, width := 1 }) sub.val)
    else .next (linkUp s sub.val)

/-! Low-power idle (R65-R67). -/

/-- Every egress queue of a subport is empty, and nothing is being sent or waits to be. -/
def subIdle (s : State) (sub : Nat) : Bool :=
  (subQueues sub).all (fun q => (queueAt s q).copies.isEmpty) && (getAt none s.buf.tx sub).isNone &&
    !pauseOwed s sub

/-- LPI_ENTRY (R66, R67): after EEE_IDLE with nothing to send the transmitter enters low-power idle. -/
def execLpiEntry (sub : SubNo) (s : State) : Host.Outcome State Fault Refusal :=
  let x := subAt s sub.val
  if x.up && x.method == .eee && x.lpi == .active && subIdle s sub.val &&
      regField s .subportEee sub.val 0 16 != 0 && regField s .subportEee sub.val 16 16 != 0
  then .next (setSub s sub.val { x with lpi := .idle }) else .next s

/-- LPI_WAKE_END (R67): EEE_TW_TX after the exit started frames may begin. -/
def execLpiWakeEnd (sub : SubNo) (s : State) : Host.Outcome State Fault Refusal :=
  let x := subAt s sub.val
  if x.lpi = .waking then .next (flushShed (setSub s sub.val { x with lpi := .active }) sub.val) else .next s

/-! Frames received (R41-R43, R112, R113). -/

/-- The priority of a frame in its subport's counts: the PCP of its outer tag, or DEF_PRIO (R372). -/
def ingressPrio (s : State) (sub : Nat) (p : Parse) : Nat :=
  match p.tags with
  | t :: _ => t / 8192 % 8
  | [] => regField s .subportFcPrio sub 8 3

/-- A frame of a subport meets its port's head queue (R112, R113, R567, R638): it is dropped and counted, or
buffered with its timestamp and its head queued. -/
def queueHead (s : State) (sub : Nat) (bytes : Bytes) (whole : Bool) : State × Option Nat :=
  let port := sub / 4
  match servingSlice s (port / 6) with
  | none => (count s 3 port 2 1, none)
  | some n =>
    let x := sliceAt s n
    let q := x.heads.getD (port % 6) []
    if n = 16 ∧ isAwake s .slice 16 = false then (count s 3 port 2 1, none)
    else if (sliceAt s (port / 6)).opened = 0 ∨ x.stopped = true ∨ portClosed s port = true then
      (count s 3 port 1 1, none)
    else if 256 ≤ q.length then (count s 3 port 0 1, none)
    else
      let p := parseHead (headOf s s.tbl.epoch bytes false)
      let f : Frame :=
        { bytes := bytes, ingress := .subport sub, slice := n, whole := whole, arrival := timeNs s
          rx := rxStamp s sub bytes, prio := ingressPrio s sub p, tag := n }
      match bufferFrame s f with
      | (s, some fid) =>
        let x := sliceAt s n
        (setSlice s n { x with heads := x.heads.set (port % 6) (x.heads.getD (port % 6) [] ++ [fid]) }, some fid)
      | (s, none) => (s, none)

/-- The codewords of a frame's reception: corrected ones and the histogram of corrected symbols (R42). -/
def countCodewords (s : State) (sub : Nat) (cws : List (BitVec 4)) : State :=
  cws.foldl (fun s n =>
    let s := if n = 0 then s else count s 1 sub 10 1
    count s 1 sub (12 + n.toNat) 1) s

/-- The slice of a frame in its head queue. -/
def sliceOf (s : State) (fid : Nat) : Nat :=
  match frameAt s fid with
  | some f => f.slice
  | none => 0

/-- A frame whose head its slice has not admitted, and which is dropped for an error at its end, is counted by the cause of its
head too (R92). -/
def countHead (s : State) (n sub : Nat) (bytes : Bytes) : State :=
  let c := headCause s bytes
  if c = 0 then s else countCause s n sub c true

/-- A frame with a bad FCS, whole: dropped and counted, also by the cause of its head (R41, R92). -/
def dropBadFcs (s : State) (sub : Nat) (bytes : Bytes) : State :=
  let s := count s 1 sub 4 1
  match servingSlice s (sub / 24) with
  | some n => countHead s n sub bytes
  | none => s

/-- A frame that R43 and R41 accept goes to its head queue, unless its length fields contradict its end (R90, R92): of one
still being received the contradiction shows at its end. -/
def acceptFrame (s : State) (sub : Nat) (bytes : Bytes) (whole : Bool) : State :=
  let late := lateCause s bytes
  let fresh := headCause s bytes == 0
  match queueHead s sub bytes whole with
  | (s, none) => s
  | (s, some fid) =>
    let n := sliceOf s fid
    if whole then
      if late = 0 then s else dropFrame (dropHead (countCause (countHead s n sub bytes) n sub late fresh) fid n) fid
    else
      setSub s sub { subAt s sub with rxFrame := some fid, rxLate := if late = 0 then none else some (n, late, fresh) }

end Sys2Proof.Machine
end

