-- ==== Sys2Proof/Machine/Lanes.lean ====
section
/-! DEFINITION. Lane shedding with the peer (R55-R64), lane failures and recovery (R75-R77), what a MAC
receives, and the port commands (R78). -/

namespace Sys2Proof.Machine

/-! The handshake (R57-R63, R76). -/

/-- A shed handshake frame that is not acted on (R58). -/
def ignoreShed (s : State) (sub : Nat) : State :=
  setSub s sub { subAt s sub with shedDropped := (subAt s sub).shedDropped + 1 }

/-- The subport takes handshake frames: on its recovery link (R76), and on its link when shedding is enabled (R58). -/
def takesShed (s : State) (sub : Nat) : Bool :=
  (subAt s sub).recUp || ((subAt s sub).up && (shedEnabled s sub || isBond s (sub / 4)))

/-- The lanes healthy on both ends, lowest first (R76). -/
def bothHealthy (s : State) (sub : Nat) : List Nat :=
  let ls := subLanes s sub
  let m := healthyMask s sub &&& (subAt s sub).peerHealthy
  ((List.range ls.length).filter (bit m)).map (fun i => ls.getD i 0)

/-- The target width of a recovery: the widest of R54 that the lanes healthy on both ends allow, if one does (R76). -/
def recoveryWidth (s : State) (sub : Nat) : Option Nat :=
  (allowedWidths s sub).find? (fun w => decide (w ≤ (bothHealthy s sub).length))

/-- No width of R54 fits the lanes healthy on both ends.  DESIGN CHOICE: the recovery ends and the subport stays down, as
R77 has it for a peer that does not answer (log 89). -/
def noWidth (s : State) (sub : Nat) : State :=
  setSub s sub { subAt s sub with reduced := some 0, recLanes := [], recovery := none, recUp := false, req := none }

/-- Both ends retrain at the recovery's target width, or keep the recovery link as the link (R76). -/
def finishRecovery (s : State) (sub w : Nat) : State :=
  let x := subAt s sub
  let lanes := (bothHealthy s sub).take w
  let s := setSub s sub { x with
    reduced := if w = fullOf s sub then none else some w, recLanes := lanes, recovery := none, recUp := false, req := none }
  if w = 1 ∧ x.recovery = some (lanes.headD 0) then linkUp s sub else s

/-- The masks have been exchanged on the recovery link: the end with the lower address asks for the target width (R76). -/
def askRecovery (s : State) (sub : Nat) (m : ShedMsg) : State :=
  match recoveryWidth s sub with
  | none => noWidth s sub
  | some w =>
    let x := subAt s sub
    if beVal (ownMac s sub) < beVal m.src ∧ x.req.isNone then
      let s := setSub s sub { x with
        nextSeq := (x.nextSeq + 1) % 65536, req := some { seq := x.nextSeq, target := w, tries := 1 } }
      sendShed s sub msgReq 0 x.nextSeq w 0
    else s

/-- HELLO is received: the peer is an answering peer, with its floor and its healthy lanes, and is answered (R57, R76). -/
def receiveHello (s : State) (sub : Nat) (m : ShedMsg) : State :=
  let x := subAt s sub
  let s := setSub s sub { x with
    peerFloor := m.floor.toNat, peerHealthy := m.healthy.toNat
    answering := if x.answering = some false then some false else some true }
  let s := sendHello s sub
  if x.recUp then askRecovery s sub m
  else if x.answering = none then setSub s sub { subAt s sub with method := chooseMethod s sub }
  else s

/-- HELLO (R57). -/
def execHello (sub : SubNo) (m : ShedMsg) (s : State) : Host.Outcome State Fault Refusal :=
  if takesShed s sub.val then .next (receiveHello s sub.val m) else .next (ignoreShed s sub.val)

/-- HELLO_RETRY (R57): HELLO is sent again, four times at most, until one is received. -/
def execHelloRetry (sub : SubNo) (s : State) : Host.Outcome State Fault Refusal :=
  let x := subAt s sub.val
  if x.up && shedEnabled s sub.val && x.answering.isNone && decide (x.helloTries < 4) then
    .next (sendHello (setSub s sub.val { x with helloTries := x.helloTries + 1 }) sub.val)
  else .next s

/-- HELLO_TIMEOUT (R55, R57): the peer is non-answering until the next link-up. -/
def execHelloTimeout (sub : SubNo) (s : State) : Host.Outcome State Fault Refusal :=
  let x := subAt s sub.val
  if x.up && x.answering.isNone then
    let s := setSub s sub.val { x with answering := some false }
    .next (setSub s sub.val { subAt s sub.val with method := chooseMethod s sub.val })
  else .next s

/-- The answer to a REQ that stands: the reason of a NAK, or none for an ACK (R60, R61).  A subport held at a reduced width
does not shed (R76).  DESIGN CHOICE: a target below the floor is refused for that, reason 4, whatever the load; a subport
that sheds no more answers reason 1 (log 90). -/
def reqRefusal (s : State) (sub target : Nat) : Option Nat :=
  let x := subAt s sub
  if (widthsOf (fullOf s sub)).contains target = false then some 4
  else if x.stepTo.isSome ∨ x.switching ∨ x.shedSuspended ∨ x.method ≠ .shed then some 1
  else if target < x.width then
    if target < ownFloor s sub then some 4
    else if x.reduced.isSome then some 1
    else if shedField s sub 8 6 5 60 * 100 ≤ x.lastLoad then some 1 else none
  else if (logicalLanes s sub 0 target).any (fun l => (laneAt s l).failed) then some 2
  else none

/-- An ACK is sent and the step is under way: for a narrowing with SWITCH_US, for a widening the added lanes
are woken (R60, R61). -/
def acceptStep (s : State) (sub seq target : Nat) : State :=
  let x := subAt s sub
  let narrow := decide (target < x.width)
  let s := setSub s sub { x with
    stepTo := some target, stepSeq := seq, stepFrom := x.width, readySent := false, readyRcvd := false }
  let s := wakeRequest s .lane (addedLanes s sub target) false
  sendShed s sub msgAck 0 seq target (if narrow then shedField s sub 48 8 1 255 else 0)

/-- Our own REQ stands against one that crosses it (R62): a widening over a narrowing, else the lower source
address.  DESIGN CHOICE: of equal addresses neither is lower, so no own REQ stands and each end answers the other's
(log 90). -/
def ourReqStands (s : State) (sub : Nat) (m : ShedMsg) (r : ShedReq) : Bool :=
  let w := (subAt s sub).width
  let ours := decide (w < r.target)
  let theirs := decide (w < m.target.toNat)
  if ours != theirs then ours else decide (beVal (ownMac s sub) < beVal m.src)

/-- A REQ is received (R60-R62, R76). -/
def receiveReq (s : State) (sub : Nat) (m : ShedMsg) : State :=
  let x := subAt s sub
  let seq := m.seq.toNat
  if x.recUp then
    if (allowedWidths s sub).contains m.target.toNat && decide (m.target.toNat ≤ (bothHealthy s sub).length) then
      finishRecovery (sendShed s sub msgAck 0 seq m.target.toNat 0) sub m.target.toNat
    else noWidth (sendShed s sub msgNak 4 seq 0 0) sub
  else if (match x.req with
      | some r => ourReqStands s sub m r
      | none => false) then sendShed s sub msgNak 3 seq 0 0
  else
    let s := setSub s sub { x with req := none }
    match reqRefusal s sub m.target.toNat with
    | some reason => sendShed s sub msgNak reason seq 0 0
    | none => acceptStep s sub seq m.target.toNat

/-- REQ (R60). -/
def execReq (sub : SubNo) (m : ShedMsg) (s : State) : Host.Outcome State Fault Refusal :=
  if takesShed s sub.val then .next (receiveReq s sub.val m) else .next (ignoreShed s sub.val)

/-- An ACK of our REQ is received: the step is under way; on a recovery link both ends retrain. -/
def receiveAck (s : State) (sub : Nat) (m : ShedMsg) : State :=
  let x := subAt s sub
  match x.req with
  | none => s
  | some r =>
    if r.seq ≠ m.seq.toNat then s
    else if x.recUp then finishRecovery s sub r.target
    else setSub s sub { x with
      req := none, stepTo := some r.target, stepSeq := r.seq, stepFrom := x.width, readySent := false
      readyRcvd := false }

/-- ACK (R60). -/
def execAck (sub : SubNo) (m : ShedMsg) (s : State) : Host.Outcome State Fault Refusal :=
  if takesShed s sub.val then .next (receiveAck s sub.val m) else .next (ignoreShed s sub.val)

/-- A NAK of our REQ is received: the step is not taken, and lanes woken for it go back to sleep; a recovery ends without a
width. -/
def receiveNak (s : State) (sub : Nat) (m : ShedMsg) : State :=
  let x := subAt s sub
  match x.req with
  | none => s
  | some r =>
    if r.seq ≠ m.seq.toNat then s
    else if x.recUp then noWidth s sub
    else sleepLanes (setSub s sub { x with req := none }) (addedLanes s sub r.target)

/-- NAK (R62). -/
def execNak (sub : SubNo) (m : ShedMsg) (s : State) : Host.Outcome State Fault Refusal :=
  if takesShed s sub.val then .next (receiveNak s sub.val m) else .next (ignoreShed s sub.val)

/-- READY is received for the widening step (R61). -/
def receiveReady (s : State) (sub : Nat) (m : ShedMsg) : State :=
  let x := subAt s sub
  if x.stepTo.isSome && x.stepSeq == m.seq.toNat then setSub s sub { x with readyRcvd := true } else s

/-- READY (R61). -/
def execReady (sub : SubNo) (m : ShedMsg) (s : State) : Host.Outcome State Fault Refusal :=
  if takesShed s sub.val then .next (receiveReady s sub.val m) else .next (ignoreShed s sub.val)

/-- REQ_RETRY (R63): an unanswered REQ is sent again; after three the subport suspends shedding and posts
shed-peer-silent.  DESIGN CHOICE: the three are all the REQs sent, the first among them (log 90). -/
def execReqRetry (sub : SubNo) (s : State) : Host.Outcome State Fault Refusal :=
  let x := subAt s sub.val
  match x.req with
  | none => .next s
  | some r =>
    if r.tries < 3 then
      let s := setSub s sub.val { x with req := some { r with tries := r.tries + 1 } }
      .next (sendShed s sub.val msgReq 0 r.seq r.target 0)
    else
      let s := if x.recUp then s else sleepLanes s (addedLanes s sub.val r.target)
      let s := setSub s sub.val { x with req := none, shedSuspended := true }
      .next (postEvent s 0x01 5 (subOrigin s sub.val) (le 1 x.width))

/-- SHED_WINDOW_END (R59): the load of the window decides on a step. -/
def execShedWindowEnd (sub : SubNo) (s : State) : Host.Outcome State Fault Refusal :=
  let x := subAt s sub.val
  if x.up = false then .next (setSub s sub.val { x with shedNow := none })
  else
    let w := shedField s sub.val 0 7 1 100
    let load := x.winBytes * 80000 / max 1 (w * 1000 * subRate s sub.val)
    let low := decide (load < shedField s sub.val 8 6 5 60 * 100)
    let n := if low then x.narrowWindows + 1 else 0
    let widen := shedField s sub.val 24 7 40 95
    let dwell := shedField s sub.val 16 8 1 255
    let s := setSub s sub.val { x with lastLoad := load, winBytes := 0, narrowWindows := n, shedNow := none }
    if widen * 100 < load then .next (widenStep s sub.val)
    else if dwell ≤ n ∧ mayStep s sub.val = true ∧
        (widthsOf (fullOf s sub.val)).contains (x.width / 2) = true ∧ ownFloor s sub.val ≤ x.width / 2 then
      .next (requestStep (setSub s sub.val { subAt s sub.val with narrowWindows := 0 }) sub.val (x.width / 2))
    else .next s

/-- LANES_LOCKED (R61): the receive lanes of the target width are locked and adapted, and READY goes out. -/
def execLanesLocked (sub : SubNo) (s : State) : Host.Outcome State Fault Refusal :=
  let x := subAt s sub.val
  match x.stepTo with
  | none => .next s
  | some t =>
    if t ≤ x.width then .next s
    else
      let s := (addedLanes s sub.val t).foldl (fun s l =>
        if (blkAt s .lane l).st = .waking then blockReady s .lane l else s) s
      .next (sendShed (setSub s sub.val { subAt s sub.val with readySent := true }) sub.val msgReady 0 x.stepSeq t 0)

/-- SHED_SWITCH (R60, R61, R64): both ends stop beginning frames and restart at the target width, which is the
subport's width from here on, and no reduced one once its lanes allow a widening (R76). -/
def execShedSwitch (sub : SubNo) (s : State) : Host.Outcome State Fault Refusal :=
  let x := subAt s sub.val
  match x.stepTo with
  | none => .next s
  | some t =>
    if x.width < t ∧ (x.readySent && x.readyRcvd) = false then .next s
    else .next (setSub s sub.val { x with
      switching := true, width := t, recLanes := [], reduced := if x.width < t then none else x.reduced })

/-- ALIGNMENT_REGAINED (R60, R64): frames resume, released lanes go to sleep, shed-step is posted, and handshake frames that
waited are sent. -/
def execAlignmentRegained (sub : SubNo) (s : State) : Host.Outcome State Fault Refusal :=
  let x := subAt s sub.val
  if x.switching = false then .next s
  else
    let s := setSub s sub.val { x with
      switching := false, stepTo := none, readySent := false, readyRcvd := false, narrowWindows := 0
      winBytes := 0 }
    let s := sleepLanes s ((subLanes s sub.val).filter (fun l => !(usedLanes s sub.val).contains l))
    let s := count s 1 sub.val 30 1
    .next (flushShed (postEvent s 0x01 4 (subOrigin s sub.val) (le 1 x.stepFrom ++ le 1 x.width)) sub.val)

/-- The origin of a lane's events. -/
def laneOrigin (s : State) (lane : Nat) : Nat :=
  portOrigin s (lane / 8) (match laneSub s lane with
    | some n => n % 4
    | none => 0) (lane % 8)

/-- WIDEN_TIMEOUT (R61): the step is abandoned, its lanes return to sleep, a widen failure is counted, and
lane-fail is posted for each lane that did not lock. -/
def execWidenTimeout (sub : SubNo) (unlocked : List LaneNo) (s : State) : Host.Outcome State Fault Refusal :=
  let x := subAt s sub.val
  match x.stepTo with
  | none => .next s
  | some t =>
    if t ≤ x.width ∨ (x.readySent && x.readyRcvd) = true then .next s
    else
      let ls := addedLanes s sub.val t
      let s := setSub s sub.val { x with stepTo := none, readySent := false, readyRcvd := false }
      let s := count (sleepLanes s ls) 1 sub.val 31 1
      .next ((unlocked.filter (fun l => ls.contains l.val)).foldl (fun s l =>
        postEvent s 0x01 6 (laneOrigin s l.val) (le 1 2)) s)

/-! Lane failures (R75-R77). -/

/-- The width that a non-answering peer leaves: the widest whose logical lanes have not failed with the identity map, by
which logical lane i is the i-th lane of the subport; 0 for none (R77). -/
def reducedWidth (s : State) (sub : Nat) : Nat :=
  ((allowedWidths s sub).find? (fun w => ((subLanes s sub).take w).all (fun l => !(laneAt s l).failed))).getD 0

/-- A subport is held at the width that its failed lanes leave it, or at none when no lane of it has failed (R75, R77). -/
def holdReduced (s : State) (sub : Nat) : State :=
  if (subLanes s sub).all (fun l => !(laneAt s l).failed) then setSub s sub { subAt s sub with reduced := none, recLanes := [] }
  else
    let w := reducedWidth s sub
    setSub s sub { subAt s sub with reduced := some w, recLanes := (subLanes s sub).take w }

/-- Both ends try the next lane in ascending order (R76).  DESIGN CHOICE: after the last lane the lowest is tried again
(log 89). -/
def nextTrial (s : State) (sub l : Nat) : State :=
  let ls := subLanes s sub
  setSub s sub { subAt s sub with recUp := false, recovery := (ls.find? (fun m => decide (l < m))).or ls.head? }

/-- A lane of a subport has failed: with an answering peer the link goes down and recovers from its lowest lane on (R76), else
it retrains at what width is left (R77).  A trial on the lane itself is abandoned. -/
def loseLane (s : State) (sub lane : Nat) : State :=
  let ans := answers s sub
  let s := linkDown s sub
  let x := subAt s sub
  if x.recovery.isSome then (if x.recUp ∧ x.recovery = some lane then nextTrial s sub lane else s)
  else if ans && !x.adminDown then startRecovery s sub
  else holdReduced s sub

/-- A recalibration of a lane that fails meanwhile ends with ERROR detail 5 (R580). -/
def endRecal (s : State) (lane : Nat) : State :=
  match s.ft.recals.find? (fun r => r.port * 8 + r.lane == lane) with
  | some r => finish (s.withFt { s.ft with recals := s.ft.recals.filter (fun x => x.port * 8 + x.lane != lane) }) r.aseq (err 5)
  | none => s

/-- A lane fails (R75): it is marked, lane-fail is posted, its subport recovers or retrains without it (R76, R77), and it
sleeps.  No cause of R79 names a lane that software retires: what the event gives then is open (R78; log 6). -/
def failLane (s : State) (lane : Nat) (cause : Option Nat) : State :=
  if (laneAt s lane).failed then s
  else
    let s := endRecal (setLane s lane { laneAt s lane with failed := true, overWindows := 0 }) lane
    let (c, s) := match cause with
      | some c => (c, s)
      | none => ((draw s).1.toNat % 256, (draw s).2)
    let s := postEvent s 0x01 6 (laneOrigin s lane) (le 1 c)
    let s := match laneSub s lane with
      | some sub => loseLane s sub lane
      | none => s
    sleepLanes s [lane]

/-- LANE_FAIL (R75): the receiver has lost lock for more than 1 ms. -/
def execLaneFail (lane : LaneNo) (s : State) : Host.Outcome State Fault Refusal := .next (failLane s lane.val (some 0))

/-- LANE_SER_WINDOW_END (R42, R75, R653): the corrected symbols of a 1-ms window; three windows over the limit
fail the lane. -/
def execLaneSerWindowEnd (lane : LaneNo) (symbols : Nat) (s : State) : Host.Outcome State Fault Refusal :=
  let s := count s 2 lane.val 0 symbols
  let x := laneAt s lane.val
  let limit := (getAt none s.ports.serNow lane.val).getD (regVal s .laneSerLimit 0)
  let n := if max 1 limit < symbols then x.overWindows + 1 else 0
  let s := s.withPorts { s.ports with serNow := setAt none s.ports.serNow lane.val none }
  let s := setLane s lane.val { x with overWindows := n }
  if 3 ≤ n ∧ x.failed = false then .next (failLane s lane.val (some 1)) else .next s

/-- RECOVERY_TRIAL_TIMEOUT (R76): the trial is abandoned, and both ends try the next lane. -/
def execRecoveryTrialTimeout (sub : SubNo) (s : State) : Host.Outcome State Fault Refusal :=
  match (subAt s sub.val).recovery with
  | some l => if (subAt s sub.val).recUp then .next s else .next (nextTrial s sub.val l)
  | none => .next s

/-! What the MAC receives (R41-R43, R45, R58). -/

/-- A shed handshake frame of R56 by its bytes. -/
def shedMsg (bs : Bytes) : ShedMsg :=
  { src := cut bs 6 6, seq := BitVec.ofNat 16 (beAt bs 22 2), width := byteAt bs 24, target := byteAt bs 25
    healthy := byteAt bs 26, floor := byteAt bs 27, reason := byteAt bs 21, delay := BitVec.ofNat 8 (beAt bs 28 2) }

/-- A shed handshake frame is received (R56, R58). -/
def receiveShed (s : State) (sub : Nat) (bs : Bytes) : State :=
  let m := shedMsg bs
  if takesShed s sub = false then ignoreShed s sub
  else match (byteAt bs 20).toNat with
    | 0 => receiveHello s sub m
    | 1 => receiveReq s sub m
    | 2 => receiveAck s sub m
    | 3 => receiveNak s sub m
    | 4 => receiveReady s sub m
    | _ => ignoreShed s sub

/-- A frame is a shed handshake frame: EtherType, OUI and subtype of R58. -/
def isShedFrame (s : State) (bs : Bytes) : Bool :=
  cut bs 12 2 == [0x88, 0xB7] && cut bs 14 3 == be 3 (regField s .vendorOui 0 0 24) && cut bs 17 2 == [0, 1]

/-- A frame is a MAC control frame of R45. -/
def isMacControl (s : State) (sub : Nat) (bs : Bytes) : Bool :=
  cut bs 12 2 == [0x88, 0x08] && (cut bs 0 6 == [0x01, 0x80, 0xC2, 0x00, 0x00, 0x01] || cut bs 0 6 == ownMac s sub)

/-- A received frame of a subport whose link is up. -/
def receiveFrame (s : State) (sub : Nat) (bytes : Bytes) (fcsOk whole : Bool) : State :=
  let n := bytes.length + 4
  let s := count (count (endRx s sub) 1 sub 0 1) 1 sub 1 n
  if n < 64 then count s 1 sub 5 1
  else if 10240 < n then count s 1 sub 6 1
  else if whole && !fcsOk then dropBadFcs s sub bytes
  else if isMacControl s sub bytes then receivePause s sub (beAt bytes 14 2) (bytes.drop 16)
  else if isShedFrame s bytes then receiveShed s sub bytes
  else acceptFrame s sub bytes whole

/-- FRAME_ARRIVAL (R42, R43, R112): a frame from its destination address to before its FCS, whether its FCS is
right and its end known, and the corrected symbols of the codewords that carried it.  On a recovery link
only handshake frames count (R76); a bond subport takes frames only in cells (R532). -/
def execFrameArrival (sub : SubNo) (bytes : Bytes) (fcsOk whole : Bool) (cws : List (BitVec 4)) (s : State) :
    Host.Outcome State Fault Refusal :=
  let x := subAt s sub.val
  if !x.up && !x.recUp then .next s
  else
    let s := countCodewords s sub.val cws
    if isBond s (sub.val / 4) then .next s
    else if x.up then .next (receiveFrame s sub.val bytes fcsOk whole)
    else if isShedFrame s bytes then .next (receiveShed s sub.val bytes)
    else .next s

/-- UNCORRECTABLE_CODEWORD (R41, R42): the frame it overlaps is dropped and counted as an FCS error, or if it
cuts through it is stomped. -/
def execUncorrectableCodeword (sub : SubNo) (s : State) : Host.Outcome State Fault Refusal :=
  let s := count s 1 sub.val 11 1
  match (subAt s sub.val).rxFrame with
  | none => .next s
  | some fid =>
    let s := match frameAt s fid with
      | some f => if f.stage = .head then countHead s f.slice sub.val f.bytes else s
      | none => s
    let r := abandonFrame (setSub s sub.val { subAt s sub.val with rxFrame := none, rxLate := none }) fid
    if r.2 then .next r.1 else .next (count r.1 1 sub.val 4 1)

/-! Port commands (R78). -/

/-- A LANE_MAP names every physical lane once (R38). -/
def laneMapOk (m : Nat) : Bool :=
  (List.range 8).all (fun p => (List.range 8).any (fun i => bits m (3 * i) 3 == p)) && decide (m < 2 ^ 24)

/-- The ports on which BOND would be in force after PORT_MODE of a port. -/
def bondsWith (s : State) (port : Nat) : Nat :=
  (s.ports.bond.filter (fun e => e.1 != port)).length + regField s .bondCfg port 0 1

/-- PORT_MODE takes effect (R39, R532): subports down and flushed, mode, lane map and BOND in force; lanes that the mode
does not use go to sleep (R35), and the port trains, its failed lanes still unused (R75).  DESIGN CHOICE: a subport that
SUBPORT_ADMIN had taken down trains too (log 88). -/
def applyMode (s : State) (port mode laneMap : Nat) : State :=
  let s := (upFrom (port * 4) 4).foldl (fun s n => if subExists s n then adminDown s n else s) s
  let s := setRegField (setRegField s .portCfg port 0 3 mode) .portCfg port 8 24 laneMap
  let s := s.withPorts { s.ports with
    bond := setAt false s.ports.bond port (regField s .bondCfg port 0 1 == 1) }
  let s := (upFrom (port * 4) 4).foldl (fun s n =>
    holdReduced (setSub s n { subAt s n with forced := none, adminDown := false, answering := none }) n) s
  let s := sleepLanes s ((upFrom (port * 8) 8).filter (laneHeld s))
  if regField s .portCfg port 3 1 = 1 then wakePort s port (portWakes s port) else s

/-- PORT_MODE (R38, R39, R532). -/
def execPortMode (c : Cmd) (port : BitVec 16) (mode : BitVec 8) (laneMap : BitVec 32) (s : State) :
    Host.Outcome State Fault Refusal :=
  runCommand c 0x0101 (fun _ s =>
    if 96 ≤ port.toNat ∨ 7 ≤ mode.toNat ∨ laneMapOk laneMap.toNat = false then .done (err 2) s
    else if 16 < bondsWith s port.toNat then .done (err 5) s
    else .done {} (applyMode s port.toNat mode.toNat laneMap.toNat)) s

/-- SUBPORT_ADMIN (R74): 1 up, 0 down. -/
def execSubportAdmin (c : Cmd) (sub : BitVec 16) (dir : BitVec 8) (s : State) :
    Host.Outcome State Fault Refusal :=
  runCommand c 0x0102 (fun _ s =>
    if 384 ≤ sub.toNat ∨ 1 < dir.toNat then .done (err 2) s
    else if subExists s sub.toNat = false then .done (err 2) s
    else if dir.toNat = 1 then
      let s := setSub s sub.toNat { subAt s sub.toNat with adminDown := false }
      .done {} (wakePort s (sub.toNat / 4) (subLanes s sub.toNat))
    else
      let s := adminDown s sub.toNat
      .done {} (setSub s sub.toNat { subAt s sub.toNat with adminDown := true })) s

/-- SHED_CTRL (R54, R63, R78): enables or suspends shedding; a forced width, 0 for none, retrains the link.  It is a width
that SHED_FLOOR allows. -/
def execShedCtrl (c : Cmd) (sub : BitVec 16) (enable width : BitVec 8) (s : State) :
    Host.Outcome State Fault Refusal :=
  runCommand c 0x0103 (fun _ s =>
    if 384 ≤ sub.toNat ∨ 1 < enable.toNat ∨ subExists s sub.toNat = false then .done (err 2) s
    else if width ≠ 0 ∧ (allowedWidths s sub.toNat).contains width.toNat = false then .done (err 2) s
    else
      let s := setSub s sub.toNat { subAt s sub.toNat with shedOff := enable == 0 }
      if width = 0 then
        .done {} (if (subAt s sub.toNat).up then
          setSub s sub.toNat { subAt s sub.toNat with method := chooseMethod s sub.toNat } else s)
      else
        let s := linkDown s sub.toNat
        .done {} (setSub s sub.toNat { subAt s sub.toNat with
          forced := some width.toNat, shedSuspended := false })) s

/-- A lane is restored: it is healthy, and a subport with all its lanes healthy is no longer held at a reduced
width; one that had no width left trains at what the restored lane allows (R76, R77, R78). -/
def restoreLane (s : State) (lane : Nat) : State :=
  let s := setLane s lane { laneAt s lane with failed := false, overWindows := 0 }
  match laneSub s lane with
  | some sub =>
    if (subLanes s sub).all (fun l => !(laneAt s l).failed) then setSub s sub { subAt s sub with reduced := none }
    else if (subAt s sub).reduced = some 0 then holdReduced s sub
    else s
  | none => s

/-- LANE_SET (R78): 0 retire, 1 restore. -/
def execLaneSet (c : Cmd) (port : BitVec 16) (lane op : BitVec 8) (s : State) :
    Host.Outcome State Fault Refusal :=
  runCommand c 0x0104 (fun _ s =>
    if 96 ≤ port.toNat ∨ 8 ≤ lane.toNat ∨ 1 < op.toNat then .done (err 2) s
    else if op = 0 then .done {} (failLane s (port.toNat * 8 + lane.toNat) none)
    else .done {} (restoreLane s (port.toNat * 8 + lane.toNat))) s

/-- The code of a low-power method, as LP_METHOD has it (R44). -/
def lpCode : LpMethod → Nat
  | .none => 0
  | .shed => 1
  | .eee => 2

/-- PORT_STATUS (R78): each field for every subport of the port's mode. -/
def execPortStatus (c : Cmd) (port : BitVec 16) (s : State) : Host.Outcome State Fault Refusal :=
  runCommand c 0x0105 (fun _ s =>
    if 96 ≤ port.toNat then .done (err 2) s
    else
      let ns := upFrom (port.toNat * 4) (subCount (portMode s port.toNat))
      let block := ns.map (fun n => BitVec.ofNat 8 (flag (subAt s n).up)) ++
        ns.map (fun n => BitVec.ofNat 8 (subAt s n).width) ++
        ns.map (fun n => BitVec.ofNat 8 (lpCode (subAt s n).method)) ++
        ns.map (fun n => BitVec.ofNat 8 (healthyMask s n))
      .done { block := block } s) s

/-- ENABLE of PORT_CFG has changed (R36, R74): an enabled port trains, a disabled port's subports go down. -/
def portEnabled (s : State) (port : Nat) (on : Bool) : State :=
  let ns := (upFrom (port * 4) 4).filter (subExists s)
  if on then wakePort s port (portWakes s port)
  else sleepLanes (ns.foldl adminDown s) (upFrom (port * 8) 8)

end Sys2Proof.Machine
end

