-- ==== Sys2Proof/Machine/Ddr.lean ====
section
/-! DEFINITION. The LPDDR6 controller's addresses and accesses: channels, subchannels and banks (R496, R497, R501),
commands and errors (R502, R512, R614), and panic (R500). -/

namespace Sys2Proof.Machine

/-- The density of a channel in GiB (R495, R510). -/
def channelGib (s : State) : Nat := 4 * 2 ^ regField s .ddrCfg 0 0 3

/-- The channel of an LPDDR6 address (R497). -/
def ddrChannel (a : Nat) : Nat := bits a 8 5 ^^^ bits a 13 5 ^^^ bits a 18 5

/-- The subchannel of an LPDDR6 address (R497). -/
def ddrSub (a : Nat) : Nat := bits a 7 1

/-- The byte address within a channel (R497). -/
def ddrChanAddr (a : Nat) : Nat := 2 ^ 8 * (a / 2 ^ 13) + a % 2 ^ 8

/-- The address of granule `g` of a channel: the granules of a channel rise with their addresses (R497). -/
def ddrGranule (ch g : Nat) : Nat := 2 ^ 13 * g + 2 ^ 8 * (ch ^^^ bits g 0 5 ^^^ bits g 5 5)

/-- A channel. -/
def ddrCh (s : State) (n : Nat) : DdrCh := getAt {} s.ddr.ch n

/-- Writes a channel. -/
def setDdrCh (s : State) (n : Nat) (x : DdrCh) : State := s.withDdr { s.ddr with ch := setAt {} s.ddr.ch n x }

/-- Channel `c` has given up the granule of an address: it is retired, or its evacuation has redirected that granule (R508). -/
def gaveUp (s : State) (c a : Nat) : Bool :=
  let x := ddrCh s c
  match x.st with
  | .retired => x.band != 0
  | .evacuating => decide (a / 2 ^ 13 < x.evacuated)
  | _ => false

/-- Where a granule stands that channel `c` held at `p`, as a channel and an address of its place: one that the channel has
given up stands in its band, on a channel that is neither it nor retired before it (their bands lie higher); which one the
spec leaves open (R497, R508; log 74). -/
def granulePlace (s : State) (a : Nat) : Nat → Nat → Nat → Nat × Nat
  | 0, c, p => (c, p)
  | n + 1, c, p =>
    if gaveUp s c a then
      let b := (ddrCh s c).band
      let free := (List.range 32).filter (fun d => (ddrCh s d).band == 0 || decide ((ddrCh s d).band < b))
      granulePlace s a n (free.getD (Config.evacTarget (a / 256) c % free.length) c) b
    else (c, p)

/-- The channel that serves an address: that of R497, or where its granule has been redirected (R508). -/
def servingChannel (s : State) (a : Nat) : Nat := (granulePlace s a 5 (ddrChannel a) a).1

/-- The number of a bank among all: the placement within a channel is left open (log 6). -/
def bankKey (s : State) (a : Nat) : Nat :=
  65536 * (servingChannel s a * 2 + ddrSub a) + Config.ddrBank (ddrChanAddr a) % 65536

/-- Commands of one access that the work of a plane has caused, 0 data or 1 control: one for each 32 B, counted by channel, and
the row of the bank stays open (R495, R501, R614, R615). -/
def ddrCommandsBy (s : State) (plane a n : Nat) : State :=
  let first := a / 256
  let parts := (upFrom first ((a + n + 255) / 256 - first)).map (fun g => (max a (256 * g), min (a + n) (256 * g + 256)))
  parts.foldl (fun s p =>
    let s := countPmc s { code := 0x09, block := 24, unit := some (servingChannel s p.1), plane := plane, addr := some p.1 }
      ((p.2 + 31) / 32 - p.1 / 32)
    s.withDdr { s.ddr with rows := setAt none s.ddr.rows (bankKey s p.1) (some (Config.ddrRow (ddrChanAddr p.1))) }) s

/-- Commands of one access of the data plane. -/
def ddrCommands (s : State) (a n : Nat) : State := ddrCommandsBy s 0 a n

/-- The origin of an LPDDR6 event: block 24, channel, subchannel (R512). -/
def ddrOrigin (s : State) (ch sub : Nat) : Nat := origin s 24 ch sub 0

/-- How a read ended: corrected errors are counted by subchannel and in the channel's window, and an uncorrectable one is
counted and posted with the client's rank (R498, R502, R503). -/
def ddrError (s : State) (a : Nat) (r : ReadOutcome) (rank : Nat) : State :=
  let c := servingChannel s a
  match r with
  | .clean => s
  | .corrected => setDdrCh (count s 15 c (ddrSub a) 1) c { ddrCh s c with window := (ddrCh s c).window + 1 }
  | .uncorrectable =>
    postEvent (count s 15 c (2 + ddrSub a) 1) 0x0C 4 (ddrOrigin s c (ddrSub a)) (le 8 a ++ le 1 rank)

/-- A read of some bytes by a client, with its outcome: of the control plane for DMA, of the data plane for the others (R17). -/
def ddrRead (s : State) (a n : Nat) (r : ReadOutcome) (rank : Nat) : State :=
  ddrError (ddrCommandsBy s (if rank = 5 then 1 else 0) a n) a r rank

/-- A read by an engine, for a task of a plane (R18, R498). -/
def ddrReadTask (s : State) (plane a n : Nat) (r : ReadOutcome) : State := ddrError (ddrCommandsBy s plane a n) a r 3

/-! Poison marks of granules of 32 B (R502). -/

/-- A range covers a poisoned granule, in part or whole. -/
def poisonedIn (ps : List Nat) (a n : Nat) : Bool := ps.any (fun g => decide (g * 32 < a + n) && decide (a < g * 32 + 32))

/-- The marks after a range is written: granules written whole lose theirs. -/
def poisonClear (ps : List Nat) (a n : Nat) : List Nat :=
  ps.filter (fun g => !(decide (a ≤ g * 32) && decide (g * 32 + 32 ≤ a + n)))

/-- The marks after a range is written poisoned. -/
def poisonSet (ps : List Nat) (a n : Nat) : List Nat :=
  (upFrom (a / 32) ((a + n + 31) / 32 - a / 32)).foldl (fun ps g => if ps.contains g then ps else ps ++ [g]) ps

/-- A write of some bytes: its commands, and granules written whole lose their poison (R502). -/
def ddrWrite (s : State) (a n : Nat) : State :=
  let s := ddrCommands s a n
  s.withDdr { s.ddr with poison := poisonClear s.ddr.poison a n }

/-- A read gives poisoned data: it is uncorrectable, or meets a poison mark (R502). -/
def readsBad (s : State) (a n : Nat) (r : ReadOutcome) : Bool := r == .uncorrectable || poisonedIn s.ddr.poison a n

/-- The address of a cold record (R189). -/
def coldAddr (s : State) (c : Nat) : Nat := 2 ^ 30 * s.fs.tbBase + 256 * c

/-- The address of a directory bucket (R189, R191). -/
def dirAddr (s : State) (b : Nat) : Nat := 2 ^ 30 * (s.fs.tbBase + s.fs.tbSize) + 64 * b

/-- The fetch-port requests that the controller holds: two directory reads, or a cold-record read, of each fetch (R193). -/
def fetchRequests (s : State) : Nat :=
  (s.fs.fetches.map (fun f => if f.directory = false then 2 else flag (f.cold.isNone && f.slot.isNone))).foldl (· + ·) 0

/-- Panic is raised at PANIC_LEVEL and lowered below its half (R500). -/
def updatePanic (s : State) : State :=
  let level := max 1 (regField s .ddrQosCfg 0 0 12)
  let n := fetchRequests s
  if s.ddr.panic then
    if 2 * n < level then s.withDdr { s.ddr with panic := false } else s
  else if level ≤ n then
    (List.range 32).foldl (fun s c => count s 15 c 4 1) (s.withDdr { s.ddr with panic := true })
  else s

end Sys2Proof.Machine
end

