-- ==== Sys2Proof/Machine/Piers.lean ====
section
/-! DEFINITION. Occupancy of the tiers of the flow store and the start and stop of demotion (R158, R188, R189, R195, R198,
R210, R507). -/

namespace Sys2Proof.Machine

/-- Local slots of a pier (R154, R158). -/
def pierSlots (s : State) : Nat := if s.fs.half then 2 ^ 22 else 2 ^ 23

/-- Cold slots (R189). -/
def coldSlots (s : State) : Nat := 2 ^ 22 * s.fs.tbSize

/-- A pier's bookkeeping. -/
def pierAt (s : State) (p : Nat) : Pier := getAt {} s.fs.piers p

/-- Writes a pier's bookkeeping. -/
def setPier (s : State) (p : Nat) (x : Pier) : State :=
  s.withFs { s.fs with piers := setAt {} s.fs.piers p x }

/-- Free slots of a pier; FS_FORMAT builds the lists (R188). -/
def pierFree (s : State) (p : Nat) : Nat :=
  if s.fs.formatted then pierSlots s - (pierAt s p).fresh + (pierAt s p).freed.length else 0

/-- Slots of a pier in use. -/
def pierUsed (s : State) (p : Nat) : Nat := (pierAt s p).fresh - (pierAt s p).freed.length

/-- The occupancy of tier A. -/
def occupancy (s : State) : Nat := ((List.range 4).map (pierUsed s)).foldl (· + ·) 0

/-- The cold slots below the bands that channel retirements have taken (R507). -/
def coldLimit (s : State) : Nat := coldSlots s - 2 ^ 22 * (s.ddr.bands * channelGib s)

/-- Cold slots in use. -/
def coldUsed (s : State) : Nat := s.fs.coldNext - s.fs.coldFree.length

/-- A cold slot is free (R195, R508). -/
def coldReady (s : State) : Bool :=
  decide (s.fs.coldNext < coldLimit s) || s.fs.coldFree.any (fun c => decide (c < coldLimit s))

/-- Tier B has no free cold slot left, so demotion stops (R195). -/
def coldSpent (s : State) : Bool := s.fs.tbSize != 0 && !coldReady s

/-- The low watermark in records. -/
def lowMark (s : State) : Nat := min (regField s .fsWatermark 0 16 16) (regField s .fsWatermark 0 0 16) * 1024

/-- Demotion starts above the high watermark, and stops at or below the low one or when no cold slot is free, with an event
(R195, R198, R210). -/
def checkWatermarks (s : State) : State :=
  let n := occupancy s
  if s.fs.demoting then
    if n ≤ lowMark s || coldSpent s then
      postEvent (s.withFs { s.fs with demoting := false }) 0x05 7 (origin s 31 0 0 0) (le 8 n)
    else s
  else if regField s .fsWatermark 0 0 16 * 1024 < n && !coldSpent s then
    postEvent (s.withFs { s.fs with demoting := true }) 0x05 6 (origin s 31 0 0 0) (le 8 n)
  else s

/-- No cold slot is free: tier-B-full is posted, once until one is free again, and demotion stops (R195). -/
def coldFull (s : State) : State :=
  if s.fs.coldFullPosted then s
  else checkWatermarks (postEvent (s.withFs { s.fs with coldFullPosted := true }) 0x05 8 (origin s 31 0 0 0)
    (le 8 (coldUsed s)))

end Sys2Proof.Machine
end

