-- ==== Sys2Proof/Machine/Rings.lean ====
section
/-! DEFINITION. Rings, doorbells and the command processor's face toward software (R437-R457). -/

namespace Sys2Proof.Machine

/-- A host port exists: H1 is absent when STRAP_HOST_MODE is 1 or 2 (R431). -/
def hostPresent (s : State) (h : Nat) : Bool := h == 0 || !(s.boot.hostMode == 1 || s.boot.hostMode == 2)

/-- The index that software moves may go forward from `old` to `new` (R441). -/
def forward (old new : Nat) : Bool := decide (wrapSub 32 new old < 2 ^ 31)

/-- A doorbell in chain mode sets the pending bit; an idle tail's chain word is then read again, which
clears the bit as it is issued (R454, R455). -/
def chainDoorbell (s : State) (h page : Nat) : State :=
  let r := ringAt s h page
  if r.chainTail && !r.chainReading then
    setRing s h page { r with chainPending := false, chainReading := true }
  else setRing s h page { r with chainPending := true }

/-- Software's index of a ring: P, or Q of a PUNT ring, where software produces, else C. -/
def softIdx (page : Nat) (r : Ring) : Nat :=
  if ringType page = 0 ∨ ringType page = 3 ∨ ringType page = 4 then r.prod else r.cons

/-- The doorbell value keeps both rules of R441: forward, and a difference of at most N. -/
def doorbellValid (s : State) (h page v : Nat) : Bool :=
  let r := ringAt s h page
  forward (softIdx page r) v &&
    decide ((if ringType page = 0 ∨ ringType page = 3 ∨ ringType page = 4
      then wrapSub 32 v r.cons else wrapSub 32 r.prod v) ≤ ringN s h page)

/-- A doorbell write of 4 B at offset 0 of a page (R441). -/
def doorbell (s : State) (h page v : Nat) : State :=
  let r := ringAt s h page
  if ringRuns s h page = false then countReserved s h 1
  else if ringChain s h page then chainDoorbell s h page
  else if doorbellValid s h page v = false then ringError s h page 2
  else if ringType page = 0 ∨ ringType page = 3 ∨ ringType page = 4 then
    setRing s h page { r with prod := v }
  else setRing s h page { r with cons := v }

/-- DOORBELL (R441): any other write to a doorbell page is discarded and counted as reserved. -/
def execDoorbell (host : HostNo) (page : Fin 184) (off : BitVec 12) (size : Nat) (v : BitVec 32)
    (s : State) : Host.Outcome State Fault Refusal :=
  if hostPresent s host.val = false then .next s
  else if off ≠ 0 ∨ size ≠ 4 then .next (countReserved s host.val 1)
  else .next (doorbell s host.val page.val v.toNat)

/-- Starts a ring: both indexes at 0, no stop cause, in chain mode at the first descriptor (R439,
R440, R444). -/
def startRing (s : State) (h page : Nat) : State :=
  let r := ringAt s h page
  setRing s h page { r with
    st := .running, cause := 0, prod := 0, cons := 0, unsignalled := 0
    chainAddr := regVal s .ringBase (ringNo h page), chainTail := false, chainReading := false
    chainPending := false }

/-- ENABLE of a ring is cleared: a running ring stops with the cause, and the ring shows DISABLED with
the cause of its last stop (R444). -/
def disableRing (s : State) (h page cause : Nat) : State :=
  let s := if ringRuns s h page then stopRing s h page cause else s
  setRing s h page { ringAt s h page with st := .disabled }

/-- A write of RING_CFG by a master (R440): only through its own host port; while ENABLE is 1 only a
write that clears it. -/
def writeRingCfg (s : State) (m h page v : Nat) : State :=
  if m ≠ h then countReserved s m 1
  else if ringEnabled s h page then
    if bit v 4 then countReserved s m 1
    else disableRing (setReg s .ringCfg (ringNo h page) v) h page 1
  else
    let s := setReg s .ringCfg (ringNo h page) v
    if bit v 4 then startRing s h page else s

/-- A write of RING_BASE or RING_WB by a master (R440). -/
def writeRingAddr (s : State) (m : Nat) (r : Reg) (h page v : Nat) : State :=
  if m ≠ h ∨ ringEnabled s h page then countReserved s m 1
  else setReg s r (ringNo h page) (v / 2 ^ (if r = .ringBase then 12 else 3) *
    2 ^ (if r = .ringBase then 12 else 3))

/-- The low half that a master has written and that waits for its high half: the register's offset and the half. -/
def heldHalf (s : State) (m : Nat) : Option (Nat × BitVec 32) := getAt none s.regs.held m

/-- Holds a low half for a master, or drops what is held. -/
def setHeld (s : State) (m : Nat) (v : Option (Nat × BitVec 32)) : State :=
  s.withRegs { s.regs with held := setAt none s.regs.held m v }

/-- A held half is dropped at the master's next write to any other offset (R644). -/
def dropOther (s : State) (m off : Nat) : State :=
  match heldHalf s m with
  | some (o, _) => if off = o ∨ off = o + 4 then s else setHeld s m none
  | none => s

/-- A write reaches a register of the file after READY; before, it is discarded and counted as a
reserved write (R633).  Every access is a performance event (R614), and drops what the master holds for another offset
(R644). -/
def regAccess (s : State) (m addr : Nat) (f : State → State) : State :=
  let s := dropOther s m addr
  if s.boot.phase ≠ .ready then countReserved s m 1
  else f (countPmc s { code := 0x0E, block := masterBlock m, plane := 1, master := some m, addr := some addr } 1)

/-- RING_ENABLE (R439, R440). -/
def execRingEnable (m : Master) (host : HostNo) (page : Fin 184) (v : BitVec 32) (s : State) :
    Host.Outcome State Fault Refusal :=
  if hostPresent s host.val = false then .next s
  else .next (regAccess s m.val (Reg.off .ringCfg (ringNo host.val page.val))
    (fun s => writeRingCfg s m.val host.val page.val (v ||| 0x10).toNat))

/-- RING_DISABLE (R444). -/
def execRingDisable (m : Master) (host : HostNo) (page : Fin 184) (v : BitVec 32) (s : State) :
    Host.Outcome State Fault Refusal :=
  if hostPresent s host.val = false then .next s
  else .next (regAccess s m.val (Reg.off .ringCfg (ringNo host.val page.val))
    (fun s => writeRingCfg s m.val host.val page.val (v &&& 0xffffffef).toNat))

/-- What a chain word does to a ring once its descriptor is consumed or a re-read returns (R455, R456):
END 0 leads on to the next descriptor; END 1 reads again at once when the pending bit is set, else the
ring is idle at its tail.  A next address off its 64-B boundary is BAD_CHAIN (R444, R457). -/
def chainStep (s : State) (h page word : Nat) : State :=
  let r := ringAt s h page
  if bit word 0 = false then
    if bits word 1 5 ≠ 0 then ringError s h page 5
    else setRing s h page { r with
      chainAddr := word / 64 * 64, chainTail := false, chainReading := false }
  else if r.chainPending then
    setRing s h page { r with chainTail := true, chainPending := false, chainReading := true }
  else setRing s h page { r with chainTail := true, chainReading := false }

/-- A descriptor fetch in chain mode is issued: if its chain word turns out to be a tail's, the issue
has cleared the pending bit (R455). -/
def chainFetched (s : State) (h page word : Nat) : State :=
  let r := ringAt s h page
  if ringChain s h page then
    chainStep (setRing s h page { r with chainPending := false }) h page word
  else s

/-- A chain-word read of a ring returns (R455); a failed read is READ_ERROR (R444). -/
def ringChainReturn (s : State) (h page word : Nat) (ok : Bool) : State :=
  if ringRuns s h page && ringChain s h page && (ringAt s h page).chainReading then
    if ok then chainStep s h page word else ringError s h page 3
  else s

/-- The opcodes of the command groups (R452): every other opcode completes with ERROR detail 1. -/
def knownOp (op : Nat) : Bool :=
  let n := op % 256
  let last := match op / 256 with
    | 0x01 => 5 | 0x02 => 4 | 0x05 => 5 | 0x06 => 5 | 0x07 => 6 | 0x08 => 12 | 0x09 => 4
    | 0x0A => 6 | 0x0B => 3 | 0x0C => 5 | 0x0D => 5 | 0x0E => 8 | 0x0F => 7 | 0x10 => 7
    | 0x11 => 5 | 0x12 => 3 | _ => 0
  decide (1 ≤ n) && decide (n ≤ last)

/-- The command processor accepts a descriptor, or completes it at once when its opcode is unknown. -/
def acceptDesc (s : State) (src : Source) (desc : Bytes) (tag : Nat) : State × Option Accepted :=
  let flags := leAt desc 2 1
  match accept s src (leAt desc 0 2) (leAt desc 8 4) (leAt desc 3 1) (bit flags 1) (bit flags 2)
      (leAt desc 24 8) tag (leAt desc 4 2) true with
  | (s, some a) => if knownOp a.opcode then (s, some a) else (completeCmd s a (err 1), none)
  | (s, none) => (s, none)

/-- COMMAND_ACCEPT (R447): the processor fetches the next descriptor of a source and accepts it.  It
fetches nothing from a CMD ring that does not run, is empty or idle at a tail, nor while the completion
ring that the descriptor names has no free slot. -/
def execCommandAccept (src : Source) (desc : Bytes) (ok : Bool) (s : State) :
    Host.Outcome State Fault Refusal :=
  if s.boot.phase ≠ .ready then .next s
  else match src with
    | .cmdRing h ring =>
      let r := ringAt s h.val ring.val
      let chain := ringChain s h.val ring.val
      if ringRuns s h.val ring.val = false ∨ (chain = true ∧ (r.chainTail ∨ r.chainReading)) ∨
          (chain = false ∧ ringUsed r = 0) then .next s
      else if ok = false then .next (ringError s h.val ring.val 3)
      else if leAt desc 3 1 < 64 ∧ (cplRoom s src (leAt desc 3 1) = false ∨
          (s.own.owner = some h.val ∧ 1024 ≤ s.host.accepted.length)) then .next s
      else
        let s' := (acceptDesc s src desc 0).1
        .next (if ringRuns s' h.val ring.val then chainFetched s' h.val ring.val (leAt desc 16 8) else s')
    | .mailbox =>
      match s.host.mailbox with
      | some d =>
        if s.host.accepted.any (fun a => a.src == .mailbox) then .next s
        else .next (acceptDesc s .mailbox d 0).1
      | none => .next s
    | .relay => .next (acceptDesc s .relay desc 0).1

/-- INTERRUPT_MODERATION_EXPIRE (R440): MOD_TIME after the first unsignalled entry they are signalled. -/
def execInterruptModerationExpire (host : HostNo) (page : Fin 184) (s : State) :
    Host.Outcome State Fault Refusal :=
  let cfg := regVal s .ringCfg (ringNo host.val page.val)
  let r := ringAt s host.val page.val
  if r.unsignalled = 0 ∨ bits cfg 28 4 = 0 then .next s
  else .next (sendMsix (setRing s host.val page.val { r with unsignalled := 0 }) host.val (bits cfg 8 8))

/-- MAILBOX_WRITE (R437): a descriptor written while the mailbox holds a command is discarded and
counted. -/
def execMailboxWrite (desc : Bytes) (s : State) : Host.Outcome State Fault Refusal :=
  if s.boot.phase ≠ .ready then .next s
  else if s.host.mailbox.isSome then .next (count s 14 0 4 1)
  else .next (s.withHost { s.host with mailbox := some (cut desc 0 64) })

/-- MSIX_UNMASK (R442): the vector's pending message is sent. -/
def execMsixUnmask (host : HostNo) (vector : BitVec 8) (s : State) : Host.Outcome State Fault Refusal :=
  let k := 256 * host.val + vector.toNat
  let s' := s.withHost { s.host with masked := setAt true s.host.masked k false }
  if getAt false s.host.msixPending k then
    .next (sendMsix (s'.withHost { s'.host with msixPending := setAt false s.host.msixPending k false })
      host.val vector.toNat)
  else .next s'

/-- The state of a ring as RING_STATUS codes it (R453). -/
def ringStateCode : RingState → Nat
  | .disabled => 0
  | .running => 1
  | .stopped => 2

/-- RING_STATUS (R453). -/
def execRingStatus (c : Cmd) (host type : BitVec 8) (ring : BitVec 8) (s : State) :
    Host.Outcome State Fault Refusal :=
  runCommand c 0x0B01 (fun _ s =>
    if 2 ≤ host.toNat ∨ hostPresent s host.toNat = false ∨ typeCount type.toNat ≤ ring.toNat then
      .done (err 2) s
    else
      let r := ringAt s host.toNat (typePage type.toNat + ring.toNat)
      let block := le 1 (ringStateCode r.st) ++ le 1 r.cause ++ le 4 r.prod ++ le 4 r.cons ++
        le 8 r.discarded ++ le 8 r.lost
      .done { block := block } s) s

/-- HOST_STATUS (R453). -/
def execHostStatus (c : Cmd) (host : BitVec 8) (s : State) : Host.Outcome State Fault Refusal :=
  runCommand c 0x0B02 (fun _ s =>
    if 2 ≤ host.toNat ∨ hostPresent s host.toNat = false then .done (err 2) s
    else
      let l : HostLink := getAt {} s.host.links host.toNat
      let block := le 8 l.rate ++ le 1 l.width ++ le 4 l.aer ++ le 8 (counter s 14 0 host.toNat) ++
        le 8 (counter s 13 host.toNat 0)
      .done { block := block } s) s

/-- NOP (R453): no effect; completes OK. -/
def execNop (c : Cmd) (s : State) : Host.Outcome State Fault Refusal :=
  runCommand c 0x0B03 (fun _ s => .done {} s) s

end Sys2Proof.Machine
end

