-- ==== Sys2Proof/Machine/Traffic.lean ====
section
/-! DEFINITION. The traffic manager beside the subport scheduler: release of cells, census, replication,
PUNT and INJ rings, policers and the status commands (R368-R380, R398-R402, R464-R467). -/

namespace Sys2Proof.Machine

/-! The census (R370, R371). -/

/-- The owner tags that allocate (R363). -/
def ownerTags : List Nat := List.range 17 ++ upFrom 0x20 136 ++ [0xC0, 0xC1]

/-- The allocated cells of a tag that hold no reference (R371). -/
def deadCells (s : State) (tag : Nat) : List Nat :=
  s.buf.cells.filterMap (fun e => if e.2.alloc && e.2.owner == tag && e.2.refs == 0 then some e.1 else none)

/-- What cell-leak adds for allocated cells of REFS 0: their number and their locations (R371). -/
def deadBody (cs : List Nat) : Bytes := if cs.isEmpty then [] else le 4 cs.length ++ cs.flatMap (fun c => le 8 (c * 256))

/-- R_t of R370 and the number of allocated cells of a tag. -/
def refSums (s : State) (tag : Nat) : Nat × Nat :=
  s.buf.cells.foldl (fun a e =>
    if e.2.alloc && e.2.owner == tag then (a.1 + e.2.refs, a.2 + 1) else a) (0, 0)

/-- The references that a copy holds to cells of frames with a tag. -/
def copyHolds (s : State) (tag : Nat) (c : Copy) : Nat :=
  match frameAt s c.fid with
  | some f => if f.tag = tag then coverage f c.trunc else 0
  | none => 0

/-- H_t of R370: what queues, frames before their enqueue, frames in transmission and INTERNAL tasks hold. -/
def holderSum (s : State) (tag : Nat) : Nat :=
  let q := s.buf.queues.foldl (fun n e => n + ((e.2.copies.map (copyHolds s tag)).foldl (· + ·) 0)) 0
  let t := s.buf.tx.foldl (fun n e => match e.2 with
    | some x => n + copyHolds s tag x.copy
    | none => n) 0
  let f := s.slices.frames.foldl (fun n e => match e.2 with
    | some f => if f.tag = tag ∧ f.stage ≠ .queued then n + f.cells.length else n
    | none => n) 0
  let i := s.eng.tasks.foldl (fun n e => match e.2 with
    | some x => (match x.copy with
      | some c => n + copyHolds s tag c
      | none => n)
    | none => n) 0
  q + t + f + i

/-- The census of a tag. -/
def censusAt (s : State) (tag : Nat) : Census := getAt {} s.buf.census tag

/-- The walk of one tag ends (R370, R371): both sums are kept, and cell-leak is posted when they differ at
the end of two consecutive walks. -/
def censusTag (s : State) (tag : Nat) : State :=
  let old := censusAt s tag
  let r := refSums s tag
  let x : Census := { r1 := r.1, h1 := holderSum s tag, n1 := r.2, r0 := old.r1, h0 := old.h1 }
  let s := s.withBuf { s.buf with census := setAt {} s.buf.census tag x }
  if x.r1 ≠ x.h1 ∧ x.r0 ≠ x.h0 then
    postEvent s 0x09 2 (origin s 25 1 0 0)
      (le 1 tag ++ le 8 x.r0 ++ le 8 x.h0 ++ le 8 x.r1 ++ le 8 x.h1 ++ le 8 x.n1 ++ deadBody (deadCells s tag))
  else s

/-- CENSUS_WALK_START (R370): with CENSUS_MS 0 there is no census. -/
def execCensusWalkStart (s : State) : Host.Outcome State Fault Refusal :=
  if regField s .bufCfg 0 16 8 = 0 then .next s
  else .next (s.withBuf { s.buf with walking := true })

/-- CENSUS_WALK_END (R371). -/
def execCensusWalkEnd (s : State) : Host.Outcome State Fault Refusal :=
  if s.buf.walking then .next (ownerTags.foldl censusTag (s.withBuf { s.buf with walking := false })) else .next s

/-! The replicator (R379). -/

/-- What a member of a replication list adds: its copy, or a skip, which may be counted. -/
def memberReq (s : State) (f : Frame) (c : Copy) (base : Nat) (split : Bool) (i : Nat) :
    State × Option CopyReq :=
  let m := memberEntry s f.epoch (base + i)
  let dest := leAt m 0 2 % 4096
  if split && ingressSub f == dest then (s, none)
  else if 0x180 ≤ dest then (count s 12 0 7 1, none)
  else (s, some { queue := dest * 16 + leAt f.verdict 2 2 / 4096, encap := leAt m 2 2
                  mirror := c.mirror, trunc := c.trunc })

/-- The copies that a replication list asks for, in member order. -/
def memberReqs (s : State) (f : Frame) (c : Copy) (base : Nat) (split : Bool) :
    List Nat → State × List CopyReq
  | [] => (s, [])
  | i :: is =>
    match memberReq s f c base split i with
    | (s, r) => match memberReqs s f c base split is with
      | (s, rs) => (s, match r with
        | some x => x :: rs
        | none => rs)

/-- The copy at the head of a replication queue is replicated: its reference passes to the copies (R379). -/
def replicateCopy (s : State) (k : Nat) (c : Copy) (f : Frame) : State :=
  let e := tableOr0 s f.epoch 0x41 0 k 8
  let s := popCopy (chargeQueue s (internalQ (0x40 + k)) (copyLen f c.trunc)) (internalQ (0x40 + k)) c
  let s := countQ s (internalQ (0x40 + k)) 2 (copyLen f c.trunc)
  match memberReqs s f c (leAt e 2 2) (bit (leAt e 4 1) 0) (List.range (min (leAt e 0 2) 384)) with
  | (s, reqs) =>
    match offerCopies s c.fid reqs with
    | (s, made) =>
      let s := setFrame s c.fid (some { f with drefs := f.drefs + made.length - 1 })
      settleFrame (wakeSubs (assignCells s 0xE1 0 f made (f.cells.take (coverage f c.trunc))) made) c.fid

/-- A replication list whose queue has a frame to take, in rotating order from a list on. -/
def nextList (s : State) (start : Nat) : Option (Nat × Copy × Frame) :=
  (List.range 128).findSome? (fun j =>
    let k := (start + j) % 128
    match (queueAt s (internalQ (0x40 + k))).copies with
    | c :: _ =>
      match frameAt s c.fid with
      | some f => if f.whole && shaperOpen s (internalQ (0x40 + k)) then some (k, c, f) else none
      | none => none
    | [] => none)

/-- REPLICATE (R379): the replicator takes a frame from the next replication queue and makes its copies. -/
def execReplicate (s : State) : Host.Outcome State Fault Refusal :=
  match nextList s s.buf.replRot with
  | some (k, c, f) => .next (replicateCopy (s.withBuf { s.buf with replRot := (k + 1) % 128 }) k c f)
  | none => .next s

/-! PUNT rings (R378, R464, R465). -/

/-- The host port that serves a PUNT ring for a frame of an epoch (R22, R378). -/
def puntHost (s : State) (ep r : Nat) : Nat := regFieldAt s ep .puntHostMap 0 r 1

/-- Bytes 8 to 31 of a PUNT ring entry (R464). -/
def puntEntry (f : Frame) (c : Copy) (len : Nat) (first last : Bool) : Bytes :=
  let ts := match f.ingress with
    | .subport _ => true
    | _ => false
  let t := if ts then splitTime f.rx.t else (0, 0, 0)
  le 2 len ++ le 1 (flag first + 2 * flag last + 4 * flag ts + 8 * (if ts then f.rx.dom else 0) +
    16 * flag c.mirror) ++ [0] ++ le 2 (ingressSub f) ++ cut f.verdict 8 2 ++ le 2 f.tenant ++ le 1 f.cls ++ [0] ++
    le 2 t.2.2 ++ le 6 t.1 ++ le 4 t.2.1

/-- Writes a frame's data into buffers, then forms their entries. -/
def puntData (s : State) (h size : Nat) : List (BitVec 64) → Bytes → State
  | [], _ => s
  | a :: as, bs =>
    puntData (hostWrite s h a.toNat (bs.take size)) h size as (bs.drop size)

/-- Writes the entries of a frame and moves F. -/
def puntEntries (s : State) (h page size : Nat) (f : Frame) (c : Copy) (first : Bool) : Nat → Bytes → State
  | 0, _ => s
  | n + 1, bs =>
    let r := ringAt s h page
    let s := hostWrite s h (entryAddr s h page r.cons + 8)
      (puntEntry f c (bs.take size).length first (decide (bs.length ≤ size)))
    puntEntries (setRing s h page { r with cons := (r.cons + 1) % 2 ^ 32 }) h page size f c false n (bs.drop size)

/-- The data of a punted copy: the frame without its FCS, or its truncated part. -/
def puntBytes (f : Frame) (c : Copy) : Bytes := if c.trunc = 0 then f.bytes else f.bytes.take c.trunc

/-- The frame at the head of a PUNT queue is written (R465): data, entries, index, interrupt. -/
def puntFrame (s : State) (r : Nat) (c : Copy) (f : Frame) (addrs : List (BitVec 64)) (writeOk : Bool) : State :=
  let h := puntHost s f.epoch r
  let page := 144 + r
  let size := 256 * 2 ^ min (regField s .ringCfg (ringNo h page) 16 4) 6
  let bs := puntBytes f c
  let n := (bs.length + size - 1) / size
  let q := internalQ (0x10 + r)
  let s := popCopy (chargeQueue s q (copyLen f c.trunc)) q c
  let s := countQ s q 2 (copyLen f c.trunc)
  let s := if writeOk then
      let s := puntData s h size (addrs.take n) bs
      let s := puntEntries s h page size f c true n bs
      signal (writeBack s h page (ringAt s h page).cons) h page n
    else ringError s h page 4
  releaseCopy s (0xE8 + h) c

/-- PUNT_WRITE (R378, R465): PUNT DMA takes the frame at the head of a PUNT queue; `addrs` are the buffer
addresses that the posted entries hold from F on.  Without buffers for all of it the frame waits, and
the ring's wait is counted. -/
def execPuntWrite (ring : Fin 16) (addrs : List (BitVec 64)) (readOk writeOk : Bool) (s : State) :
    Host.Outcome State Fault Refusal :=
  let page := 144 + ring.val
  let q := internalQ (0x10 + ring.val)
  match (queueAt s q).copies with
  | [] => .next s
  | c :: _ =>
    match frameAt s c.fid with
    | none => .next s
    | some f =>
      let h := puntHost s f.epoch ring.val
      let size := 256 * 2 ^ min (regField s .ringCfg (ringNo h page) 16 4) 6
      let n := ((puntBytes f c).length + size - 1) / size
      let r := ringAt s h page
      if (f.whole && shaperOpen s q) = false then .next s
      else if ringRuns s h page = false ∨ ringUsed r < n then
        .next (setRing s h page { r with waits := r.waits + 1 })
      else if readOk = false then .next (ringError s h page 3)
      else .next (puntFrame s ring.val c f addrs writeOk)

/-! INJ rings (R466, R467). -/

/-- The INJ path consumes an entry: its index moves and is written back, and in chain mode the chain goes
on by its word (R439, R455). -/
def consumeInj (s : State) (h page word : Nat) : State :=
  let c := ((ringAt s h page).cons + 1) % 2 ^ 32
  let s := writeBack (setRing s h page { ringAt s h page with cons := c }) h page c
  chainFetched s h page word

/-- An INJ ring has an entry to fetch. -/
def injHas (s : State) (h page : Nat) : Bool :=
  let r := ringAt s h page
  ringRuns s h page &&
    (if ringChain s h page then !r.chainTail && !r.chainReading else decide (ringUsed r ≠ 0))

/-- The slice that takes the frames of a slice value: S16 where it serves that slice's ports; `none` where
that slice is closed, in retention or stopped without a substitute (R467, R638). -/
def injSlice (s : State) (n : Nat) : Option Nat :=
  match servingSlice s n with
  | none => none
  | some t =>
    if (sliceAt s t).stopped || !isAwake s .slice t || (sliceAt s n).opened == 0 then none else some t

/-- The reference timestamp of an INJ entry in 2^-16 ns (R466). -/
def injRef (e : Bytes) : Option Int :=
  if bit (leAt e 11 1) 0 then
    some ((((leAt e 24 6 * 1000000000 + leAt e 12 4) * 65536 + leAt e 30 2 : Nat) : Int))
  else none

/-- The frame of an INJ entry enters the internal input of a slice (R27, R467). -/
def injectFrame (s : State) (h ring slice : Nat) (e frame : Bytes) : State :=
  let f : Frame :=
    { bytes := cut frame 0 (leAt e 8 2), ingress := .inj h ring, slice := slice, arrival := timeNs s
      refTs := injRef e, tag := 0xC0 + h }
  match bufferFrame s f with
  | (s, some fid) =>
    let x := sliceAt s slice
    setSlice s slice { x with heads := x.heads.set 6 ((x.heads.getD 6 []) ++ [fid]) }
  | (s, none) => s

/-- INJ_FETCH (R466, R467): the next entry of an INJ ring with its frame.  It waits while the internal input
is closed, its head queue being full. -/
def execInjFetch (host : HostNo) (ring : Fin 16) (entry frame : Bytes) (entryOk frameOk : Bool) (s : State) :
    Host.Outcome State Fault Refusal :=
  let page := 160 + ring.val
  let n := leAt entry 10 1
  let drop := fun (s : State) =>
    let s := consumeInj s host.val page (leAt entry 16 8)
    let r := ringAt s host.val page
    setRing s host.val page { r with injErrors := r.injErrors + 1 }
  if s.boot.phase ≠ .ready ∨ injHas s host.val page = false then .next s
  else if entryOk = false then .next (ringError s host.val page 3)
  else if leAt entry 8 2 < 60 ∨ 10236 < leAt entry 8 2 ∨ 15 < n then .next (drop s)
  else match injSlice s n with
    | none => .next (drop s)
    | some t =>
      if 64 ≤ ((sliceAt s t).heads.getD 6 []).length then .next s
      else if frameOk = false then .next (ringError s host.val page 3)
      else .next (injectFrame (consumeInj s host.val page (leAt entry 16 8)) host.val ring.val t entry frame)

/-! Policers (R398-R400). -/

/-- POLICER_RESULT (R399): the policer answers, and the colour goes into the verdict of a frame that has
none yet (R141). -/
def execPolicerResult (fid : Nat) (s : State) : Host.Outcome State Fault Refusal :=
  match frameAt s fid with
  | none => .next s
  | some f =>
    if f.policed = false ∨ f.colour.isSome then .next s
    else
      let (s, c) := police s f
      let v := (byteAt f.verdict 12).toNat
      .next (setFrame s fid (some { f with
        colour := some c
        verdict := if inEpochCount f then f.verdict.set 12 (BitVec.ofNat 8 (v / 4 * 4 + c)) else f.verdict }))

/-- A policer's entry has been validated: its buckets start full (R398). -/
def policerValidated (s : State) (i : Nat) (e : Bytes) : State :=
  setPol s i { polAt s i with c := polSize e 12, e := polSize e 14, refillAt := s.clk.cc }

/-! Status commands (R402). -/

/-- The counters of R376 of a queue: frames and bytes of each kind. -/
def queueCounters (s : State) (q : Nat) : Bytes := ((List.range 16).map (fun i => le 8 (counter s 6 q i))).flatten

/-- The result of QUEUE_STATUS. -/
def queueView (s : State) (q : Nat) : Bytes :=
  let x := settleQueue s q
  let sub := queueSub q
  let paused := isSubQ q && queuePaused s sub (q % 16)
  let gated := isSubQ q && !gateOpen s sub (q % 16) (gateAt s sub)
  le 8 x.depth ++ le 8 x.copies.length ++ le 4 (ofSigned 32 (x.tokens / 12000000)) ++
    le 8 (ofSigned 64 (x.credit / 1500000)) ++ le 4 x.deficit ++ le 1 (flag paused) ++ le 1 (flag (!gated)) ++
    queueCounters s q

/-- QUEUE_STATUS (R402). -/
def execQueueStatus (c : Cmd) (queue : BitVec 16) (s : State) : Host.Outcome State Fault Refusal :=
  runCommand c 0x0901 (fun _ s =>
    if 6400 ≤ queue.toNat then .done (err 2) s
    else .done { block := queueView s queue.toNat } s) s

/-- The drops of an allocation class, by counter index. -/
def classDrops (s : State) (c idx : Nat) : Nat :=
  if c = 0x20 then ((upFrom 0x20 136).map (fun t => counter s 7 t idx)).foldl (· + ·) 0 else counter s 7 c idx

/-- The result of BUF_STATUS (R402): the census sums of every owner tag take 4 B each, so that all fit the block (log 47). -/
def bufView (s : State) : Bytes :=
  le 8 (freeCells s) ++ le 8 (sharedCells s) ++
    (allocClasses.map (fun c => le 8 (classUsed s c) ++ le 8 (classDrops s c 0) ++ le 8 (classDrops s c 1))).flatten ++
    le 8 ((fcSubports s).map (headroomUsed s)).sum ++
    ((List.range 4).map (fun i => le 8 (counter s 12 0 i))).flatten ++
    (ownerTags.map (fun t =>
      let x := censusAt s t
      le 4 x.r0 ++ le 4 x.h0 ++ le 4 x.r1 ++ le 4 x.h1)).flatten

/-- BUF_STATUS (R402). -/
def execBufStatus (c : Cmd) (s : State) : Host.Outcome State Fault Refusal :=
  runCommand c 0x0902 (fun _ s => .done { block := bufView s } s) s

/-- The result of POLICER_READ (R402): levels in bytes, then frames and bytes by colour. -/
def policerView (s : State) (i : Nat) : Bytes :=
  let p := match tableNow s 0x40 0 i with
    | some e => polRefill s e (polAt s i)
    | none => polAt s i
  le 4 (p.c / 375000) ++ le 4 (p.e / 375000) ++ le 8 p.green ++ le 8 p.yellow ++ le 8 p.red ++
    le 8 p.greenB ++ le 8 p.yellowB ++ le 8 p.redB

/-- POLICER_READ (R402). -/
def execPolicerRead (c : Cmd) (idx : BitVec 32) (s : State) : Host.Outcome State Fault Refusal :=
  runCommand c 0x0903 (fun _ s =>
    if 65536 ≤ idx.toNat then .done (err 2) s else .done { block := policerView s idx.toNat } s) s

/-- GATE_STATUS (R402): bank, start of the cycle, entry in force and the time of a change that waits. -/
def execGateStatus (c : Cmd) (sub : BitVec 16) (s : State) : Host.Outcome State Fault Refusal :=
  runCommand c 0x0904 (fun _ s =>
    if 384 ≤ sub.toNat then .done (err 2) s
    else
      let g := gateAt s sub.toNat
      let t := match g.change with
        | some (t, _) => t
        | none => 0
      let block := le 1 g.bank ++ le 8 g.start ++ le 1 g.entry ++ le 8 t
      .done { block := block } s) s

end Sys2Proof.Machine
end

