-- ==== Sys2Proof/Machine/Epoch.lean ====
section
/-! DEFINITION. Epoch boundaries (R22, R244, R256): shadowed register writes take effect, the epoch
advances, and stamps settle. -/

namespace Sys2Proof.Machine

/-- The epoch after the current one. -/
def nextEpoch (s : State) : Nat := (s.tbl.epoch + 1) % 2 ^ 32

/-- A word of a spreading profile's key as applied; a word never written reads as drawn (R104). -/
def hashKeyWord (s : State) (i : Nat) : BitVec 32 :=
  match getAt none s.regs.hashKey i with
  | some v => v
  | none => (Config.freeValue (s.regs.hashDraw + i)).setWidth 32

/-- A word of a spreading profile's key as a frame of an epoch sees it (R22, R109). -/
def hashKeyAt (s : State) (e i : Nat) : BitVec 32 :=
  match s.regs.past.find? (fun p => p.1 == Reg.off .hashKey i && earlier s e p.2.1) with
  | some p => p.2.2.setWidth 32
  | none => hashKeyWord s i

/-- The bits of a register that a write sets. -/
def Reg.written (r : Reg) : Nat := r.mask .rw + r.mask .rwo + r.mask .wo

/-- A value that a write gives a register: the bits of its written fields, the others as they stand (R11, R15). -/
def mergedValue (r : Reg) (old v : Nat) : Nat := v &&& r.written ||| (old &&& (r.written ^^^ (2 ^ 64 - 1)))

/-- The applied value of a register or of a word of a key. -/
def appliedVal (s : State) (r : Reg) (i : Nat) : Nat :=
  if r = .hashKey then (hashKeyWord s i).toNat else regVal s r i

/-- What has run on under the old value of a register is brought up to date before it changes (R386,
R387), and windows that have begun keep it (R651, R653). -/
def beforeReg (s : State) (r : Reg) (i : Nat) : State :=
  match r with
  | .queueRate | .queueSched | .queueIdleSlope | .queueCfg => setQueue s i (settleQueue s i)
  | .subportRate | .subportSchedCfg => setSched s i (settleSched s i)
  | .shedCfg =>
    let x := subAt s i
    setSub s i { x with shedNow := some (x.shedNow.getD (regVal s .shedCfg i)) }
  | .laneSerLimit =>
    let old := some (regVal s .laneSerLimit 0)
    s.withPorts { s.ports with serNow := (List.range 768).foldl (fun m l =>
      setAt none m l ((getAt none m l).or old)) s.ports.serNow }
  | _ => s

/-- What a new register value changes at once: ENABLE of a port (R36), a bucket capped at a new default
burst (R145), flow control under new thresholds or a new mode (R53, R372), demotion under new watermarks (R198), panic under a
new level (R500), the exit
from low-power idle (R652). -/
def afterReg (s : State) (r : Reg) (i old : Nat) : State :=
  match r with
  | .portCfg =>
    if bits old 3 1 = regField s .portCfg i 3 1 then s
    else portEnabled s i (regField s .portCfg i 3 1 == 1)
  | .dlBudgetDef => bucketsTick s 0 false
  | .fsMissDef => bucketsTick s 1 false
  | .setupDef => bucketsTick s 2 false
  | .fsWatermark => checkWatermarks s
  | .ddrQosCfg => updatePanic s
  | .subportFcThr | .subportFcPrio | .subportLinkCfg => updateXoff s i
  | .subportEee =>
    if (subAt s i).lpi = .idle ∧ (regField s .subportEee i 0 16 = 0 ∨ regField s .subportEee i 16 16 = 0)
    then startLpiExit s i else s
  | _ => s

/-- A register takes a value. -/
def applyReg (s : State) (r : Reg) (i v : Nat) : State :=
  if r = .hashKey then
    s.withRegs { s.regs with hashKey := setAt none s.regs.hashKey i (some (BitVec.ofNat 32 v)) }
  else
    let old := regVal s r i
    afterReg (setReg (beforeReg s r i) r i v) r i old

/-- A value held in a shadow takes effect at the boundary of epoch `e` in the fields that a write sets; the old value stays for
frames of earlier epochs (R22, R36). -/
def applyShadow (e : Nat) (s : State) (x : Nat × Option (BitVec 64)) : State :=
  match x.2, regAt x.1 with
  | some v, some (r, i) =>
    let s := s.withRegs { s.regs with
      past := s.regs.past ++ [(x.1, e, BitVec.ofNat 64 (appliedVal s r i))] }
    applyReg s r i (if r = .hashKey then v.toNat else mergedValue r (regVal s r i) v.toNat)
  | _, _ => s

/-- Every shadow takes effect at the boundary of epoch `e` (R22). -/
def applyShadows (s : State) (e : Nat) : State :=
  let xs := s.regs.shadow
  xs.foldl (applyShadow e) (s.withRegs { s.regs with shadow := [] })

/-- A stamp whose fence has passed is settled (R244). -/
def settleEnt (s : State) (x : Ent) : Ent :=
  match x.st with
  | .empty => x
  | .valid t => if x.settled then x else { x with settled := fencePassed s t }
  | .retiring t => if x.settled then x else { x with settled := fencePassed s t }

/-- Stamps settle, and old register values that no frame can see any more are forgotten (R22, R244). -/
def settleStamps (s : State) : State :=
  let ents := s.tbl.ents.map (fun p => (p.1, settleEnt s p.2))
  let past := s.regs.past.filter (fun p => !fencePassed s ((p.2.1 + 2 ^ 32 - 1) % 2 ^ 32))
  (s.withTbl { s.tbl with ents := ents }).withRegs { s.regs with past := past }

/-- The device epoch advances (R256): shadows take effect at this boundary. -/
def advanceEpoch (s : State) : State :=
  let e := nextEpoch s
  let s := applyShadows s e
  settleStamps (s.withTbl { s.tbl with epoch := e })

/-- SHADOW_APPLY (R22, R256): the boundary that a shadowed register write makes. -/
def execShadowApply (s : State) : Host.Outcome State Fault Refusal :=
  if s.regs.shadow = [] then .next s else .next (advanceEpoch s)

end Sys2Proof.Machine
end

