-- ==== Sys2Proof/Machine/Tables.lean ====
section
/-! DEFINITION. The table joint (07): entries are invalidated, written and validated (R256-R264), the
plumb digest (R291-R294, R645) and the table commands (R296). -/

namespace Sys2Proof.Machine

/-! Hashed tables (R264). -/

/-- An entry holds a key: not an empty place. -/
def entHeld (e : Ent) : Bool := e.st != .empty || !e.bytes.isEmpty

/-- The index of the entry of a key, in whatever state, or of the place held for it. -/
def keyPlace (s : State) (id : Nat) (t : TableInfo) (key : Bytes) : Option Nat := keyFind s id t key entHeld

/-- Changes every copy of a key's entry: there are two during a move. -/
def modKey (s : State) (id : Nat) (t : TableInfo) (key : Bytes) (f : Ent → Ent) : State :=
  (keyIdxs s id t key).foldl (fun s i =>
    let e := entAt s id 0 i
    if entHeld e && e.bytes.length == t.size && cut e.bytes 0 t.keyLen == cut key 0 t.keyLen
    then setEnt s id 0 i (f e) else s) s

/-- A relocation path crosses a bucket (R184). -/
def pathReserved (s : State) (id : Nat) (t : TableInfo) (b : Nat) : Bool :=
  s.tbl.flips.any (fun m => m.id == id && (m.path ++ m.held).any (fun i => i / t.perBucket == b))

/-- A bucket is reserved by work under way: a relocation path crosses it, or a place in it is held. -/
def bucketReserved (s : State) (id : Nat) (t : TableInfo) (b : Nat) : Bool :=
  pathReserved s id t b ||
    (bucketIdxs t b).any (fun i =>
      let e := entAt s id 0 i
      e.st == .empty && !e.bytes.isEmpty)

/-- The other bucket of the entry at an index of bucket `b` (R168). -/
def otherBucket (s : State) (id : Nat) (t : TableInfo) (i b : Nat) : Nat :=
  let x := tableBuckets s id t (cut (entAt s id 0 i).bytes 0 t.keyLen)
  if x.1 = b then x.2.1 else x.1

/-- An entry that a new key may take: it holds nothing, and no relocation path goes through it. -/
def entFree (s : State) (id j : Nat) : Bool :=
  !entHeld (entAt s id 0 j) && !s.tbl.flips.any (fun m => m.id == id && m.path.contains j)

/-- The search of R184 for a relocation path: moves left, step, bucket and the path so far. -/
def pathFrom (s : State) (id : Nat) (t : TableInfo) (tag : Nat) : Nat → Nat → Nat → List Nat → Option (List Nat)
  | 0, _, _, _ => none
  | n + 1, step, b, path =>
    let i := b * t.perBucket + (step + tag) % t.perBucket
    let b2 := otherBucket s id t i b
    if bucketReserved s id t b || bucketReserved s id t b2 || path.contains i then none
    else match (bucketIdxs t b2).find? (entFree s id) with
      | some j => some (path ++ [i, j])
      | none => pathFrom s id t tag n (step + 1) b2 (path ++ [i])

/-- Where a new key goes (R264): a free entry, or the entries of a relocation path of at most 16 moves. -/
def placeFor (s : State) (id : Nat) (t : TableInfo) (key : Bytes) : Option (List Nat) :=
  match (keyIdxs s id t key).find? (entFree s id) with
  | some j => some [j]
  | none =>
    let x := tableBuckets s id t key
    pathFrom s id t x.2.2 16 0 x.1 []

/-- Starts the move at the far end of a path: the new copy is written (R185, R264). -/
def startMove (s : State) (m : HashedMove) : State :=
  let n := m.path.length
  let s := setEnt s m.id 0 (m.path.getD (n - 1) 0) (entAt s m.id 0 (m.path.getD (n - 2) 0))
  s.withTbl { s.tbl with flips := s.tbl.flips ++ [m] }

/-- All moves of a path at once; the entry at its start is then free (log 52). -/
def moveAll (s : State) (id : Nat) : List Nat → State
  | i :: j :: rest =>
    let s := moveAll s id (j :: rest)
    setEnt (setEnt s id 0 j (entAt s id 0 i)) id 0 i {}
  | _ => s

/-! Validation (R258). -/

/-- What a validated entry does to the state that belongs to it: buckets start full (R145, R204, R213, R398), a
gate schedule is applied (R391), a pending key is removed (R275). -/
def validated (s : State) (id idx : Nat) (bytes : Bytes) : State :=
  match id with
  | 0x04 => fillBucket s 0 idx
  | 0x05 => fillBucket s 1 idx
  | 0x06 => fillBucket s 2 idx
  | 0x08 =>
    s.withTbl { s.tbl with pend := s.tbl.pend.filter (fun l =>
      !(l.mac == cut bytes 0 6 && l.tenant == leAt bytes 6 2)) }
  | 0x40 => policerValidated s idx bytes
  | 0x44 => gateValidated s idx bytes
  | _ => s

/-- Writes and validates one entry with a stamp; the epoch has yet to advance. -/
def writeEnt (stamp : Nat) (s : State) (inst id idx : Nat) (bytes : Bytes) : State :=
  setEnt s id inst idx { st := .valid stamp, settled := false, bytes := bytes }

/-- One entry is written and validated, and the epoch advances (R258 steps 2 and 3). -/
def writeValidate (s : State) (inst id idx : Nat) (bytes : Bytes) : State :=
  validated (advanceEpoch (writeEnt (nextEpoch s) s inst id idx bytes)) id idx bytes

/-- One entry is invalidated with the stamp of the coming epoch: its contents stay for older frames (R258
step 1). -/
def retire (s : State) (inst id idx : Nat) : State :=
  setEnt s id inst idx
    { st := .retiring (nextEpoch s), settled := false, bytes := (entAt s id inst idx).bytes }

/-- What an invalidated entry does once the current epoch no longer sees it: a tenant that falls back to the default
register keeps its bucket's level, capped at the burst now in force (R145, R213). -/
def retired (s : State) (id idx : Nat) : State :=
  match id with
  | 0x04 => bucketTick s 0 false idx
  | 0x05 => bucketTick s 1 false idx
  | 0x06 => bucketTick s 2 false idx
  | _ => s

/-- One entry is invalidated and the epoch advances (R258 step 1). -/
def retireNow (s : State) (inst id idx : Nat) : State := retired (advanceEpoch (retire s inst id idx)) id idx

/-- An entry is VALID. -/
def isValid (e : Ent) : Bool :=
  match e.st with
  | .valid _ => true
  | _ => false

/-! Table commands (R296). -/

/-- The table that a command names on an instance; the tables of the policy region are written by
POLICY_WRITE (R225). -/
def targetOf (inst id : Nat) : Option TableInfo :=
  if 0x30 ≤ id ∧ id ≤ 0x33 then none
  else match tableInfo id with
    | some t => if t.first ≤ inst ∧ inst < t.first + t.insts then some t else none
    | none => none

/-- A command on an instance waits for an earlier one that has not ended (R296). -/
def instBusy (s : State) (inst : Nat) : Bool :=
  s.tbl.waits.any (fun w => w.inst == inst) ||
    (inst == 0 && s.tbl.flips.any (fun m => match m.who with
      | .command _ => true
      | .learn _ _ => false))

/-- The place of a key or an index in a table; `none` for a key that has none or an index out of range. -/
def placeOf (s : State) (id : Nat) (t : TableInfo) (idx : Nat) (key : Bytes) : Option Nat :=
  if t.keyLen = 0 then (if idx < t.count then some idx else none) else keyPlace s id t key

/-- An update of one entry (R258): a VALID entry is invalidated and the write waits for the fence of the epoch
before; an entry that is not VALID is written and validated at once. -/
def updateEntry (s : State) (aseq winst inst id idx : Nat) (bytes : Bytes) : Effect :=
  if isValid (entAt s id inst idx) then
    let e := s.tbl.epoch
    let s := retireNow s inst id idx
    .later (s.withTbl { s.tbl with waits := s.tbl.waits ++
      [{ aseq := aseq, inst := winst, fence := e, batch := false,
         ops := [{ write := true, id := id, idx := idx, bytes := bytes }] }] })
  else
    let s := writeValidate s inst id idx bytes
    .done { result := s.tbl.epoch } s

/-- TABLE_WRITE (R258, R264, R296).  The key of a hashed table stands in the entry's key bytes. -/
def execTableWrite (c : Cmd) (table : BitVec 16) (idx : BitVec 32) (key entry : Bytes) (s : State) :
    Host.Outcome State Fault Refusal :=
  runCommand c 0x0701 (fun aseq s =>
    let id := table.toNat
    let inst := c.inst.toNat
    if instBusy s inst then .wait
    else match targetOf inst id with
      | none => .done (err 2) s
      | some t =>
        let bytes := cut key 0 t.keyLen ++ cut entry t.keyLen (t.size - t.keyLen)
        match placeOf s id t idx.toNat key with
        | some i => updateEntry s aseq inst inst id i bytes
        | none =>
          if t.keyLen = 0 then .done (err 2) s
          else match placeFor s id t key with
            | none => .done { status := stNoSpace } s
            | some [i] => updateEntry s aseq inst inst id i bytes
            | some path => .later (startMove s { id := id, path := path, bytes := bytes, who := .command aseq }))
    s

/-- TABLE_DELETE (R258, R296). -/
def execTableDelete (c : Cmd) (table : BitVec 16) (idx : BitVec 32) (key : Bytes) (s : State) :
    Host.Outcome State Fault Refusal :=
  runCommand c 0x0702 (fun aseq s =>
    let id := table.toNat
    let inst := c.inst.toNat
    if instBusy s inst then .wait
    else match targetOf inst id with
      | none => .done (err 2) s
      | some t =>
        if t.keyLen = 0 && decide (t.count ≤ idx.toNat) then .done (err 2) s
        else match placeOf s id t idx.toNat key with
          | none => .done { status := stNotFound } s
          | some i =>
            if isValid (entAt s id inst i) = false then .done { status := stNotFound } s
            else
              let e := s.tbl.epoch
              let s := retireNow s inst id i
              .later (s.withTbl { s.tbl with waits := s.tbl.waits ++
                [{ aseq := aseq, inst := inst, fence := e, batch := false,
                   ops := [{ write := false, id := id, idx := i, bytes := cut key 0 t.keyLen }] }] }))
    s

/-- Where an operation finds its entry when its wait is over: a hashed entry may have been moved. -/
def opPlace (s : State) (o : EntOp) : Nat :=
  match tableInfo o.id with
  | some t =>
    if t.keyLen = 0 then o.idx
    else match keyPlace s o.id t o.bytes with
      | some i => i
      | none => o.idx
  | none => o.idx

/-- The stored instance of an entry of a wait: the policy region's entries stand under instance 0. -/
def entInst (w : TableWait) : Nat := if w.inst = 0x30 then 0 else w.inst

/-- A deleted entry becomes EMPTY; a gate schedule that is absent opens every gate (R258, R670). -/
def emptied (s : State) (inst id i : Nat) : State :=
  let s := setEnt s id inst i {}
  if id = 0x44 then setGate s i {} else s

/-- The write step of a wait's operations: a deleted entry becomes EMPTY, a written one VALID with the
stamp (R258, R259). -/
def writeOps (inst stamp : Nat) (s : State) : List EntOp → State
  | [] => s
  | o :: os =>
    let i := opPlace s o
    writeOps inst stamp
      (if o.write then writeEnt stamp s inst o.id i o.bytes else emptied s inst o.id i) os

/-- What the validated entries of a wait do (R145, R391). -/
def opsValidated (s : State) : List EntOp → State
  | [] => s
  | o :: os => opsValidated (if o.write then validated s o.id (opPlace s o) o.bytes else s) os

/-- The write of a wait is done: its command completes, or a map move of the stack goes on (R558). -/
def waitDone (s : State) (aseq : Nat) (r : Reply) : State :=
  if s.stk.moves.any (fun m => m.aseq == aseq) then
    s.withStk { s.stk with moves := s.stk.moves.map (fun m => if m.aseq = aseq then { m with localWrite := 0 } else m) }
  else finish s aseq r

/-- The fence of a command's invalidates has passed: all writes, then all validates, and the command
completes with the validate epoch, or the invalidate epoch of deletions (R258, R259). -/
def endWait (s : State) (w : TableWait) : State :=
  let s := s.withTbl { s.tbl with waits := s.tbl.waits.filter (fun x => x.aseq != w.aseq) }
  let s := writeOps (entInst w) (nextEpoch s) s w.ops
  if w.ops.any (·.write) then
    let s := opsValidated (advanceEpoch s) w.ops
    waitDone s w.aseq { result := if w.inst = 0x30 then 0 else s.tbl.epoch }
  else finish s w.aseq { result := (w.fence + 1) % 2 ^ 32 }

/-- A table command whose fence has passed goes on; until then nothing happens. -/
def fenceWaitEnd (s : State) (aseq : Nat) (batch : Bool) : State :=
  match s.tbl.waits.find? (fun w => w.aseq == aseq && w.batch == batch) with
  | some w => if fencePassed s w.fence then endWait s w else s
  | none => s

/-- BATCH_FENCE_WAIT_END (R259). -/
def execBatchFenceWaitEnd (aseq : BitVec 32) (s : State) : Host.Outcome State Fault Refusal :=
  .next (fenceWaitEnd s aseq.toNat true)

/-- An item of a TABLE_BATCH list (R669). -/
structure BatchItem where
  op : Nat
  id : Nat
  idx : Nat
  entry : Bytes
  deriving DecidableEq, Repr

/-- Item k of a list. -/
def batchItem (list : Bytes) (k : Nat) : BatchItem :=
  { op := leAt list (136 * k) 1, id := leAt list (136 * k + 2) 2, idx := leAt list (136 * k + 4) 4
    entry := cut list (136 * k + 8) 128 }

/-- Items name one entry: same table, and same index or key. -/
def sameEntry (t : TableInfo) (a b : BatchItem) : Bool :=
  a.id == b.id && (if t.keyLen = 0 then a.idx == b.idx else cut a.entry 0 t.keyLen == cut b.entry 0 t.keyLen)

/-- A batch as far as it has been checked: the state with places held for its new keys, its operations, and
whether it has failed, with the item and the detail (R296). -/
structure BatchCheck where
  s : State
  ops : List EntOp := []
  seen : List BatchItem := []
  failed : Option (Nat × Nat) := none
  deriving DecidableEq, Repr

/-- A new key of a batch gets its place at once: relocations are made and the place is held (R264;
log 52). -/
def holdPlace (s : State) (id : Nat) (t : TableInfo) (bytes : Bytes) : Option (State × Nat) :=
  match placeFor s id t bytes with
  | none => none
  | some path =>
    let i := path.headD 0
    some (setEnt (moveAll s id path) id 0 i { st := .empty, bytes := bytes }, i)

/-- Checks one item of a batch (R259, R296). -/
def checkItem (inst : Nat) (b : BatchCheck) (k : Nat) (x : BatchItem) : BatchCheck :=
  if b.failed.isSome then b
  else
    let bad (d : Nat) : BatchCheck := { b with failed := some (k, d) }
    match targetOf inst x.id with
    | none => bad 2
    | some t =>
      let bytes := cut x.entry 0 t.size
      if x.op ≠ 1 ∧ x.op ≠ 2 then bad 2
      else if b.seen.any (sameEntry t x) then bad 2
      else if t.keyLen = 0 ∧ t.count ≤ x.idx then bad 2
      else
        let seen := b.seen ++ [x]
        match placeOf b.s x.id t x.idx bytes with
        | some i =>
          if x.op = 2 ∧ isValid (entAt b.s x.id inst i) = false then bad 5
          else { b with ops := b.ops ++ [{ write := x.op == 1, id := x.id, idx := i, bytes := bytes }], seen := seen }
        | none =>
          if x.op = 2 then bad 5
          else match holdPlace b.s x.id t bytes with
            | some (s, i) =>
              { b with s := s, ops := b.ops ++ [{ write := true, id := x.id, idx := i, bytes := bytes }], seen := seen }
            | none => bad 5

/-- Checks the items of a batch in order. -/
def checkItems (inst : Nat) (list : Bytes) : Nat → BatchCheck → BatchCheck
  | 0, b => b
  | k + 1, b =>
    let b := checkItems inst list k b
    checkItem inst b k (batchItem list k)

/-- The invalidate step of a batch: every VALID entry of it takes one stamp (R259). -/
def retireOps (inst : Nat) (s : State) : List EntOp → State
  | [] => s
  | o :: os =>
    let i := opPlace s o
    retireOps inst (if isValid (entAt s o.id inst i) then retire s inst o.id i else s) os

/-- What the invalidated entries of a batch do once the epoch has advanced (R145). -/
def opsRetired (s : State) (ops : List EntOp) : State := ops.foldl (fun s o => retired s o.id (opPlace s o)) s

/-- TABLE_BATCH (R259, R296, R669).  A batch none of whose entries is VALID has nothing to invalidate and
does not wait. -/
def execTableBatch (c : Cmd) (list : Bytes) (count : BitVec 16) (s : State) : Host.Outcome State Fault Refusal :=
  runCommand c 0x0703 (fun aseq s =>
    let inst := c.inst.toNat
    if instBusy s inst then .wait
    else if count.toNat < 1 ∨ 4096 < count.toNat then .done (err 2) s
    else
      let b := checkItems inst list count.toNat { s := s }
      match b.failed with
      | some (k, d) => .done { status := stError, result := d + 2 ^ 32 * k } s
      | none =>
        let w : TableWait := { aseq := aseq, inst := inst, fence := s.tbl.epoch, batch := true, ops := b.ops }
        if b.ops.any (fun o => isValid (entAt b.s o.id inst (opPlace b.s o))) then
          let t := opsRetired (advanceEpoch (retireOps inst b.s b.ops)) b.ops
          .later (t.withTbl { t.tbl with waits := t.tbl.waits ++ [w] })
        else
          let t := writeOps inst (nextEpoch b.s) b.s b.ops
          let t := opsValidated (advanceEpoch t) b.ops
          .done { result := t.tbl.epoch } t)
    s

/-- State and stamp of an entry as TABLE_READ codes them (log 19): 0 EMPTY, 1 VALID, 2 RETIRING. -/
def entCode (e : Ent) : Nat × Nat :=
  match e.st with
  | .empty => (0, 0)
  | .valid t => (1, t)
  | .retiring t => (2, t)

/-- TABLE_READ (R296): the entry, its state and stamp, and the shadow of an associative slot. -/
def execTableRead (c : Cmd) (table : BitVec 16) (idx : BitVec 32) (key : Bytes) (addr : BitVec 64) (s : State) :
    Host.Outcome State Fault Refusal :=
  runCommand c 0x0704 (fun _ s =>
    let id := table.toNat
    let inst := c.inst.toNat
    if instBusy s inst then .wait
    else match targetOf inst id with
      | none => .done (err 2) s
      | some t =>
        match placeOf s id t idx.toNat key with
        | none => .done (if t.keyLen = 0 then err 2 else { status := stNotFound }) s
        | some i =>
          let e := entAt s id inst i
          let bytes := cut e.bytes 0 t.size
          .done { block := bytes ++ le 1 (entCode e).1 ++ le 4 (entCode e).2 ++
                    (if id = 0x10 ∨ id = 0x20 then bytes else [])
                  addr := some addr.toNat } s)
    s

/-! The plumb digest (R291-R294, R645). -/

/-- The bytes of an entry that are reserved or state, each with the bits that enter its contribution
(R291, R292). -/
def reservedBytes (id : Nat) : List (Nat × Nat) :=
  let zero (a n : Nat) : List (Nat × Nat) := (upFrom a n).map (fun i => (i, 0))
  match id with
  | 0x01 => (11, 0x3F) :: zero 12 4
  | 0x02 => [(0, 0x7F), (4, 0x01), (6, 0x0F), (7, 0), (11, 0x0F), (15, 0x0F)] ++ zero 1 3
  | 0x06 => [(3, 0x7F)]
  | 0x08 => [(9, 0x0F), (10, 0x01)] ++ zero 11 5
  | 0x09 => [(3, 0), (24, 0x03)] ++ zero 25 7
  | 0x0A => (28, 0x01) :: zero 29 3
  | 0x0B => [(2, 0x07), (3, 0), (7, 0)] ++ zero 8 8
  | 0x0C | 0x0D => zero 4 4
  | 0x10 => (24, 0x03) :: zero 25 7
  | 0x11 | 0x21 => [(2, 0x01), (3, 0)]
  | 0x20 => [(80, 0x03), (81, 0xBF)] ++ zero 86 10
  | 0x31 => (20, 0x01) :: zero 21 11
  | 0x32 => [(1, 0x03)]
  | 0x33 => (19, 0) :: zero 24 8
  | 0x40 => (0, 0x03) :: zero 2 2
  | 0x41 => (4, 0x01) :: zero 5 3
  | 0x42 => [(6, 0x01), (7, 0)]
  | 0x43 => zero 6 2
  | 0x44 => (18, 0x03) :: zero 19 13
  | 0x48 => zero 0 8 ++ zero 12 4
  | 0x50 => [(0, 0x83), (1, 0), (6, 0), (7, 0)]
  | 0x51 => (0, 0x3F) :: zero 1 3
  | _ => []

/-- An entry with its reserved bits and state as 0. -/
def maskEntry (id : Nat) (bytes : Bytes) : Bytes :=
  (reservedBytes id).foldl (fun bs m => bs.set m.1 (byteAt bs m.1 &&& BitVec.ofNat 8 m.2)) bytes

/-- The first 128 bits of SHA-384 as a number (R291). -/
def digest128 (bs : Bytes) : Nat := beVal ((sha384 bs).take 16)

/-- A contribution (R291). -/
def contribution (id idx : Nat) (bytes : Bytes) : Nat := digest128 (le 2 id ++ le 4 idx ++ bytes)

/-- The second copy of an entry under way to another place: it contributes once. -/
def isOldCopy (s : State) (id idx : Nat) : Bool :=
  s.tbl.flips.any (fun m => m.id == id && m.path.getD (m.path.length - 2) 0 == idx)

/-- The valid entries of a table on an instance: index and contents. -/
def validEnts (s : State) (id inst : Nat) : List (Nat × Bytes) :=
  s.tbl.ents.filterMap (fun p =>
    if p.1 / 2 ^ 32 = id * 64 + inst && isValid p.2 && !isOldCopy s id (p.1 % 2 ^ 32)
    then some (p.1 % 2 ^ 32, p.2.bytes) else none)

/-- The digest of a table on an instance (R291-R293). -/
def tableDigest (s : State) (id inst : Nat) : Nat :=
  match tableInfo id with
  | none => 0
  | some t =>
    ((validEnts s id inst).filter (fun e => id ≠ 0x08 || bit (byteAt e.2 10).toNat 0)).foldl
      (fun d e => (d + contribution id (if t.keyLen = 0 then e.1 else 0xFFFFFFFF)
        (maskEntry id (cut e.2 0 t.size))) % 2 ^ 128) 0

/-- A register that the register-set digest leaves out (R294, R645). -/
def undigested (r : Reg) : Bool :=
  r == .originFleet || r == .originStack || r == .imgSvnFloor || r == .pmcSel || r == .pmcFilt ||
    r == .pmcAddrBase || r == .pmcAddrMask || r == .subportMac

/-- The bits of a register that enter the register-set digest: its RWO fields, and MODE and LANE_MAP of
PORT_CFG (R645). -/
def digestMask (r : Reg) : Nat :=
  if undigested r then 0 else if r = .portCfg then r.mask .rwo + r.mask .ro else r.mask .rwo

/-- The contributions of one register: each 4-B word with such a field (R645). -/
def regContribution (s : State) (r : Reg) (i : Nat) : Nat :=
  let m := digestMask r
  let v := regVal s r i &&& m
  (if m % 2 ^ 32 = 0 then 0 else contribution 0xFFFF (r.off i) (le 4 v)) +
    (if m / 2 ^ 32 = 0 then 0 else contribution 0xFFFF (r.off i + 4) (le 4 (v / 2 ^ 32)))

/-- The register-set digest (R294, R645). -/
def regDigest (s : State) : Nat :=
  (((List.range 17).flatMap blockRegs).filter (fun r => digestMask r != 0)).foldl
    (fun d r => (List.range r.count).foldl (fun d i => (d + regContribution s r i) % 2 ^ 128) d) 0

/-- The digest of every instance of every table, tables and instances ascending (R294). -/
def instDigests (s : State) : List (Nat × List Nat) :=
  tableIds.map (fun id => match tableInfo id with
    | some t => (id, (upFrom t.first t.insts).map (tableDigest s id))
    | none => (id, []))

/-- The device digest (R294). -/
def deviceDigest (tables : List (Nat × List Nat)) (regs : Nat) : Nat :=
  digest128 (tables.flatMap (fun p => le 2 p.1 ++ be 16 (p.2.headD 0)) ++ [0xFF, 0xFF] ++ be 16 regs)

/-- The bitmap of the tables whose instances disagree: bit id (R294). -/
def disagreement (tables : List (Nat × List Nat)) : Nat :=
  (tables.filter (fun p => p.2.any (fun d => d != p.2.headD 0))).foldl (fun n p => n + 2 ^ p.1) 0

/-- The result of DIGEST_READ: epoch, device digest, register-set digest, each instance's digest, and the
bitmap of disagreeing tables (R293, R294; log 53). -/
def digestBlock (s : State) : Bytes :=
  let tables := instDigests s
  let regs := regDigest s
  le 4 s.tbl.epoch ++ be 16 (deviceDigest tables regs) ++ be 16 regs ++
    tables.flatMap (fun p => p.2.flatMap (be 16)) ++ le 32 (disagreement tables)

/-- DIGEST_READ (R293, R294, R645). -/
def execDigestRead (c : Cmd) (addr : BitVec 64) (s : State) : Host.Outcome State Fault Refusal :=
  runCommand c 0x0705 (fun _ s => .done { block := digestBlock s, addr := some addr.toNat } s) s

/-- A dynamic MAC entry that MAC_FLUSH names. -/
def flushes (sub ten : Option (BitVec 16)) (e : Nat × Bytes) : Bool :=
  !bit (byteAt e.2 10).toNat 0 &&
    (match sub with
      | some n => leAt e.2 8 2 % 4096 == n.toNat
      | none => true) &&
    (match ten with
      | some n => leAt e.2 6 2 == n.toNat
      | none => true)

/-- MAC_FLUSH (R278, R296): by subport, by tenant, or both; none stands for all. -/
def execMacFlush (c : Cmd) (sub ten : Option (BitVec 16)) (s : State) : Host.Outcome State Fault Refusal :=
  runCommand c 0x0706 (fun _ s =>
    if instBusy s 0 then .wait
    else
      let xs := (validEnts s 0x08 0).filter (flushes sub ten)
      let t : TableInfo := { count := 4194304, size := 16, keyLen := 8 }
      .done { result := xs.length } (xs.foldl (fun s e => modKey s 0x08 t e.2 (fun _ => {})) s))
    s

end Sys2Proof.Machine
end

