-- ==== Sys2Proof/Machine/Learn.lean ====
section
/-! DEFINITION. MAC learning, moves and ageing (R272-R278), relocations in hashed tables (R264) and
repointing (R288-R290). -/

namespace Sys2Proof.Machine

/-- The MAC table (R263, R266). -/
def macInfo : TableInfo := { count := 4194304, size := 16, keyLen := 8 }

/-- The time of MAC entries: us modulo 2^22 (R266). -/
def macTime (s : State) : Nat := timeNs s / 1000 % 2 ^ 22

/-- Microseconds between two such times (R276). -/
def macSince (now t : Nat) : Nat := wrapSub 22 now t

/-- MOVE_HOLD_US (R295) as a frame of an epoch sees it (R22). -/
def moveHold (s : State) (ep : Nat) : Nat := regFieldAt s ep .learnCfg 0 16 16

/-- Direct mode: MODE of LEARN_CFG (R295) as a frame of an epoch sees it. -/
def directMode (s : State) (ep : Nat) : Bool := regFieldAt s ep .learnCfg 0 0 1 == 1

/-- The key of a MAC entry (R266). -/
def macKey (mac : Bytes) (ten : Nat) : Bytes := cut mac 0 6 ++ le 2 ten

/-- Destination, flags, candidate subport and time of a MAC entry (R266). -/
def macDest (b : Bytes) : Nat := leAt b 8 2 % 4096
/-- Byte 10 of a MAC entry: STATIC, HIT, AGE, CAND. -/
def macFlags (b : Bytes) : Nat := (byteAt b 10).toNat
/-- The candidate subport of a MAC entry. -/
def macCand (b : Bytes) : Nat := leAt b 12 4 % 512
/-- The time of a MAC entry. -/
def macStamp (b : Bytes) : Nat := leAt b 12 4 / 1024

/-- A dynamic MAC entry (R266). -/
def macEntry (mac : Bytes) (ten dest flags cand time : Nat) : Bytes :=
  macKey mac ten ++ le 2 dest ++ le 1 flags ++ [0] ++ le 4 (cand + time * 1024)

/-- Replaces flags, candidate and time of a MAC entry. -/
def macSet (b : Bytes) (dest flags cand time : Nat) : Bytes :=
  cut b 0 8 ++ le 2 (dest + leAt b 8 2 / 4096 * 4096) ++ le 1 flags ++ cut b 11 1 ++ le 4 (cand + time * 1024)

/-- Changes the contents of a key's MAC entry; state and stamp stay (R261). -/
def modMac (s : State) (key : Bytes) (f : Bytes → Bytes) : State :=
  modKey s 0x08 macInfo key (fun e => { e with bytes := f e.bytes })

/-- The dynamic entries that name a subport (R274). -/
def learnCount (s : State) (sub : Nat) : Nat :=
  ((validEnts s 0x08 0).filter (fun e => !bit (macFlags e.2) 0 && macDest e.2 == sub)).length

/-- A subport's learn count is at its LIMIT (R274, R295), as a frame of an epoch sees it. -/
def atLimit (s : State) (ep sub : Nat) : Bool :=
  let n := regFieldAt s ep .subportLearnCfg sub 0 20
  n != 0xFFFFF && decide (n ≤ learnCount s sub)

/-- Posts station-move (R276, R297): outcomes 0 HELD, 1 MOVED, 2 REFUSED, 3 STATIC. -/
def postMove (s : State) (mac : Bytes) (ten old new outcome : Nat) : State :=
  postEvent s 0x07 2 (subOrigin s new) (cut mac 0 6 ++ le 2 ten ++ le 2 old ++ le 2 new ++ le 1 outcome)

/-- A sighting of a dynamic entry's MAC on another subport (R276). -/
inductive Sighting where
  /-- Within the hold, no candidate: the subport becomes the candidate. -/
  | held
  /-- A third subport: no change, counted. -/
  | third
  /-- The candidate again, too early. -/
  | early
  /-- The entry moves. -/
  | moves
  deriving DecidableEq, Repr

/-- What a sighting on subport `n` does, from the candidate with its time, if any, and the time of the learn or last
move (R276). -/
def sighting (s : State) (ep n : Nat) (cand : Option (Nat × Nat)) (time : Nat) : Sighting :=
  let now := macTime s
  match cand with
  | none => if macSince now time < moveHold s ep then .held else .moves
  | some (c, t) => if c ≠ n then .third else if macSince now t < moveHold s ep then .early else .moves

/-- Software is writing or deleting the entry of a MAC key: its command has not come to the write step (R277). -/
def writingKey (s : State) (key : Bytes) : Bool :=
  s.tbl.waits.any (fun w => w.ops.any (fun o => o.id == 0x08 && cut o.bytes 0 8 == key)) ||
    s.tbl.flips.any (fun m => m.id == 0x08 && cut m.bytes 0 8 == key && (match m.who with
      | .command _ => true
      | .learn _ _ => false))

/-- An entry moves to subport `n`, or is refused at LIMIT; in notify mode the event is posted and nothing
changes (R276).  A move of a key that software is writing is discarded and counted (R277). -/
def moveEntry (s : State) (ep : Nat) (mac : Bytes) (ten n : Nat) (b : Bytes) : State :=
  let old := macDest b
  if writingKey s (macKey mac ten) then count s 11 0 4 1
  else if directMode s ep = false then postMove (count s 1 n 38 1) mac ten old n 1
  else if atLimit s ep n then postMove s mac ten old n 2
  else
    let s := modMac s (macKey mac ten) (fun b => macSet b n (macFlags b % 8) 0 (macTime s))
    postMove (count s 1 n 38 1) mac ten old n 1

/-- A dynamic entry is sighted on another subport (R276). -/
def sightEntry (s : State) (ep : Nat) (mac : Bytes) (ten n : Nat) (b : Bytes) : State :=
  let cand := if bit (macFlags b) 3 then some (macCand b, macStamp b) else none
  match sighting s ep n cand (macStamp b) with
  | .held =>
    let s := modMac s (macKey mac ten) (fun b => macSet b (macDest b) (macFlags b % 8 + 8) n (macTime s))
    postMove s mac ten (macDest b) n 0
  | .third => count s 1 n 38 1
  | .early => s
  | .moves => moveEntry s ep mac ten n b

/-- A key of the learn unit. -/
def Learn.is (l : Learn) (mac : Bytes) (ten : Nat) : Bool := l.mac == cut mac 0 6 && l.tenant == ten

/-- A key in flight or pending is sighted on another subport (R276): the learn unit's own entry is
changed. -/
def sightLearn (s : State) (ep : Nat) (l : Learn) (n : Nat) (direct : Bool) : State × Learn :=
  match sighting s ep n l.cand l.time with
  | .held => (postMove s l.mac l.tenant l.sub n 0, { l with cand := some (n, macTime s) })
  | .third => (count s 1 n 38 1, l)
  | .early => (s, l)
  | .moves =>
    if direct then (s, { l with moveTo := some (n, ep) })
    else (postMove (count s 1 n 38 1) l.mac l.tenant l.sub n 1, l)

/-- A miss of the source lookup in direct mode (R273, R274). -/
def missDirect (s : State) (fid ep : Nat) (mac : Bytes) (ten sub : Nat) : State :=
  match s.tbl.flight.find? (fun l => l.is mac ten) with
  | some l =>
    if l.sub = sub then s
    else
      let (s, l') := sightLearn s ep l sub true
      s.withTbl { s.tbl with flight := s.tbl.flight.map (fun x => if x.is mac ten then l' else x) }
  | none =>
    if 1024 ≤ s.tbl.flight.length then count s 11 0 2 1
    else s.withTbl { s.tbl with flight := s.tbl.flight ++
      [{ mac := cut mac 0 6, tenant := ten, sub := sub, time := macTime s, moveTo := none, cand := none,
         fid := fid, epoch := ep }] }

/-- A miss of the source lookup in notify mode (R275). -/
def missNotify (s : State) (fid ep : Nat) (mac : Bytes) (ten sub : Nat) : State :=
  match s.tbl.pend.find? (fun l => l.is mac ten) with
  | some l =>
    if l.sub = sub then s
    else
      let (s, l') := sightLearn s ep l sub false
      s.withTbl { s.tbl with pend := s.tbl.pend.map (fun x => if x.is mac ten then l' else x) }
  | none =>
    if 4096 ≤ s.tbl.pend.length then count s 11 0 3 1
    else
      let s := s.withTbl { s.tbl with pend := s.tbl.pend ++
        [{ mac := cut mac 0 6, tenant := ten, sub := sub, time := macTime s, moveTo := none, cand := none,
           fid := fid, epoch := ep }] }
      postEvent s 0x07 1 (subOrigin s sub) (cut mac 0 6 ++ le 2 ten ++ le 2 sub)

/-- The source lookup of a frame of a subport (R272). -/
def sourceLookup (s : State) (fid : Nat) (f : Frame) (sub : Nat) : State :=
  if regFieldAt s f.epoch .subportLearnCfg sub 20 1 = 0 then s
  else
    let mac := f.parse.smac
    match hashedRead s f.epoch 0x08 (macKey mac f.tenant) with
    | some (_, b) =>
      if macDest b = sub then
        modMac s (macKey mac f.tenant) (fun b => macSet b (macDest b) (macFlags b ||| 2) (macCand b) (macStamp b))
      else if bit (macFlags b) 0 then postMove (count s 1 sub 37 1) mac f.tenant (macDest b) sub 3
      else sightEntry s f.epoch mac f.tenant sub b
    | none =>
      if directMode s f.epoch then missDirect s fid f.epoch mac f.tenant sub else missNotify s fid f.epoch mac f.tenant sub

/-- A refused learn (R274): counted, learn-refused at most once for each subport and 1-ms interval, and
with EXCESS 0 the frame is to be dropped; cause 0 limit, 1 table full. -/
def refuseLearn (s : State) (l : Learn) (cause : Nat) : State :=
  let s := count s 1 l.sub 39 1
  let s := if getAt false s.tbl.learnEvt l.sub then s
    else
      let s := s.withTbl { s.tbl with learnEvt := setAt false s.tbl.learnEvt l.sub true }
      postEvent s 0x07 3 (subOrigin s l.sub) (l.mac ++ le 2 l.tenant ++ le 1 cause)
  if regFieldAt s l.epoch .subportLearnCfg l.sub 21 1 = 1 then s
  else match frameAt s l.fid with
    | some f => setFrame s l.fid (some { f with learnDrop := true })
    | none => s

/-- A key leaves the learn unit's flight. -/
def dropFlight (s : State) (l : Learn) : State :=
  s.withTbl { s.tbl with flight := s.tbl.flight.filter (fun x => !x.is l.mac l.tenant) }

/-- A learned key takes the free entry at an index: present for every frame (R261; log 54), with the candidate
recorded while it was in flight, or moved at once (R274, R276). -/
def learnPlace (s : State) (l : Learn) (idx : Nat) : State :=
  let b := match l.cand with
    | some (c, t) => macEntry l.mac l.tenant l.sub 0x0A c t
    | none => macEntry l.mac l.tenant l.sub 0x02 0 l.time
  let s := setEnt (dropFlight s l) 0x08 0 idx { st := .valid s.tbl.epoch, settled := true, bytes := b }
  match l.moveTo with
  | some (n, ep) => moveEntry s ep l.mac l.tenant n b
  | none => s

/-- Software has written, or is writing, an entry for a learned key (R277). -/
def writtenFor (s : State) (l : Learn) : Bool :=
  (keyPlace s 0x08 macInfo (macKey l.mac l.tenant)).isSome || writingKey s (macKey l.mac l.tenant)

/-- LEARN_INSERT_DONE (R273, R274, R277): the insertion of a key in flight ends. -/
def execLearnInsertDone (mac : Bytes) (ten : BitVec 16) (s : State) : Host.Outcome State Fault Refusal :=
  match s.tbl.flight.find? (fun l => l.is mac ten.toNat) with
  | none => .next s
  | some l =>
    if s.tbl.flips.any (fun m => m.who == .learn l.mac l.tenant) then .next s
    else if writtenFor s l then .next (dropFlight (count s 11 0 4 1) l)
    else if atLimit s l.epoch l.sub then .next (dropFlight (refuseLearn s l 0) l)
    else match placeFor s 0x08 macInfo (macKey l.mac l.tenant) with
      | none => .next (dropFlight (refuseLearn s l 1) l)
      | some [i] => .next (learnPlace s l i)
      | some path =>
        .next (startMove s { id := 0x08, path := path, bytes := macKey l.mac l.tenant, who := .learn l.mac l.tenant })

/-- A relocation path is done: the entry at its start is free for the key it was made for. -/
def pathDone (s : State) (m : HashedMove) : State :=
  let i := m.path.headD 0
  match m.who with
  | .command aseq =>
    let s := writeValidate s 0 m.id i m.bytes
    finish s aseq { result := s.tbl.epoch }
  | .learn mac ten =>
    match s.tbl.flight.find? (fun l => l.is mac ten) with
    | some l => if writtenFor s l then dropFlight (count s 11 0 4 1) l else learnPlace s l i
    | none => s

/-- HASHED_MOVE_FLIP (R264, R185): the old copy of a moved entry is invalidated, and the next move of its path
begins, or the key takes the freed entry. -/
def execHashedMoveFlip (id : BitVec 8) (src : Nat) (s : State) : Host.Outcome State Fault Refusal :=
  match s.tbl.flips.find? (fun m => m.id == id.toNat && m.path.getD (m.path.length - 2) 0 == src) with
  | none => .next s
  | some m =>
    let s := s.withTbl { s.tbl with flips := s.tbl.flips.filter (fun x => x != m) }
    let s := setEnt s m.id 0 src {}
    let m' := { m with path := m.path.dropLast, held := m.path.getD (m.path.length - 1) 0 :: m.held }
    if m'.path.length ≤ 1 then .next (pathDone s m') else .next (startMove s m')

/-- PENDING_ENTRY_EXPIRE (R275): a pending entry ends PENDING_MS after it was made. -/
def execPendingEntryExpire (mac : Bytes) (ten : BitVec 16) (s : State) : Host.Outcome State Fault Refusal :=
  .next (s.withTbl { s.tbl with pend := s.tbl.pend.filter (fun l => !l.is mac ten.toNat) })

/-- MOVE_CANDIDATE_EXPIRE (R276): a candidate not confirmed within 4 × MOVE_HOLD_US is cleared. -/
def execMoveCandidateExpire (mac : Bytes) (ten : BitVec 16) (s : State) : Host.Outcome State Fault Refusal :=
  let clear (l : Learn) : Learn := if l.is mac ten.toNat then { l with cand := none } else l
  let s := s.withTbl { s.tbl with flight := s.tbl.flight.map clear, pend := s.tbl.pend.map clear }
  .next (modMac s (macKey mac ten.toNat) (fun b =>
    if bit (macFlags b) 3 then macSet b (macDest b) (macFlags b % 8) 0 (macStamp b) else b))

/-- MAC_SWEEP_VISIT (R278, R250): the two-pass rule on a dynamic entry. -/
def execMacSweepVisit (idx : Nat) (s : State) : Host.Outcome State Fault Refusal :=
  let e := entAt s 0x08 0 idx
  let b := e.bytes
  let fl := macFlags b
  if regField s .learnCfg 0 1 1 = 0 || !isValid e || bit fl 0 then .next s
  else
    let key := cut b 0 8
    let put (fl : Nat) : State := modMac s key (fun b => macSet b (macDest b) fl (macCand b) (macStamp b))
    if bit fl 1 then .next (put (fl - fl / 2 % 4 * 2))
    else if bit fl 2 = false then .next (put (fl + 4))
    else
      let s' := modKey s 0x08 macInfo key (fun _ => {})
      if directMode s s.tbl.epoch then .next s'
      else .next (postEvent s' 0x07 4 (origin s' 28 0 0 0) (cut b 0 8 ++ le 2 (macDest b)))

/-! Repointing (R288-R290). -/

/-- Posts repoint (R297): outcome 0 CORRECTED, 1 UNCORRECTABLE. -/
def postRepoint (s : State) (unit id idx outcome : Nat) : State :=
  postEvent s 0x07 5 (origin s 28 unit 0 0) (le 2 id ++ le 4 idx ++ le 1 outcome)

/-- Repointing runs: REPOINT_EN (R295). -/
def repointing (s : State) : Bool := regField s .tableSearchCfg 0 16 1 == 1

/-- REPOINT_COMPARE (R288-R290): a slot of an LPM or ACL instance as found; a slot that differs from its shadow is
rewritten, and an uncorrectable shadow leaves it untouched. -/
def execRepointCompare (inst : BitVec 8) (slot : Nat) (found : Bytes) (shadowBad : Bool) (s : State) :
    Host.Outcome State Fault Refusal :=
  let id := if inst.toNat < 0x20 then 0x10 else 0x20
  match targetOf inst.toNat id with
  | none => .next s
  | some t =>
    let e := entAt s id inst.toNat slot
    if repointing s = false ∨ t.count ≤ slot then .next s
    else match e.st with
      | .retiring _ => .next s
      | _ =>
        if shadowBad then .next (postRepoint (count s 11 inst.toNat 1 1) inst.toNat id slot 1)
        else if cut found 0 t.size = cut e.bytes 0 t.size then .next s
        else .next (postRepoint (count s 11 inst.toNat 0 1) inst.toNat id slot 0)

/-- EM_SCRUB_READ (R288, R290): an entry of the exact-match SRAM is read through SECDED; an uncorrectable entry
becomes EMPTY, an uncorrectable shadow leaves its slot untouched. -/
def execEmScrubRead (id inst : BitVec 8) (idx : Nat) (r : ReadOutcome) (s : State) :
    Host.Outcome State Fault Refusal :=
  match targetOf inst.toNat id.toNat with
  | none => .next s
  | some t =>
    if repointing s = false ∨ 0x30 ≤ id.toNat ∨ t.count ≤ idx then .next s
    else match r with
      | .clean => .next s
      | .corrected => .next (postRepoint (count s 11 0 0 1) 0 id.toNat idx 0)
      | .uncorrectable =>
        let s := postRepoint (count s 11 0 1 1) 0 id.toNat idx 1
        if 0x10 ≤ id.toNat then .next s else .next (setEnt s id.toNat inst.toNat idx {})

end Sys2Proof.Machine
end

