-- ==== Sys2Proof/Machine/FlowBase.lean ====
section
/-! DEFINITION. The flow store's data (05): geometry, index and directory entries, records, extensions and cold
records, slots, and the per-tenant counts (R153-R170, R188-R191, R195, R205, R214). -/

namespace Sys2Proof.Machine

/-! Geometry (R153-R158, R168, R191). -/

/-- NBA: buckets of the index (R168). -/
def nba (s : State) : Nat := if s.fs.half then 2 ^ 23 else 2 ^ 24

/-- NBB: buckets of the directory (R191). -/
def nbb (s : State) : Nat := 2 ^ 21 * s.fs.tbSize

/-- The pier of a slot (R155, R158). -/
def slotPier (s : State) (slot : Nat) : Nat := slot / pierSlots s % 4

/-- The pier of a bucket (R155, R158). -/
def bucketPier (s : State) (b : Nat) : Nat := b / (nba s / 4) % 4

/-- The pier-local address of a bucket (R154, R158). -/
def bucketAddr (s : State) (b : Nat) : Nat :=
  (if s.fs.half then 0x20000000 else 0x40000000) + b % (nba s / 4) * 64

/-- The pier-local address of a record (R154, R158). -/
def recordAddr (s : State) (slot : Nat) : Nat := slot % pierSlots s * 128

/-- The pier-local address of an extension entry (R154, R158). -/
def extAddr (s : State) (slot : Nat) : Nat :=
  (if s.fs.half then 0x28000000 else 0x50000000) + slot % pierSlots s * 32

/-- A course of a pier. -/
def courseOf (s : State) (pier c : Nat) : Course := getAt {} s.fs.courses (7 * pier + c)

/-- Writes a course. -/
def setCourse (s : State) (pier c : Nat) (x : Course) : State :=
  s.withFs { s.fs with courses := setAt {} s.fs.courses (7 * pier + c) x }

/-- Banks that the granules of a pier are spread over (R156, R158). -/
def bankCount (s : State) : Nat := if s.fs.half then 192 else 384

/-- The course that a pier-local address lies in by R156. -/
def homeCourse (s : State) (addr : Nat) : Nat := addr / 64 % bankCount s / 64

/-- The number of a granule in the order in which a rebuild copies its course: bank by bank, offsets
ascending (R156, R574). -/
def rebuildIndex (s : State) (addr : Nat) : Nat := 65536 * (addr / 64 % bankCount s % 64) + addr / 64 / bankCount s

/-- The course that serves an address: course 6 for a retired course and for the granules that a rebuild has
copied (R574, R577). -/
def servingCourse (s : State) (pier addr : Nat) : Nat :=
  let k := homeCourse s addr
  let c := courseOf s pier k
  let six := courseOf s pier 6
  if six.standing = some k ∧ (c.retired ∨ (c.rebuilding ∧ rebuildIndex s addr < c.copied)) then 6 else k

/-- The origin code of a pier and course for an address (R210). -/
def pierOrigin (s : State) (pier addr : Nat) : Nat := origin s (20 + pier) (servingCourse s pier addr) 0 0

/-- Counts a bank access that the work of a plane has caused: 0 data, 1 control (R614, R615). -/
def bankAccessBy (s : State) (plane pier addr : Nat) : State :=
  countPmc s { code := 0x07, block := 20 + pier, unit := some (servingCourse s pier addr), plane := plane, addr := some addr } 1

/-- Counts a bank access of the data plane (R614). -/
def bankAccess (s : State) (pier addr : Nat) : State := bankAccessBy s 0 pier addr

/-- Counts a corrected error of a read in its course (R157). -/
def courseCorrected (s : State) (pier addr : Nat) : State :=
  let c := servingCourse s pier addr
  let x := courseOf s pier c
  count (setCourse s pier c { x with window := x.window + 1 }) 10 pier c 1

/-- An uncorrectable read: the course's counter and pier-error (R177, R210); `rec` says that it was a record. -/
def courseUncorrectable (s : State) (pier addr : Nat) (rec : Bool) : State :=
  postEvent (count s 10 pier (7 + servingCourse s pier addr) 1) 0x05 2 (pierOrigin s pier addr)
    (le 8 addr ++ le 1 (flag rec))

/-! Hash pair and buckets (R167, R168). -/

/-- H1 of a key. -/
def hash1 (s : State) (key : Bytes) : Nat := (flowHash (cut key 0 40) polyA s.fs.seedA).toNat

/-- H2 of a key. -/
def hash2 (s : State) (key : Bytes) : Nat := (flowHash (cut key 0 40) polyB s.fs.seedB).toNat

/-- Primary bucket, alternate bucket and tag of a key in the index (R168). -/
def flowBuckets (s : State) (key : Bytes) : Nat × Nat × Nat := hashBuckets (hash1 s key) (hash2 s key) (nba s)

/-- Primary bucket, alternate bucket and tag of a key in the directory (R191). -/
def dirBuckets (s : State) (key : Bytes) : Nat × Nat × Nat :=
  let h1 := hash1 s key
  let tag := bits (hash2 s key) 24 24
  let m := (tag * 0x5BD1E9) % 2 ^ 24 ||| 1
  let p := bits h1 32 32 * nbb s / 2 ^ 32
  (p, (p + m) % nbb s, tag)

/-- The odd offset of a tag (R168). -/
def tagStep (tag : Nat) : Nat := (tag * 0x5BD1E9) % 2 ^ 24 ||| 1

/-- The other bucket of an entry, from its bucket, tag and CHOICE (R168). -/
def otherOf (n b tag : Nat) (alt : Bool) : Nat :=
  if alt then (b + n - tagStep tag % n) % n else (b + tagStep tag) % n

/-- The home cluster of a key (R170). -/
def homeCluster (s : State) (key : Bytes) : Nat := bits (hash1 s (canonicalKey key)) 60 4

/-! Index entries (R165). -/

/-- TAG. -/
def ixTag (e : Nat) : Nat := bits e 0 24
/-- SLOT. -/
def ixSlot (e : Nat) : Nat := bits e 24 25
/-- VALID. -/
def ixValid (e : Nat) : Bool := bit e 49
/-- MOVING. -/
def ixMoving (e : Nat) : Bool := bit e 50
/-- DIR. -/
def ixDir (e : Nat) : Nat := bits e 51 1
/-- CHOICE. -/
def ixChoice (e : Nat) : Bool := bit e 52
/-- PEND. -/
def ixPend (e : Nat) : Bool := bit e 53
/-- GEN_LO. -/
def ixGen (e : Nat) : Nat := bits e 54 4
/-- QUAR. -/
def ixQuar (e : Nat) : Bool := bit e 58

/-- A valid index entry in its primary bucket. -/
def ixMake (tag slot dir gen : Nat) (pend : Bool) : Nat :=
  tag % 2 ^ 24 + 2 ^ 24 * (slot % 2 ^ 25) + 2 ^ 49 + 2 ^ 51 * (dir % 2) + 2 ^ 53 * flag pend + 2 ^ 54 * (gen % 16)

/-- An entry with a bit set or cleared. -/
def ixBit (e i : Nat) (v : Bool) : Nat := putBits e i 1 (flag v)

/-- An index entry by its key, 8 × bucket + entry. -/
def idxAt (s : State) (k : Nat) : Nat := getAt 0 s.fs.idx k

/-- Writes an index entry. -/
def setIdx (s : State) (k e : Nat) : State := s.withFs { s.fs with idx := setAt 0 s.fs.idx k e }

/-- The keys of a bucket's entries. -/
def bucketKeys (b : Nat) : List Nat := upFrom (8 * b) 8

/-- The spill count of a bucket (R166). -/
def spillAt (s : State) (b : Nat) : Nat := getAt 0 s.fs.spill b

/-- The spill count rises; at 15 it stays (R166). -/
def spillUp (s : State) (b : Nat) : State :=
  s.withFs { s.fs with spill := setAt 0 s.fs.spill b (min (spillAt s b + 1) 15) }

/-- The spill count falls, unless it has reached 15 (R166). -/
def spillDown (s : State) (b : Nat) : State :=
  if spillAt s b = 15 then s else s.withFs { s.fs with spill := setAt 0 s.fs.spill b (spillAt s b - 1) }

/-- The primary bucket of an index entry (R168). -/
def ixPrimary (s : State) (k e : Nat) : Nat :=
  if ixChoice e then otherOf (nba s) (k / 8) (ixTag e) true else k / 8

/-- An index entry is invalidated; the spill count of its primary bucket falls with an entry in its alternate
bucket (R166). -/
def dropIdx (s : State) (k : Nat) : State :=
  let e := idxAt s k
  if ixValid e = false then s
  else
    let s' := setIdx s k 0
    if ixChoice e then spillDown s' (ixPrimary s k e) else s'

/-! Directory entries (R191). -/

/-- CSLOT. -/
def dxSlot (e : Nat) : Nat := bits e 24 33
/-- VALID. -/
def dxValid (e : Nat) : Bool := bit e 57
/-- MOVING. -/
def dxMoving (e : Nat) : Bool := bit e 58
/-- DIR. -/
def dxDir (e : Nat) : Nat := bits e 59 1
/-- CHOICE. -/
def dxChoice (e : Nat) : Bool := bit e 60
/-- BAD. -/
def dxBad (e : Nat) : Bool := bit e 61

/-- A valid directory entry in its primary bucket. -/
def dxMake (tag cold dir : Nat) : Nat :=
  tag % 2 ^ 24 + 2 ^ 24 * (cold % 2 ^ 33) + 2 ^ 57 + 2 ^ 59 * (dir % 2)

/-- A directory entry by its key, 8 × bucket + entry. -/
def dirAt (s : State) (k : Nat) : Nat := getAt 0 s.fs.dir k

/-- Writes a directory entry. -/
def setDir (s : State) (k e : Nat) : State :=
  (ddrWrite s (dirAddr s (k / 8)) 64).withFs { s.fs with dir := setAt 0 s.fs.dir k e }

/-! Records, extensions and cold records (R159, R163, R190). -/

/-- A record by its slot. -/
def recAt (s : State) (slot : Nat) : Bytes := cut (getAt [] s.fs.recs slot) 0 128

/-- Writes a record. -/
def setRec (s : State) (slot : Nat) (b : Bytes) : State :=
  s.withFs { s.fs with recs := setAt [] s.fs.recs slot (cut b 0 128) }

/-- An extension entry by its slot. -/
def extAt (s : State) (slot : Nat) : Bytes := cut (getAt [] s.fs.ext slot) 0 32

/-- Writes an extension entry. -/
def setExt (s : State) (slot : Nat) (b : Bytes) : State :=
  s.withFs { s.fs with ext := setAt [] s.fs.ext slot (cut b 0 32) }

/-- Key of a record by direction: 0 forward, 1 return. -/
def recKey (r : Bytes) (dir : Nat) : Bytes := cut r (40 * dir) 40
/-- Tracking state. -/
def recState (r : Bytes) : Nat := (byteAt r 104).toNat % 16
/-- Record flags: OVERFLOW 0, PINNED 1, MIRROR 2, SYN_COOKIE 3. -/
def recFlags (r : Bytes) : Nat := (byteAt r 105).toNat
/-- Tenant. -/
def recTenant (r : Bytes) : Nat := leAt r 106 2
/-- Tenant class. -/
def recClass (r : Bytes) : Nat := (byteAt r 108).toNat
/-- Generation. -/
def recGen (r : Bytes) : Nat := leAt r 110 2
/-- Packet counter. -/
def recPackets (r : Bytes) : Nat := leAt r 112 5
/-- Byte counter. -/
def recOctets (r : Bytes) : Nat := leAt r 117 6
/-- Byte 123: HIT 0, HIT_RET 1, AGE 2, owner device 5 to 4. -/
def recHits (r : Bytes) : Nat := (byteAt r 123).toNat
/-- Owner device in a stack. -/
def recOwner (r : Bytes) : Nat := bits (recHits r) 4 2
/-- Last-hit time. -/
def recLast (r : Bytes) : Nat := leAt r 124 4

/-- COLD_VALID and the cold slot of an extension entry. -/
def extCold (x : Bytes) : Option Nat :=
  let v := leAt x 20 5
  if bit v 39 then some (bits v 0 33) else none

/-- An extension entry with a cold slot. -/
def extSetCold (x : Bytes) (cold : Option Nat) : Bytes :=
  paste x 20 (le 5 (match cold with
    | some c => c % 2 ^ 33 + 2 ^ 39
    | none => 0))

/-- A record with counters replaced. -/
def recSetCounts (r : Bytes) (packets octets : Nat) : Bytes := paste r 112 (le 5 packets ++ le 6 octets)

/-- A cold record by its slot: 256 B. -/
def coldAt (s : State) (c : Nat) : Bytes := cut (getAt [] s.fs.cold c) 0 256

/-- The check field over bytes 0-247 (R190). -/
def coldCheck (b : Bytes) : Bytes := le 8 (flowHash (cut b 0 248) polyB 0).toNat

/-- A cold record from record, extension, demotion and promotion-refused times, and flags: LIVE 0,
NO_PROMOTE 1 (R190). -/
def coldMake (r x : Bytes) (demoted refused flags : Nat) : Bytes :=
  let b := cut r 0 128 ++ cut x 0 32 ++ le 4 demoted ++ le 4 refused ++ le 1 flags ++ List.replicate 79 0
  b ++ coldCheck b

/-- Writes a cold record. -/
def setCold (s : State) (c : Nat) (b : Bytes) : State :=
  (ddrWrite s (coldAddr s c) 256).withFs { s.fs with cold := setAt [] s.fs.cold c b }

/-- The record of a cold record. -/
def coldRec (b : Bytes) : Bytes := cut b 0 128
/-- The extension of a cold record. -/
def coldExt (b : Bytes) : Bytes := cut b 128 32
/-- The demotion time. -/
def coldDemoted (b : Bytes) : Nat := leAt b 160 4
/-- The promotion-refused time. -/
def coldRefused (b : Bytes) : Nat := leAt b 164 4
/-- Flags: LIVE 0, NO_PROMOTE 1. -/
def coldFlags (b : Bytes) : Nat := (byteAt b 168).toNat
/-- LIVE. -/
def coldLive (b : Bytes) : Bool := bit (coldFlags b) 0

/-- Changes record and extension of a cold record; the check follows. -/
def modCold (s : State) (c : Nat) (f : Bytes → Bytes → Bytes × Bytes) : State :=
  let b := coldAt s c
  let x := f (coldRec b) (coldExt b)
  setCold s c (coldMake x.1 x.2 (coldDemoted b) (coldRefused b) (coldFlags b))

/-- Changes the flags of a cold record. -/
def setColdFlags (s : State) (c flags : Nat) : State :=
  let b := coldAt s c
  setCold s c (coldMake (coldRec b) (coldExt b) (coldDemoted b) (coldRefused b) flags)

/-! Slots (R188, R195). -/

/-- The pier that gives a slot to a forward key: that of its primary bucket, or else the one with the most
free slots, the lowest of several (R188). -/
def allocPier (s : State) (key : Bytes) : Option Nat :=
  let p := bucketPier s (flowBuckets s key).1
  if pierFree s p ≠ 0 then some p
  else
    let best := (List.range 4).foldl (fun b q => if pierFree s b < pierFree s q then q else b) 0
    if pierFree s best = 0 then none else some best

/-- Allocates a slot with its new generation (R188). -/
def allocSlot (s : State) (key : Bytes) : Option (State × Nat × Nat) :=
  match allocPier s key with
  | none => none
  | some p =>
    let x := pierAt s p
    let (n, x) := if x.fresh < pierSlots s then (x.fresh, { x with fresh := x.fresh + 1 })
      else (x.freed.headD 0, { x with freed := x.freed.tail })
    let slot := p * pierSlots s + n
    let gen := (recGen (recAt s slot) + 1) % 2 ^ 16
    some (setRec (setPier s p x) slot (paste (recAt s slot) 110 (le 2 gen)), slot, gen)

/-- Frees a slot to its pier's list; it keeps its generation (R188). -/
def freeSlot (s : State) (slot : Nat) : State :=
  let p := slotPier s slot
  let x := pierAt s p
  setPier s p { x with freed := x.freed ++ [slot % pierSlots s] }

/-- Allocates a cold slot: ascending until the region has been used once, then freed ones; freed ones in a band are
discarded (R195, R508). -/
def allocCold (s : State) : Option (State × Nat) :=
  if s.fs.coldNext < coldLimit s then
    some (s.withFs { s.fs with coldNext := s.fs.coldNext + 1 }, s.fs.coldNext)
  else match s.fs.coldFree.filter (fun c => decide (c < coldLimit s)) with
    | c :: cs => some (s.withFs { s.fs with coldFree := cs }, c)
    | [] => none

/-- Frees a cold slot to the chain of R190: LIVE is cleared. -/
def freeCold (s : State) (c : Nat) : State :=
  let b := coldAt s c
  let s := setCold s c (coldMake (coldRec b) (coldExt b) (coldDemoted b) (coldRefused b) (coldFlags b / 2 * 2))
  s.withFs { s.fs with coldFree := s.fs.coldFree ++ [c], coldFullPosted := false }

/-! The chains of free records (R188, R190). -/

/-- What follows a slot in its pier's free list, which runs through the slots never used and then the freed ones: the next
local slot, or 0xFFFFFFFF at the end. -/
def nextFree (s : State) (slot : Nat) : Option Nat :=
  let p := pierAt s (slotPier s slot)
  let n := slot % pierSlots s
  if !s.fs.formatted then none
  else if p.fresh ≤ n then some (if n + 1 < pierSlots s then n + 1 else p.freed.headD 0xFFFFFFFF)
  else if p.freed.contains n then some (((p.freed.dropWhile (· != n)).drop 1).headD 0xFFFFFFFF)
  else none

/-- A record as it is read: bytes 0-3 of a free one hold the next free local slot (R188). -/
def recView (s : State) (slot : Nat) : Bytes :=
  match nextFree s slot with
  | some n => paste (recAt s slot) 0 (le 4 n)
  | none => recAt s slot

/-- A cold record as it is read: bytes 0-7 of a freed one hold the next free cold slot, or all ones (R190). -/
def coldView (s : State) (c : Nat) : Bytes :=
  if s.fs.coldFree.contains c then
    paste (coldAt s c) 0 (le 8 (((s.fs.coldFree.dropWhile (· != c)).drop 1).headD (2 ^ 64 - 1)))
  else coldAt s c

/-! Counts of tenants. -/

/-- The record count of a tenant. -/
def tenCount (s : State) (t : Nat) : Nat := getAt 0 s.ten.count t

/-- The tier-B count of a tenant. -/
def tierBCount (s : State) (t : Nat) : Nat := getAt 0 s.ten.tierB t

/-- The quota of a tenant in records, by its entry for the current epoch or SETUP_QUOTA_DEF; `none` is no
quota (R212, R214). -/
def quotaOf (s : State) (t : Nat) : Option Nat :=
  let d := regField s .setupQuotaDef 0 0 32
  let q := match tableNow s 0x06 0 t with
    | some b => if leVal b = 0 then d else leAt b 4 4
    | none => d
  if q = 0xFFFFFFFF then none else some (4 * q)

/-- Posts quota-reached or quota-restored (R216, R255). -/
def postQuota (s : State) (t num q : Nat) : State :=
  postEvent s 0x06 num (origin s 31 0 0 0) (le 2 t ++ le 8 (tenCount s t) ++ le 8 q)

/-- Quota-reached when the count first reaches the quota, quota-restored when it falls below seven eighths of
it (R216). -/
def checkQuota (s : State) (t : Nat) : State :=
  let mark (v : Bool) : State := s.withTen { s.ten with quotaHit := setAt false s.ten.quotaHit t v }
  match quotaOf s t with
  | none => s
  | some q =>
    if getAt false s.ten.quotaHit t then
      if 8 * tenCount s t < 7 * q then postQuota (mark false) t 4 q else s
    else if q ≤ tenCount s t then postQuota (mark true) t 3 q else s

/-- The record count of a tenant rises. -/
def tenUp (s : State) (t : Nat) : State :=
  checkQuota (s.withTen { s.ten with count := setAt 0 s.ten.count t (tenCount s t + 1) }) t

/-- The record count of a tenant falls, never below 0 (R214). -/
def tenDown (s : State) (t : Nat) : State :=
  checkQuota (s.withTen { s.ten with count := setAt 0 s.ten.count t (tenCount s t - 1) }) t

/-- The tier-B count of a tenant rises. -/
def tierBUp (s : State) (t : Nat) : State :=
  s.withTen { s.ten with tierB := setAt 0 s.ten.tierB t (tierBCount s t + 1) }

/-- The tier-B count of a tenant falls. -/
def tierBDown (s : State) (t : Nat) : State :=
  s.withTen { s.ten with tierB := setAt 0 s.ten.tierB t (tierBCount s t - 1) }

/-- Adds to a tenant's accounting totals (R242). -/
def account (s : State) (t packets octets : Nat) : State :=
  s.withTen { s.ten with
    packets := setAt 0 s.ten.packets t ((getAt 0 s.ten.packets t + packets) % 2 ^ 64)
    octets := setAt 0 s.ten.octets t ((getAt 0 s.ten.octets t + octets) % 2 ^ 64) }

/-! Finding records. -/

/-- The index entries of a slot: those in the buckets of its record's keys that name it. -/
def entriesOf (s : State) (slot : Nat) : List Nat :=
  let r := recAt s slot
  let b (dir : Nat) : List Nat :=
    let x := flowBuckets s (recKey r dir)
    bucketKeys x.1 ++ bucketKeys x.2.1
  ((b 0 ++ b 1).filter (fun k => ixValid (idxAt s k) && ixSlot (idxAt s k) == slot)).eraseDups

/-- Changes the index entries of a slot. -/
def modEntries (s : State) (slot : Nat) (f : Nat → Nat) : State :=
  (entriesOf s slot).foldl (fun s k => setIdx s k (f (idxAt s k))) s

/-- Invalidates the index entries of a slot. -/
def dropEntries (s : State) (slot : Nat) : State := (entriesOf s slot).foldl dropIdx s

/-- Some index entry of a slot has PEND set. -/
def slotPend (s : State) (slot : Nat) : Bool := (entriesOf s slot).any (fun k => ixPend (idxAt s k))

/-- A slot holds a record with an index entry. -/
def slotLive (s : State) (slot : Nat) : Bool := !(entriesOf s slot).isEmpty

/-- The candidate entries of a key in the index, in the order of R171: not MOVING before MOVING, primary before
alternate, lower entry first.  The alternate bucket is read when the primary's spill count is not 0. -/
def candidates (s : State) (key : Bytes) : List Nat :=
  let x := flowBuckets s key
  let pick (b : Nat) (alt : Bool) : List Nat := (bucketKeys b).filter (fun k =>
    let e := idxAt s k
    ixValid e && ixTag e == x.2.2 && ixChoice e == alt)
  let all := pick x.1 false ++ (if spillAt s x.1 = 0 then [] else pick x.2.1 true)
  all.filter (fun k => !ixMoving (idxAt s k)) ++ all.filter (fun k => ixMoving (idxAt s k))

/-- An index entry's record has a key at the entry's direction. -/
def entryIs (s : State) (k : Nat) (key : Bytes) : Bool :=
  let e := idxAt s k
  recKey (recAt s (ixSlot e)) (ixDir e) == cut key 0 40 && recGen (recAt s (ixSlot e)) % 16 == ixGen e

/-- A valid index entry of a key in either of its buckets (R183). -/
def keyEntry (s : State) (key : Bytes) : Option Nat :=
  let x := flowBuckets s key
  (bucketKeys x.1 ++ bucketKeys x.2.1).find? (fun k => ixValid (idxAt s k) && entryIs s k key)

/-- The slot of the tier-A record that a key finds. -/
def slotOf (s : State) (key : Bytes) : Option Nat := (keyEntry s key).map (fun k => ixSlot (idxAt s k))

/-- The directory candidates of a key, in the order of R171. -/
def dirCandidates (s : State) (key : Bytes) : List Nat :=
  if s.fs.tbSize = 0 then []
  else
    let x := dirBuckets s key
    let pick (b : Nat) (alt : Bool) : List Nat := (bucketKeys b).filter (fun k =>
      let e := dirAt s k
      dxValid e && bits e 0 24 == x.2.2 && dxChoice e == alt)
    let all := pick x.1 false ++ pick x.2.1 true
    all.filter (fun k => !dxMoving (dirAt s k)) ++ all.filter (fun k => dxMoving (dirAt s k))

/-- The directory entry of a key, found by its cold record. -/
def dirEntry (s : State) (key : Bytes) : Option Nat :=
  (dirCandidates s key).find? (fun k =>
    let e := dirAt s k
    recKey (coldRec (coldAt s (dxSlot e))) (dxDir e) == cut key 0 40)

/-- The cold slot of a record live in tier B that a key finds. -/
def coldOf (s : State) (key : Bytes) : Option Nat :=
  match dirEntry s key with
  | some k => if coldLive (coldAt s (dxSlot (dirAt s k))) then some (dxSlot (dirAt s k)) else none
  | none => none

/-- The directory entries of a cold slot. -/
def dirEntriesOf (s : State) (c : Nat) (r : Bytes) : List Nat :=
  if s.fs.tbSize = 0 then []
  else
    let b (dir : Nat) : List Nat :=
      let x := dirBuckets s (recKey r dir)
      bucketKeys x.1 ++ bucketKeys x.2.1
    ((b 0 ++ b 1).filter (fun k => dxValid (dirAt s k) && dxSlot (dirAt s k) == c)).eraseDups

/-- Invalidates the directory entries of a cold slot. -/
def dropDir (s : State) (c : Nat) (r : Bytes) : State :=
  (dirEntriesOf s c r).foldl (fun s k => setDir s k 0) s

/-- Sets or clears BAD on the directory entries of a cold slot (R194). -/
def markBad (s : State) (c : Nat) (r : Bytes) (v : Bool) : State :=
  (dirEntriesOf s c r).foldl (fun s k => setDir s k (putBits (dirAt s k) 61 1 (flag v))) s

/-- The demotion of a slot in progress. -/
def demOf (s : State) (slot : Nat) : Option Dem := s.fs.dems.find? (fun d => d.slot == slot)

/-- A slot is being promoted into (R196). -/
def promoting (s : State) (slot : Nat) : Bool := s.fs.fetches.any (fun f => f.slot == some slot && f.cold.isSome)

/-- A cold record is being promoted (R196). -/
def promotingCold (s : State) (c : Nat) : Bool := s.fs.fetches.any (fun f => f.cold == some c && f.slot.isSome)

/-- A record is at work on its way to tier B: its directory entries are being placed (R200 step 1). -/
def takingCold (s : State) (slot : Nat) : Bool := s.fs.colds.any (fun p => match p.who with
  | .demotion n gen _ => n == slot && gen == recGen (recAt s slot)
  | .insertion _ _ => false)

/-- The direction of a record whose key at it is the given one. -/
def keyDir (r key : Bytes) : Option Nat :=
  if recKey r 0 = cut key 0 40 then some 0 else if recKey r 1 = cut key 0 40 then some 1 else none

/-- The slot that the record of a key is being promoted into. -/
def promotingKey (s : State) (key : Bytes) : Option Nat :=
  s.fs.fetches.findSome? (fun f =>
    if f.cold.isSome then f.slot.filter (fun n => (keyDir (recAt s n) key).isSome) else none)

/-- The slot of a record in the demotion table that a key finds. -/
def demotingKey (s : State) (key : Bytes) : Option Nat :=
  (s.fs.dems.find? (fun d => (keyDir (recAt s d.slot) key).isSome)).map (·.slot)

/-- The slot of the record that a key finds in tier A: by its index entries, or while a promotion has yet to place them, or in
the demotion table. -/
def hotOf (s : State) (key : Bytes) : Option Nat :=
  ((slotOf s key).or (promotingKey s key)).or (demotingKey s key)

/-- Where a record lies: in a tier-A slot, or in tier B with its cold slot. -/
inductive RecPlace where
  | hot (slot : Nat)
  | cold (c : Nat)
  deriving DecidableEq, Repr

/-- Where the record lies that a key finds. -/
def placeOfKey (s : State) (key : Bytes) : Option RecPlace :=
  match hotOf s key with
  | some n => some (.hot n)
  | none => (coldOf s key).map .cold

/-- A record of tier A is read or written by the work of a plane (R614, R615). -/
def touchRecord (s : State) (plane : Nat) (at_ : Option RecPlace) : State :=
  match at_ with
  | some (.hot n) => bankAccessBy s plane (slotPier s n) (recordAddr s n)
  | _ => s

/-- The record at a place. -/
def placeRec (s : State) : RecPlace → Bytes
  | .hot n => recAt s n
  | .cold c => coldRec (coldAt s c)

/-- A fold is open for a slot (R239). -/
def foldOpen (s : State) (slot : Nat) : Bool := s.fs.folds.any (fun f => f.slot == slot)

/-- The origin code of the LPDDR6 controller and the channel of a cold slot (R210, R497). -/
def coldOrigin (s : State) (c : Nat) : Nat :=
  let a := 2 ^ 30 * s.fs.tbBase + 256 * c
  origin s 24 (bits a 8 5 ^^^ bits a 13 5 ^^^ bits a 18 5) 0 0

end Sys2Proof.Machine
end

