-- ==== Sys2Proof/Machine/Mirror.lean ====
section
/-! DEFINITION. The ownership map of a stack and the mirroring of twinned records (R544, R547-R549, R554). -/

namespace Sys2Proof.Machine

/-- The stack hash O of a key (R544). -/
def stackHash (s : State) (key : Bytes) : Nat := (flowHash (canonicalKey key) polyB s.stk.seedS).toNat

/-- The map entry of a key: O[63:58] (R544). -/
def mapIndex (s : State) (key : Bytes) : Nat := bits (stackHash s key) 58 6

/-- A map entry for an epoch; an absent one reads as LOCAL set (R544, R670). -/
def mapAt (s : State) (epoch e : Nat) : Nat :=
  match tableRead s epoch 0x51 0 e with
  | some b => leAt b 0 4
  | none => 32

/-- OWNER of a map entry. -/
def mapOwner (v : Nat) : Nat := bits v 0 2
/-- PARTNER of a map entry. -/
def mapPartner (v : Nat) : Nat := bits v 2 2
/-- MIRRORED of a map entry. -/
def mapMirrored (v : Nat) : Bool := bit v 4
/-- LOCAL of a map entry. -/
def mapLocal (v : Nat) : Bool := bit v 5

/-- The device steers frames to owners: deepen or mirror mode of a formed stack (R542, R544). -/
def steers (s : State) : Bool := s.stk.formed && (s.stk.mode == 2 || s.stk.mode == 3)

/-- Mirror mode of a formed stack (R542). -/
def mirrors (s : State) : Bool := s.stk.formed && s.stk.mode == 3

/-- The map entry and the member that hold the copy of a record: the partner, or for a record kept here as the copy
of an entry that has moved its new owner (R547, R558). -/
def mirrorTarget (s : State) (r : Bytes) : Option (Nat × Nat) :=
  let e := mapIndex s (recKey r 0)
  let v := mapAt s s.tbl.epoch e
  let other := if mapOwner v = ownDev s then mapPartner v else mapOwner v
  if mirrors s && mapMirrored v && !mapLocal v && other != ownDev s &&
      (mapOwner v == ownDev s || (mapPartner v == ownDev s && recOwner r == ownDev s))
  then some (e, other) else none

/-- A record may be served here: it is this device's own, or its map entry is (R548, R554). -/
def servable (s : State) (r : Bytes) : Bool :=
  let v := mapAt s s.tbl.epoch (mapIndex s (recKey r 0))
  !mirrors s || recOwner r == ownDev s || mapOwner v == ownDev s || mapLocal v

/-- A record is a copy kept for another member: the sweeper skips it (R548, R554, R558). -/
def isCopy (s : State) (r : Bytes) : Bool :=
  let v := mapAt s s.tbl.epoch (mapIndex s (recKey r 0))
  mirrors s && (recOwner r != ownDev s || (mapOwner v != ownDev s && !mapLocal v))

/-- The payload of a RECORD cell: operation 1 INSERT, 2 UPDATE, 3 DELETE (R547). -/
def recordPayload (op e : Nat) (r x : Bytes) : Bytes :=
  le 1 op ++ le 1 e ++ List.replicate 6 0 ++ cut r 0 128 ++ cut x 0 32

/-- Sends a RECORD cell to a member and waits for its acknowledgement (R549). -/
def sendRecord (s : State) (op e dev : Nat) (r x : Bytes) (move : Bool) : State :=
  let seq := getAt 0 s.stk.txSeq dev
  let pay := recordPayload op e r x
  let link := (linksTo s dev).headD 384
  let s := s.withStk { s.stk with
    txSeq := setAt 0 s.stk.txSeq dev ((seq + 1) % 2 ^ 32)
    awaits := s.stk.awaits ++
      [{ partner := dev, seq := seq, link := link, tries := 1, payload := pay, move := move }] }
  if link = 384 then s else sendCell s link 1 (mkCell s 2 dev 1 seq 0 true true pay)

/-- The MIRROR flag of a record (R159). -/
def recMirror (r : Bytes) : Bool := bit (recFlags r) 2

/-- A record with its MIRROR flag set or cleared. -/
def recSetMirror (r : Bytes) (v : Bool) : Bytes := paste r 105 (le 1 (putBits (recFlags r) 2 1 (flag v)))

/-- A change of a tier-A record goes to its partner; where its entry is no longer mirrored, the change clears MIRROR
(R547, R554). -/
def mirrorChange (s : State) (slot op : Nat) : State :=
  let r := recAt s slot
  if recMirror r = false then s
  else match mirrorTarget s r with
    | some (e, dev) => sendRecord s op e dev r (extAt s slot) false
    | none => setRec s slot (recSetMirror r false)

/-- A change of a record live in tier B goes to its partner in the same way. -/
def mirrorCold (s : State) (c op : Nat) : State :=
  let b := coldAt s c
  let r := coldRec b
  if recMirror r = false then s
  else match mirrorTarget s r with
    | some (e, dev) => sendRecord s op e dev r (coldExt b) false
    | none => modCold s c (fun r x => (recSetMirror r false, x))

end Sys2Proof.Machine
end

