-- ==== Sys2Proof/Machine/Flow.lean ====
section
/-! DEFINITION. Changes of twinned records in place: counter write-backs and folds (R161, R179, R239-R243),
tracking updates (R228-R232) and flow export (R618-R622). -/

namespace Sys2Proof.Machine

/-! Export (R618-R622). -/

/-- A coarse time in seconds at an export (R621). -/
def coarseSeconds (s : State) (c : Nat) : Nat :=
  (timeNs s - wrapSub 32 (coarse s) c * 1048576) / 1000000000 % 2 ^ 32

/-- The export record of R621, from record and extension. -/
def exportRecord (s : State) (r x : Bytes) (reason : Nat) : Bytes :=
  let key := recKey r 0
  let packets := leAt x 0 8 + recPackets r
  let capped := decide (2 ^ 56 ≤ packets)
  cut key 0 37 ++ le 1 reason ++ be 2 (recTenant r) ++ be 7 (if capped then 2 ^ 56 - 1 else packets) ++
    le 1 (if bit (recFlags r) 0 || capped then 2 else 1) ++ be 8 ((leAt x 8 8 + recOctets r) % 2 ^ 64) ++
    be 4 (coarseSeconds s (leAt x 16 4)) ++ be 4 (coarseSeconds s (recLast r))

/-- Export runs for a record's class (R618). -/
def exports (s : State) (r : Bytes) : Bool :=
  regField s .exportCfg 0 0 1 == 1 && bit (regVal s .exportClass (recClass r / 32)) (recClass r % 32) &&
    !(isCopy s r && recOwner r != ownDev s)

/-- Writes an export record to its TEL ring, whose ESIZE must be 64 B (R620). -/
def writeExport (s : State) (r x : Bytes) (reason : Nat) : State :=
  let h := regField s .exportCfg 0 4 1
  let ring := regField s .exportCfg 0 1 3
  if entrySize s h (176 + ring) ≠ 64 then count s 14 0 46 1
  else match telPost s h ring (exportRecord s r x reason) with
    | (s, true) => s
    | (s, false) => count s 14 0 46 1

/-- flowEndReason of a deletion (R622). -/
def endReason (r : Bytes) (reason : Nat) : Nat :=
  if reason = 1 then (if recState r = 7 ∨ recState r = 8 then 3 else 1) else 4

/-- The telemetry state after an active or requested export: last export time and one more export (R619). -/
def exported (x : Bytes) (now : Nat) : Bytes := paste x 25 (le 4 now ++ le 2 ((leAt x 29 2 + 1) % 2 ^ 16))

/-- An active export is due: the last export, or the creation, is ACTIVE × 1,024 coarse units past (R618). -/
def activeDue (s : State) (x : Bytes) : Bool :=
  let a := regField s .exportCfg 0 8 16
  let last := if leAt x 29 2 = 0 ∧ leAt x 25 4 = 0 then leAt x 16 4 else leAt x 25 4
  a != 0 && decide (a * 1024 ≤ wrapSub 32 (coarse s) last)

/-- An active or requested export of a tier-A record. -/
def exportSlot (s : State) (slot : Nat) : State :=
  let x := extAt s slot
  setExt (writeExport s (recAt s slot) x 2) slot (exported x (coarse s))

/-- An active or requested export of a record live in tier B. -/
def exportCold (s : State) (c : Nat) : State :=
  let b := coldAt s c
  let now := coarse s
  modCold (writeExport s (coldRec b) (coldExt b) 2) c (fun r x => (r, exported x now))

/-! Counter write-backs. -/

/-- The largest packet count of a record. -/
abbrev maxPackets : Nat := 2 ^ 40 - 1
/-- The largest byte count of a record. -/
abbrev maxOctets : Nat := 2 ^ 48 - 1

/-- A write-back as an add in the record (R161): counters, hit bits, last-hit time, and the own device where the
stack has made a copy this device's own (R554).  A count that would pass its maximum stays at it and sets OVERFLOW
(R241). -/
def hitRecord (s : State) (r : Bytes) (packets octets : Nat) (ret : Bool) : Bytes :=
  let p := recPackets r + packets
  let b := recOctets r + octets
  let overs := decide (maxPackets < p) || decide (maxOctets < b)
  let r := recSetCounts r (min p maxPackets) (min b maxOctets)
  let r := if overs then paste r 105 (le 1 (recFlags r ||| 1)) else r
  let h := recHits r ||| 1 ||| (if ret then 2 else 0)
  let h := if mirrors s then putBits h 4 2 (ownDev s) else h
  paste r 123 (le 1 h ++ le 4 (coarse s))

/-- Whether a write-back would take a counter past its maximum (R241). -/
def passesMax (r : Bytes) (packets octets : Nat) : Bool :=
  decide (maxPackets < recPackets r + packets) || decide (maxOctets < recOctets r + octets)

/-- A copy becomes this device's own at its first write-back (R554): it leaves the copy count for its tenant's
record count. -/
def adopt (s : State) (r : Bytes) : State :=
  if mirrors s && recOwner r != ownDev s then
    tenUp ((touch s 16 0 6).withStk { s.stk with copies := s.stk.copies - 1 }) (recTenant r)
  else s

/-- The body of counter-harvest and counter-saturated without what follows: slot, generation, tenant. -/
def slotBody (s : State) (slot : Nat) : Bytes :=
  le 4 slot ++ le 2 (recGen (recAt s slot)) ++ le 2 (recTenant (recAt s slot))

/-- Opens a fold when a counter has crossed its half range and none is open; the fold table of a pier holds
256 (R239). -/
def openFold (s : State) (slot : Nat) : State :=
  let r := recAt s slot
  let pk := decide (2 ^ 39 ≤ recPackets r)
  let p := slotPier s slot
  if !(pk || decide (2 ^ 47 ≤ recOctets r)) || s.fs.folds.any (fun f => f.slot == slot && f.gen == recGen r) ||
      decide (256 ≤ (s.fs.folds.filter (fun f => slotPier s f.slot == p)).length) then s
  else
    let s := s.withFs { s.fs with folds := s.fs.folds ++
      [{ slot := slot, gen := recGen r, task := none, taken := false, packets := 0, octets := 0 }] }
    postEvent s 0x06 1 (pierOrigin s p (recordAddr s slot)) (slotBody s slot ++ le 1 (flag (!pk)))

/-- Applies a write-back to a tier-A record, or discards and counts a stale one (R161, R241, R243). -/
def writeSlot (s : State) (slot gen packets octets : Nat) (ret : Bool) : State :=
  let r := recAt s slot
  let p := slotPier s slot
  if recGen r ≠ gen then count s 10 p 15 1
  else
    let s := bankAccess (adopt s r) p (recordAddr s slot + 96)
    let s := setRec s slot (hitRecord s r packets octets ret)
    let s := if passesMax r packets octets then count s 10 p 17 1 else s
    let s := if passesMax r packets octets && !bit (recFlags r) 0 then
        postEvent s 0x06 2 (pierOrigin s p (recordAddr s slot)) (slotBody s slot)
      else s
    openFold s slot

/-- The pier that counts for a record in tier B: that of its forward key's primary bucket. -/
def coldPier (s : State) (r : Bytes) : Nat := bucketPier s (flowBuckets s (recKey r 0)).1

/-- A record that has no tier-A slot passes a counter's maximum: it is counted, and posted where OVERFLOW was clear (R241, R255,
log 92). -/
def coldSaturates (s : State) (r : Bytes) : State :=
  let b := (flowBuckets s (recKey r 0)).1
  let p := coldPier s r
  let s := count s 10 p 17 1
  if bit (recFlags r) 0 then s
  else postEvent s 0x06 2 (pierOrigin s p (bucketAddr s b)) (le 4 0xFFFFFFFF ++ le 2 (recGen r) ++ le 2 (recTenant r))

/-- Applies collected write-backs to a record served from tier B (R197, R241). -/
def writeColdCounts (s : State) (c packets octets : Nat) (ret : Bool) : State :=
  let r := coldRec (coldAt s c)
  let s := if passesMax r packets octets then coldSaturates s r else s
  modCold (adopt s r) c (fun r x => (hitRecord s r packets octets ret, x))

/-- An outstanding fetch by its entry. -/
def fetchAt (s : State) (id : Nat) : Option Fetch := s.fs.fetches.find? (fun f => f.id == id)

/-- Some frame still waits on a fetch or has yet to get its verdict with its result (R193). -/
def fetchFrames (s : State) (f : Fetch) : Bool :=
  !f.frames.isEmpty || s.slices.frames.any (fun p => match p.2 with
    | some x => x.fetch == some f.id && x.stage == .tierB
    | none => false)

/-- Write-backs or updates of the frames of a fetch wait to be applied: of its entry, or of the slot its frames hold. -/
def fetchUpdates (s : State) (f : Fetch) : Bool :=
  let mine (tierB : Bool) (slot : Nat) : Bool := if tierB then slot == f.id else f.left == some slot
  s.fs.comb.any (fun c => mine c.tierB c.slot) || s.fs.tracks.any (fun t => mine t.tierB t.slot)

/-- Fetches whose record is not promoted are released once every write-back of their frames has been applied (R193). -/
def settleFetches (s : State) : State :=
  s.withFs { s.fs with fetches := s.fs.fetches.filter (fun f =>
    !f.ending || fetchFrames s f || fetchUpdates s f) }

/-- Applies a combiner entry. -/
def applyComb (s : State) (c : Comb) : State :=
  let s := s.withFs { s.fs with comb := s.fs.comb.filter (fun x =>
    !(x.slot == c.slot && x.gen == c.gen && x.tierB == c.tierB)) }
  if c.tierB then
    match fetchAt s c.slot with
    | some f =>
      match f.cold with
      | some k => settleFetches (writeColdCounts s k c.packets c.octets c.hitRet)
      | none => s
    | none => s
  else settleFetches (writeSlot s c.slot c.gen c.packets c.octets c.hitRet)

/-- The combiner that a write-back goes to: that of its slot's pier, or that of tier B. -/
def combGroup (s : State) (tierB : Bool) (slot : Nat) : Nat := if tierB then 4 else slotPier s slot

/-- A write-back reaches the combiner (R179): it adds into its entry, or takes one, flushing the oldest of 256 if
none is free. -/
def writeBackRec (s : State) (slot gen : Nat) (tierB ret : Bool) (octets : Nat) : State :=
  let same (c : Comb) : Bool := c.slot == slot && c.gen == gen && c.tierB == tierB
  if s.fs.comb.any same then
    s.withFs { s.fs with comb := s.fs.comb.map (fun c =>
      if same c then { c with packets := c.packets + 1, octets := c.octets + octets, hitRet := c.hitRet || ret }
      else c) }
  else
    let grp := s.fs.comb.filter (fun c => combGroup s c.tierB c.slot == combGroup s tierB slot)
    let s := if 256 ≤ grp.length && !tierB then
        match grp with
        | c :: _ => applyComb s c
        | [] => s
      else s
    s.withFs { s.fs with comb := s.fs.comb ++
      [{ slot := slot, gen := gen, tierB := tierB, packets := 1, octets := octets, hitRet := ret }] }

/-- The combiner holds nothing more for a slot and generation: entries left are applied (R179, R245). -/
def flushComb (s : State) (slot gen : Nat) : State :=
  match s.fs.comb.find? (fun c => !c.tierB && c.slot == slot && c.gen == gen) with
  | some c => applyComb s c
  | none => s

/-- Frames of an outstanding fetch have yet to give their write-backs, which are one update of the cold copy (R197). -/
def moreWriteBacks (s : State) (id : Nat) : Bool :=
  match fetchAt s id with
  | some f => fetchFrames s f
  | none => false

/-- COMBINER_APPLY (R179, R197). -/
def execCombinerApply (slot : Nat) (tierB : Bool) (s : State) : Host.Outcome State Fault Refusal :=
  match s.fs.comb.find? (fun c => c.slot == slot && c.tierB == tierB) with
  | some c => if tierB && moreWriteBacks s slot then .next s else .next (applyComb s c)
  | none => .next s

/-! Tracking (R228-R232). -/

/-- What a tracking update does: next state, flags to set, whether flags are cleared first, and whether it counts
a repeated SYN or an unmatched frame. -/
structure TrackStep where
  st : Nat
  set : Nat := 0
  clear : Bool := false
  again : Bool := false
  unmatched : Bool := false
  deriving DecidableEq, Repr

/-- The table of R231: state, return direction, SYN, ACK, FIN, RST; the first row that matches decides. -/
def trackStep (st : Nat) (ret syn ack fin rst : Bool) : TrackStep :=
  if 1 ≤ st && st ≤ 7 && rst then { st := 8 }
  else if st == 1 && !ret && syn && !ack then { st := 1, again := true }
  else if st == 1 && ret && syn && ack then { st := 2, set := 2 }
  else if st == 2 && ret && syn && ack then { st := 2, again := true }
  else if st == 2 && !ret && ack && !syn && !fin then { st := 3 }
  else if st == 3 && !ret && fin then { st := 4, set := 4 }
  else if st == 3 && ret && fin then { st := 5, set := 8 }
  else if st == 4 && ret && fin then { st := 6, set := 8 }
  else if st == 5 && !ret && fin then { st := 6, set := 4 }
  else if st == 6 && ack && !fin then { st := 7 }
  else if (st == 7 || st == 8) && !ret && syn && !ack then { st := 1, set := 1, clear := true }
  else { st := st, unmatched := true }

/-- A record after a tracking update: bytes 104 and 109 (R229, R231). -/
def trackRecord (r : Bytes) (ret : Bool) (flags : Nat) : Bytes :=
  let x := trackStep (recState r) ret (bit flags 0) (bit flags 1) (bit flags 2) (bit flags 3)
  let fl := (if x.clear then 0 else (byteAt r 104).toNat / 16) ||| x.set
  let n := (byteAt r 109).toNat
  let n := putBits n 0 4 (satAdd 4 (n % 16) (flag x.again))
  let n := putBits n 4 4 (satAdd 4 (n / 16) (flag x.unmatched))
  paste (paste r 104 (le 1 (x.st + fl * 16))) 109 (le 1 n)

/-- Applies a tracking update to its record, or discards and counts a stale one (R232); a changed byte 104 goes to
the partner (R547). -/
def applyTrack (s : State) (t : Track) : State :=
  if t.tierB then
    match fetchAt s t.slot with
    | some f =>
      match f.cold with
      | some k =>
        let r := coldRec (coldAt s k)
        if recGen r ≠ t.gen then count s 10 (coldPier s r) 16 1
        else
          let s := modCold s k (fun r x => (trackRecord r t.ret t.flags, x))
          settleFetches (if byteAt (coldRec (coldAt s k)) 104 = byteAt r 104 then s else mirrorCold s k 2)
      | none => s
    | none => s
  else
    let r := recAt s t.slot
    if recGen r ≠ t.gen then count s 10 (slotPier s t.slot) 16 1
    else
      let s := bankAccess s (slotPier s t.slot) (recordAddr s t.slot + 96)
      let s := setRec s t.slot (trackRecord r t.ret t.flags)
      settleFetches (if byteAt (recAt s t.slot) 104 = byteAt r 104 then s else mirrorChange s t.slot 2)

/-- TRACKING_UPDATE_APPLY (R231, R232): the oldest update waiting. -/
def execTrackingUpdateApply (s : State) : Host.Outcome State Fault Refusal :=
  match s.fs.tracks with
  | [] => .next s
  | t :: ts => .next (applyTrack (s.withFs { s.fs with tracks := ts }) t)

/-- The updates still waiting for a slot and generation are applied. -/
def flushTracks (s : State) (slot gen : Nat) : State :=
  let mine (t : Track) : Bool := !t.tierB && t.slot == slot && t.gen == gen
  let ts := s.fs.tracks.filter mine
  ts.foldl applyTrack (s.withFs { s.fs with tracks := s.fs.tracks.filter (fun t => !mine t) })

/-! Folds (R240). -/

/-- The fold that a fold task serves. -/
def foldOf (s : State) (slot gen : Nat) : Option Fold := s.fs.folds.find? (fun f => f.slot == slot && f.gen == gen)

/-- Changes a fold. -/
def modFold (s : State) (slot gen : Nat) (f : Fold → Fold) : State :=
  s.withFs { s.fs with folds := s.fs.folds.map (fun x => if x.slot == slot && x.gen == gen then f x else x) }

/-- The counts of a record are read and subtracted in one operation (R240). -/
def takeCounts (s : State) (slot gen : Nat) : State × Nat × Nat :=
  let r := recAt s slot
  let p := recPackets r
  let b := recOctets r
  (modFold (setRec s slot (recSetCounts r 0 0)) slot gen (fun f =>
    { f with taken := true, packets := f.packets + p, octets := f.octets + b }), p, b)

/-- Counts go to the extension's totals and the tenant's, and the fold closes (R240); a fold's end goes to the
partner (R547). -/
def closeFold (s : State) (slot gen packets octets : Nat) : State :=
  let x := extAt s slot
  let x := paste x 0 (le 8 (leAt x 0 8 + packets) ++ le 8 (leAt x 8 8 + octets))
  let s := account (setExt s slot x) (recTenant (recAt s slot)) packets octets
  let s := s.withFs { s.fs with folds := s.fs.folds.filter (fun f => !(f.slot == slot && f.gen == gen)) }
  mirrorChange s slot 2

/-- A fold task has faulted: the counts it subtracted are added back and the fold is queued again (R345). -/
def requeueFold (s : State) (slot gen : Nat) : State :=
  match foldOf s slot gen with
  | none => s
  | some f =>
    let r := recAt s slot
    let s := if f.taken then
        setRec s slot (recSetCounts r (min (recPackets r + f.packets) maxPackets) (min (recOctets r + f.octets) maxOctets))
      else s
    modFold s slot gen (fun f => { f with task := none, taken := false, packets := 0, octets := 0 })

end Sys2Proof.Machine
end

