-- ==== Sys2Proof/Machine/Verdict.lean ====
section
/-! DEFINITION. The verdict assembler (R134-R138, R270, R271), mirror copies (R380), release verdicts (R219) and
the setup queue with the back-pressure it applies (R138, R217, R338, R340). -/

namespace Sys2Proof.Machine

/-! Class fields (R98, R149, R211). -/

/-- A field of the frame's class entry: byte, lowest bit, width. -/
def clsBits (f : Frame) (byte lo w : Nat) : Nat := bits (leAt f.clsEntry byte 2) lo w

/-- The class is permissive. -/
def permissive (f : Frame) : Bool := clsBits f 0 1 1 == 1
/-- DL_ACTION: stateless-forward at a deadline fault. -/
def dlForward (f : Frame) : Bool := clsBits f 4 0 1 == 1
/-- SEQ_ENTRY. -/
def seqEntry (f : Frame) : Nat := clsBits f 5 0 12
/-- TRACK as it acts. -/
def trackMode (f : Frame) : Nat := if clsBits f 11 0 2 = 3 then 1 else clsBits f 11 0 2
/-- COOKIE as it acts. -/
def cookieMode (f : Frame) : Nat := if clsBits f 11 2 2 = 3 then 0 else clsBits f 11 2 2

/-- The TCP flags at the key layer, FIN in bit 0 to URG in bit 5. -/
def tcpFlagsOf (f : Frame) : Nat :=
  match keyLayer f with
  | some l => if l.proto = 6 then l.tcpFlags else 0
  | none => 0

/-- A TCP frame at the key layer. -/
def isTcp (f : Frame) : Bool :=
  match keyLayer f with
  | some l => l.proto == 6
  | none => false

/-- An opening frame (R211). -/
def opening (f : Frame) : Bool := isTcp f && bit (tcpFlagsOf f) 1 && !bit (tcpFlagsOf f) 4

/-- A bare ACK (R211). -/
def bareAck (f : Frame) : Bool :=
  isTcp f && bit (tcpFlagsOf f) 4 && !bit (tcpFlagsOf f) 1 && !bit (tcpFlagsOf f) 0 && !bit (tcpFlagsOf f) 2

/-! Destinations (R135, R270, R271). -/

/-- Where a frame goes: the queue, and destination, member index and encap index for the verdict. -/
structure Dest where
  queue : Nat
  member : Nat := 0
  encap : Nat
  deriving DecidableEq, Repr

/-- A destination code other than 0xFFE, for a frame's epoch and indirection value; `none` drops (R135, R270). -/
def destOf (s : State) (f : Frame) (code q encap : Nat) : Option Dest :=
  if code < 0x180 then some { queue := code * 16 + q, encap := encap }
  else if 0x400 ≤ code ∧ code < 0x800 then
    let g := tableOr0 s f.epoch 0x0C 0 (code - 0x400) 8
    let n := leAt g 0 2
    if n = 0 then none
    else
      let m := f.indir % n
      let e := memberEntry s f.epoch (leAt g 2 2 + m)
      let dest := leAt e 0 2 % 4096
      if dest < 0x180 then
        some { queue := dest * 16 + q, member := m, encap := if leAt e 2 2 ≠ 0 then leAt e 2 2 else encap }
      else none
  else if 0x800 ≤ code ∧ code < 0x900 then some { queue := internalQ (code - 0x800), encap := encap }
  else none

/-- What stateless resolution finds: nothing, a punt, or a code with queue and encap index (R271). -/
inductive Stateless where
  | drop
  | punt
  | dest (code queue encap : Nat)
  deriving DecidableEq, Repr

/-- Forwarding data as R271 uses it (R267). -/
def forwardingData (d : Bytes) : Stateless :=
  let fl := (byteAt d 4).toNat
  if bit fl 0 then .drop
  else if bit fl 1 then .punt
  else .dest (leAt d 0 2 % 4096) (leAt d 0 2 / 4096) (leAt d 2 2)

/-- Stateless resolution by the exact-match and LPM results that are in the snapshot (R271). -/
def resolveStateless (f : Frame) : Stateless :=
  let viaLpm : Stateless := match f.lpm with
    | some b => if bit (byteAt b 0).toNat 0 then forwardingData (cut b 8 8) else .drop
    | none => .drop
  match f.sec with
  | some b =>
    if bit (byteAt b 0).toNat 0 = false then viaLpm
    else if byteAt b 1 = 0x08 then .dest (leAt b 8 2 % 4096) (leAt f.verdict 2 2 / 4096) (leAt f.verdict 6 2)
    else if byteAt b 1 = 0x09 then forwardingData (cut b 8 8)
    else viaLpm
  | none => viaLpm

/-- The punt queue of a verdict (R377). -/
def puntQueue (f : Frame) : Nat := internalQ (0x10 + leAt f.verdict 22 2 % 16)

/-- The forward copy of a verdict: its destination, or a punt that stateless resolution asks for. -/
def forwardOf (s : State) (f : Frame) : Option Dest :=
  let code := leAt f.verdict 2 2 % 4096
  if code = 0xFFE then
    match resolveStateless f with
    | .drop => none
    | .punt => some { queue := puntQueue f, encap := leAt f.verdict 6 2 }
    | .dest c q e => if c = 0xFFE then none else destOf s f c q e
  else destOf s f code (leAt f.verdict 2 2 / 4096) (leAt f.verdict 6 2)

/-! Mirror copies (R380). -/

/-- The mirror copy that a verdict adds, to an enabled session; a session that cannot be used is counted. -/
def mirrorReq (s : State) (f : Frame) (session : Nat) : Option CopyReq :=
  let e := tableOr0 s f.epoch 0x42 0 session 8
  if bit (byteAt e 6).toNat 0 = false then none
  else
    let code := leAt e 0 2 % 4096
    match destOf s f code (leAt e 0 2 / 4096) 0 with
    | some d =>
      let enc := if d.encap ≠ 0 then d.encap else leAt e 4 2
      some { queue := d.queue, encap := enc, mirror := true, trunc := (leAt e 2 2 + 127) / 128 * 128 }
    | none => none

/-- Counts a mirror copy that was not made (R380). -/
def mirrorLost (s : State) (session : Nat) : State :=
  let n := getAt 0 s.buf.mirrorDrops session + 1
  s.withBuf { s.buf with mirrorDrops := setAt 0 s.buf.mirrorDrops session n }

/-! Passing a verdict to the traffic manager. -/

/-- The frame leaves its slice: the copies are enqueued, the frame's reference passes to them, and a mirror copy that
was not made is counted (R134, R366, R380). -/
def handOver (s : State) (fid : Nat) (f : Frame) (reqs : List CopyReq) : State :=
  let s := setFrame s fid (some { f with context := false })
  match f.mirror with
  | none => enqueueFrame s fid f.tag reqs
  | some m =>
    match mirrorReq s f m with
    | none => enqueueFrame (mirrorLost s m) fid f.tag reqs
    | some r =>
      let t := enqueueFrame s fid f.tag (reqs ++ [r])
      if (queueAt t r.queue).copies.any (fun c => c.fid == fid && c.mirror) then t else mirrorLost t m

/-- An earlier frame of a frame's connection and direction is still parked, or was parked and has no verdict yet
(R32). -/
def earlierParked (s : State) (fid : Nat) (f : Frame) : Bool :=
  s.slices.frames.any (fun p => decide (p.1 < fid) && (match p.2 with
    | some x => x.key == f.key && !x.key.isEmpty && (x.stage == .tierB || x.stage == .setup || x.stage == .pending)
    | none => false))

/-- The fields that the assembler writes (R134): flags, no member index unless a group gives one
(R135), tenant, session, policer, slot and generation, epoch, length, class. -/
def fillVerdict (f : Frame) (v : Bytes) (cut fault : Bool) : Bytes :=
  let flow := match f.flow with
    | some w => w
    | none => 0
  let fl := (byteAt v 1).toNat
  let fl := fl &&& 0x9C ||| flag cut ||| 2 * flag fault ||| 32 * flag f.mirror.isSome ||| 64 * flag (bit flow 26)
  let v := paste v 4 (le 2 0)
  let v := paste v 1 (le 1 fl)
  let v := paste v 10 (le 2 f.tenant)
  let v := paste v 13 (le 1 (match f.mirror with
    | some m => m
    | none => 0) ++ le 2 f.policer ++ le 4 (bits flow 0 27) ++ le 2 (bits flow 32 16))
  paste v 24 (le 4 f.epoch ++ le 2 (frameLen f) ++ le 1 f.cls)

/-- A frame of a hit record is counted in it (R137): a record served from tier B collects at its fetch. -/
def writeBackOf (s : State) (f : Frame) : State :=
  match f.flow with
  | some w =>
    if f.hit && bit (byteAt f.verdict 1).toNat 7 then
      writeBackRec s (bits w 0 25) (bits w 32 16) (bit w 26) (bit w 25) (frameLen f)
    else s
  | none => s

/-- TRACK as it acts of the class of a frame's record, for the frame's epoch (R211, R230). -/
def recTrack (s : State) (f : Frame) : Nat :=
  let m := bits (leAt (tableOr0 s f.epoch 0x02 0 (recClass f.record) 16) 11 1) 0 2
  if m = 3 then 1 else m

/-- A tracking update goes out with a verdict (R230): the class is that of the record. -/
def trackOf (s : State) (f : Frame) : State :=
  let fl := tcpFlagsOf f
  let st := recState f.record
  let kind := (byteAt f.verdict 0).toNat
  match f.flow with
  | some w =>
    if f.hit && (recTrack s f == 1 || recTrack s f == 2) && isTcp f && (kind == 1 || kind == 3) && st != 0 && st != 9 &&
        ((fl &&& 7) != 0 || (bit fl 4 && (st == 2 || st == 6))) then
      s.withFs { s.fs with tracks := s.fs.tracks ++
        [{ slot := bits w 0 25, gen := bits w 32 16, tierB := bit w 26, ret := bit w 25
           flags := flag (bit fl 1) + 2 * flag (bit fl 4) + 4 * flag (bit fl 0) + 8 * flag (bit fl 2) }] }
    else s
  | none => s

/-- The copies of an assembled verdict, and its member and encap index: kinds 1 FORWARD, 2 PUNT, 3 COPY; every other
kind drops (R134, R377). -/
def copiesOf (s : State) (f : Frame) : List CopyReq × Option Dest :=
  let punt : List CopyReq := [{ queue := puntQueue f }]
  let fwd := forwardOf s f
  let go : List CopyReq := match fwd with
    | some d => [{ queue := d.queue }]
    | none => []
  match (byteAt f.verdict 0).toNat with
  | 1 => (go, fwd)
  | 2 => (punt, none)
  | 3 => (go ++ punt, fwd)
  | _ => ([], none)

/-- A verdict is assembled and passed on (R134): write-back, tracking update, member and encap index, copies. -/
def passVerdict (s : State) (fid : Nat) (f : Frame) : State :=
  let s := trackOf (writeBackOf s f) f
  match copiesOf s f with
  | (reqs, some d) =>
    handOver s fid { f with verdict := paste f.verdict 4 (le 2 d.member ++ le 2 d.encap) } reqs
  | (reqs, none) => handOver s fid f reqs

/-! Release verdicts (R219). -/

/-- The rewrite area of a release verdict: the fields that the direction's mask flags, from the opposite key
(R160, R219, R393). -/
def releaseRewrite (r : Bytes) (dir : Nat) : Bytes :=
  let mask := (byteAt r (80 + dir)).toNat % 16
  let o := recKey r (1 - dir)
  le 2 mask ++ [0, 0] ++ cut o 16 16 ++ cut o 0 16 ++ cut o 34 2 ++ cut o 32 2 ++ List.replicate 24 0

/-- The verdict of a release: FORWARD with the record's result for the direction (R136, R219). -/
def releaseVerdict (r : Bytes) (dir : Nat) : Bytes :=
  let res := cut r (96 + 4 * dir) 4
  let mask := (byteAt r (80 + dir)).toNat % 16
  [1, BitVec.ofNat 8 (0x80 + 4 * flag (mask != 0))] ++ cut res 0 2 ++ [0, 0] ++ cut res 2 2 ++ List.replicate 24 0

/-- Releases a parked frame with a record (R219), under the current epoch.  A record placed in tier B has its counts
written to the cold copy. -/
def releaseFrame (s : State) (fid : Nat) (at_ : RecPlace) : State :=
  match frameAt s fid with
  | none => s
  | some f =>
    let r := placeRec s at_
    let dir := if recKey r 0 = f.key then 0 else 1
    let word := match at_ with
      | .hot n => n % 2 ^ 25 + 2 ^ 25 * dir + 2 ^ 32 * recGen r
      | .cold _ => 2 ^ 25 * dir + 2 ^ 26 + 2 ^ 32 * recGen r
    let f := { f with epoch := s.tbl.epoch, record := r, hit := true, miss := false, flow := some word
                      rewrite := releaseRewrite r dir, mirror := none, behind := false }
    let f := { f with verdict := fillVerdict f (releaseVerdict r dir) false false }
    match at_ with
    | .hot _ => passVerdict s fid f
    | .cold c =>
      let s := writeColdCounts s c 1 (frameLen f) (dir == 1)
      let s' := trackOf { s with fs := { s.fs with tracks := [] } } f
      let s := match s'.fs.tracks with
        | t :: _ => modCold s c (fun r x => (trackRecord r t.ret t.flags, x))
        | [] => s
      passVerdict s fid { f with flow := none, hit := false }

/-- The frames that wait behind earlier frames of a connection and may go now are released, in order; without a record
any more they are dropped (R32). -/
def unblock (s : State) (key : Bytes) : State :=
  let fids := s.slices.frames.filterMap (fun p => match p.2 with
    | some x => if x.behind && x.key == key then some p.1 else none
    | none => none)
  fids.foldl (fun s fid =>
    match frameAt s fid with
    | some f =>
      if f.behind && !earlierParked s fid f then
        match placeOfKey s key with
        | some p => releaseFrame s fid p
        | none => dropFrame s fid
      else s
    | none => s) s

/-- A parked frame is dropped; frames behind it may go. -/
def dropParked (s : State) (fid : Nat) : State :=
  match frameAt s fid with
  | some f => unblock (dropFrame s fid) f.key
  | none => s

/-- Release verdicts of the frames that a slice has parked can be formed: by the slice, or, once it has failed, by S16 when it
serves the group and is ready (R568). -/
def formsReleases (s : State) (n : Nat) : Bool :=
  !(sliceAt s n).stopped || (n != 16 && servingSlice s n == some 16 && s.ft.waitS16 != some n)

/-- A parked frame is released, or parked behind an earlier frame of its connection and direction (R32); frames behind it
may go.  The release of a frame whose slice has failed waits for S16 (R568). -/
def releaseParked (s : State) (fid : Nat) (at_ : RecPlace) : State :=
  match frameAt s fid with
  | some f =>
    if !formsReleases s f.slice then s.withFt { s.ft with releases := s.ft.releases.filter (· != fid) ++ [fid] }
    else if earlierParked s fid f then setFrame s fid (some { f with stage := .pending, behind := true })
    else unblock (releaseFrame s fid at_) f.key
  | none => s

/-- The release of a frame that waited for S16: from its record as it is now, or a drop where there is none any more. -/
def releaseLate (s : State) (fid : Nat) : State :=
  match frameAt s fid with
  | some f =>
    match placeOfKey s f.key with
    | some p => releaseParked s fid p
    | none => dropParked s fid
  | none => s

/-- The releases that wait for a slice's group to be served are formed (R568). -/
def releaseHeld (s : State) (n : Nat) : State :=
  let mine (fid : Nat) : Bool := match frameAt s fid with
    | some f => f.slice == n
    | none => false
  let fids := s.ft.releases.filter mine
  fids.foldl releaseLate (s.withFt { s.ft with releases := s.ft.releases.filter (fun fid => !mine fid) })

/-! The setup queue (R138, R217, R338, R340). -/

/-- A task by its number. -/
def taskAt (s : State) (n : Nat) : Option Task := getAt none s.eng.tasks n

/-- Writes a task, or forgets it; the gauges of the clusters may change with it (R609). -/
def setTask (s : State) (n : Nat) (t : Option Task) : State :=
  (touch s 9 0 255).withEng { s.eng with tasks := setAt none s.eng.tasks n t }

/-- Takes a number for a new task. -/
def newTask (s : State) (t : Task) : State × Nat :=
  let n := s.eng.nextTask
  (setTask (s.withEng { s.eng with nextTask := n + 1 }) n (some t), n)

/-- The port a frame came in on; frames of INJ rings have none. -/
def ingressPort (f : Frame) : Option Nat :=
  match f.ingress with
  | .subport n => some (n / 4)
  | .bond n => some (n / 4)
  | _ => none

/-- The buffer location of a frame (R360). -/
def frameLoc (f : Frame) : Nat := f.cells.headD 0 * 256

/-- An operand declaration (R324). -/
def declare (kind area table loc len : Nat) : Bytes := le 1 (kind + 16 * area) ++ le 1 table ++ le 4 loc ++ le 2 len

/-- A frame that starts a cookie check (R236). -/
def cookieCheck (f : Frame) : Bool := bareAck f && cookieMode f != 0

/-- The descriptor of the task of an admitted frame (R217, R323, R324, R329). -/
def setupDesc (s : State) (f : Frame) : Bytes :=
  let canon := canonicalKey f.key
  let check := cookieCheck f
  le 1 (if check then 2 else 1) ++ le 1 (2 * flag f.cookie + 4 * flag (canon != f.key) + 8 * 2) ++ le 1 f.slice ++ [0] ++
    le 2 (ingressSub f) ++ le 2 f.tenant ++ le 1 f.cls ++ [0] ++
    (if check then [0, 0] else cut f.clsEntry 12 2) ++ le 2 (leAt f.clsEntry 14 2 % 4096) ++ [0, 0] ++
    le 8 (hash1 s canon % 2 ^ 63) ++ le 8 (frameLoc f) ++
    declare 1 0 0 0 0 ++ declare 2 1 0 (leAt f.clsEntry 14 2 % 4096) 0 ++ List.replicate 16 0 ++
    cut f.key 0 40 ++ List.replicate 24 0

/-- The tasks of a slice's setup queue that came in on a port. -/
def portTasks (s : State) (n port : Nat) : Nat :=
  ((sliceAt s n).setupQ.filter (fun t => match taskAt s t with
    | some x => leAt x.desc 4 2 != 0xFFFF && leAt x.desc 4 2 / 4 == port
    | none => false)).length

/-- The ports of the group that a slice serves. -/
def groupPorts (s : State) (n : Nat) : List Nat :=
  if n < 16 then upFrom (6 * n) 6
  else match (List.range 16).find? (fun g => getAt none s.ft.joined g == some 16) with
    | some g => upFrom (6 * g) 6
    | none => []

/-- Posts admission-closed or admission-opened (R340, R357). -/
def postAdmission (s : State) (n port num : Nat) : State :=
  postEvent s 0x08 num (portOrigin s port 0 0) (le 2 (sliceAt s n).setupQ.length ++ le 2 (portTasks s n port))

/-- A port's admission closes. -/
def closePort (s : State) (n port : Nat) : State :=
  let x := sliceAt s n
  postAdmission (setSlice s n { x with closedPorts := x.closedPorts ++ [port] }) n port 7

/-- A port's admission reopens. -/
def reopenPort (s : State) (n port : Nat) : State :=
  let x := sliceAt s n
  postAdmission (setSlice s n { x with closedPorts := x.closedPorts.filter (· != port) }) n port 8

/-- Closes the admission of ports when the setup queue passes ADMIT_CLOSE, reopens every port that it has closed when it
falls below ADMIT_OPEN (R340). -/
def checkAdmission (s : State) (n : Nat) : State :=
  let level := (sliceAt s n).setupQ.length
  let close := min (regField s .schedCfg 0 8 12) 2047
  let open_ := min (regField s .schedCfg 0 20 12) close
  if close < level then
    ((groupPorts s n).filter (fun p => decide (level < 6 * portTasks s n p) && !portClosed s p)).foldl
      (fun s p => closePort s n p) s
  else if level < open_ then (sliceAt s n).closedPorts.foldl (fun s p => reopenPort s n p) s
  else s

/-- The admission of a setup is returned: token and count (R217). -/
def returnAdmission (s : State) (f : Frame) : State :=
  if f.admitted then tenDown (returnToken s 2 f.tenant) f.tenant else s

/-- A setup verdict: the frame is parked and its task enters the setup queue, or the queue is full (R138, R217). -/
def parkSetup (s : State) (fid : Nat) (f : Frame) : State :=
  let n := f.slice
  let x := sliceAt s n
  if 2048 ≤ x.setupQ.length then
    let s := returnAdmission (count s 4 n 28 1) f
    let s := postEvent s 0x02 2 (origin s n 0x16 0 0)
      (le 2 f.tenant ++ le 1 f.cls ++ le 2 (match ingressPort f with
        | some p => p
        | none => 0xFFFF) ++ le 2 x.setupQ.length)
    dropParked s fid
  else
    let s := setFrame s fid (some { f with stage := .setup, context := false, parkedAt := s.clk.cc })
    match newTask s { desc := setupDesc s f, cluster := homeCluster s f.key, arrived := 0, frame := some fid } with
    | (s, t) =>
      let x := sliceAt s n
      checkAdmission (setSlice s n { x with setupQ := x.setupQ ++ [t] }) n

/-! Dropping at the assembler. -/

/-- A frame's verdict is DROP, formed by the assembler with a reason of its own: only its mirror copy leaves (R134, R216,
R274, R380).  The spec gives the reasons of these drops no codes: the value is open (log 95). -/
def dropVerdict (s : State) (fid : Nat) (f : Frame) : State :=
  let reason := (Config.freeValue s.free).toNat % 65536
  let v := paste (f.verdict.set 0 0) 8 (le 2 reason)
  let f := { f with verdict := fillVerdict f v false false }
  unblock (settleFetches (passVerdict (s.withFree (s.free + 1)) fid f)) f.key

/-- The assembler forms a frame's verdict from the one under construction, after its END word (R134, R137, R216,
R217, R230). -/
def assemble (s : State) (fid : Nat) : State :=
  match frameAt s fid with
  | none => s
  | some f =>
    let kind := (byteAt f.verdict 0).toNat
    if f.refused || f.learnDrop then
      dropVerdict (returnAdmission s f) fid f
    else if kind = 4 && f.admitted then parkSetup s fid f
    else
      let s := returnAdmission s f
      let kind := if kind = 1 ∨ kind = 2 ∨ kind = 3 then kind else 0
      let parked := f.stage == .tierB
      let cut := (kind == 1 || kind == 3) && !parked && !earlierParked s fid f
      let f := { f with verdict := fillVerdict f (f.verdict.set 0 (BitVec.ofNat 8 kind)) cut false }
      unblock (settleFetches (passVerdict s fid f)) f.key

end Sys2Proof.Machine
end

