-- ==== Sys2Proof/Machine/Insert.lean ====
section
/-! DEFINITION. Insertion and relocation of twinned records (R172, R181-R188, R195) and the release of the frames
parked on them (R175, R550). -/

namespace Sys2Proof.Machine

/-! Relocation paths (R184, R185). -/

/-- A search meets a bucket that another path has reserved (R184), or one of the index that is lost (R576). -/
def bucketBusy (s : State) (dir : Bool) (b : Nat) : Bool :=
  (!dir && s.fs.lost.contains b) ||
    s.fs.moves.any (fun m => m.dir == dir && (m.held.contains b || m.path.any (fun k => k / 8 == b)))

/-- An entry lies on a path whose moves are under way, which will fill it. -/
def onPath (s : State) (dir : Bool) (k : Nat) : Bool := s.fs.moves.any (fun m => m.dir == dir && m.path.contains k)

/-- A free entry of an index bucket; no key is placed in a lost one (R184, R576). -/
def freeEntry (s : State) (b : Nat) : Option Nat :=
  if s.fs.lost.contains b then none else (bucketKeys b).find? (fun k => idxAt s k == 0 && !onPath s false k)

/-- A free entry of a directory bucket. -/
def freeDir (s : State) (b : Nat) : Option Nat := (bucketKeys b).find? (fun k => dirAt s k == 0 && !onPath s true k)

/-- Two entries have the primary bucket and tag of a key already; both copies of a moving entry count once (R172). -/
def crowded (s : State) (x : Nat × Nat × Nat) : Bool :=
  let at_ (b : Nat) (alt : Bool) : List Nat := (bucketKeys b).filter (fun k =>
    let e := idxAt s k
    ixValid e && ixTag e == x.2.2 && ixChoice e == alt)
  let es := at_ x.1 false ++ at_ x.2.1 true
  decide (2 ≤ ((es.map (fun k => 2 * ixSlot (idxAt s k) + ixDir (idxAt s k))).eraseDups).length)

/-- The same of the directory, where a fetch reads at most two candidates (R193). -/
def dirCrowded (s : State) (key : Bytes) : Bool :=
  decide (2 ≤ (((dirCandidates s key).map (fun k => 2 * dxSlot (dirAt s k) + dxDir (dirAt s k))).eraseDups).length)

/-- Tag and CHOICE of an entry of the index or the directory. -/
def entryTag (s : State) (dir : Bool) (k : Nat) : Nat × Bool :=
  if dir then (bits (dirAt s k) 0 24, dxChoice (dirAt s k)) else (ixTag (idxAt s k), ixChoice (idxAt s k))

/-- The search for a relocation path (R184): moves left, step, bucket, path so far.  An entry that it meets again cannot move
twice, so there is no path (log 55). -/
def searchPath (s : State) (dir : Bool) (tag : Nat) : Nat → Nat → Nat → List Nat → Option (List Nat)
  | 0, _, _, _ => none
  | n + 1, step, b, path =>
    let k := 8 * b + (step + tag) % 8
    let e := entryTag s dir k
    let b2 := otherOf (if dir then nbb s else nba s) b e.1 e.2
    if bucketBusy s dir b || bucketBusy s dir b2 || path.contains k then none
    else match (if dir then freeDir s b2 else freeEntry s b2) with
      | some j => some (path ++ [k, j])
      | none => searchPath s dir tag n (step + 1) b2 (path ++ [k])

/-- The entry that a path's present move takes away. -/
def moveSource (m : Move) : Nat := m.path.getD (m.path.length - 2) 0

/-- The free entry that a path's present move fills. -/
def moveTarget (m : Move) : Nat := m.path.getD (m.path.length - 1) 0

/-- Starts the move at the far end of a path: the new copy is written with MOVING, and a move into an alternate bucket of the
index raises the spill count of its primary (R185 step 1). -/
def beginMove (s : State) (m : Move) : State :=
  let m := { m with since := s.fs.nextFetch }
  let k := moveSource m
  let s := s.withFs { s.fs with moves := s.fs.moves ++ [m] }
  if m.dir then
    let e := dirAt s k
    if dxValid e then setDir s (moveTarget m) (putBits (putBits e 58 1 1) 60 1 (1 - flag (dxChoice e))) else s
  else
    let e := idxAt s k
    if ixValid e = false then s
    else
      let s' := setIdx s (moveTarget m) (ixBit (ixBit e 50 true) 52 (!ixChoice e))
      if ixChoice e then s' else spillUp s' (k / 8)

/-- Steps 3 and 4 of a move: the old copy is invalidated and MOVING cleared; where the index entry is back in its primary bucket,
the spill count will fall (R185). -/
def flipMove (s : State) (m : Move) : State :=
  let src := moveSource m
  let dst := moveTarget m
  let s := s.withFs { s.fs with moves := s.fs.moves.filter (fun x => x != m) }
  if m.dir then
    let s := if dxValid (dirAt s src) then setDir s src 0 else s
    let e := dirAt s dst
    if dxValid e then setDir s dst (putBits e 58 1 0) else s
  else
    let old := ixValid (idxAt s src)
    let s := setIdx s src 0
    let e := idxAt s dst
    let s := if ixValid e then setIdx s dst (ixBit e 50 false) else s
    if old && ixValid e && !ixChoice e then s.withFs { s.fs with spillDec := s.fs.spillDec ++ [dst / 8] } else s

/-- Nothing is to take the freed place of a path any more. -/
def voidMoves (s : State) (p : Move → Bool) : State :=
  s.withFs { s.fs with moves := s.fs.moves.map (fun m => if p m then { m with entry := 0 } else m) }

/-! Placing keys (R172, R183, R184, R191). -/

/-- A key may take a place in the index: it has no entry there, and its tag has room in its primary bucket (R172, R183). -/
def placeable (s : State) (key : Bytes) : Bool := (keyEntry s key).isNone && !crowded s (flowBuckets s key)

/-- Places a key's index entry (R184): the state, and whether the entry stands already or waits for a path's moves. -/
def placeKey (s : State) (key : Bytes) (e : Nat) (who : PlaceFor) : Option (State × Bool) :=
  let x := flowBuckets s key
  if placeable s key = false then none
  else match freeEntry s x.1 with
    | some k => some (setIdx s k e, true)
    | none =>
      match freeEntry s x.2.1 with
      | some k => some (spillUp (setIdx s k (ixBit e 52 true)) x.1, true)
      | none =>
        match searchPath s false x.2.2 64 0 x.1 [] with
        | some path => some (beginMove s { path := path, entry := e, who := who }, false)
        | none => none

/-- Places a key's directory entry in the same way (R191). -/
def placeDir (s : State) (key : Bytes) (cold dir : Nat) : Option (State × Bool) :=
  let x := dirBuckets s key
  let e := dxMake x.2.2 cold dir
  if dirCrowded s key then none
  else match freeDir s x.1 with
    | some k => some (setDir s k e, true)
    | none =>
      match freeDir s x.2.1 with
      | some k => some (setDir s k (putBits e 60 1 1), true)
      | none =>
        match searchPath s true x.2.2 64 0 x.1 [] with
        | some path => some (beginMove s { dir := true, path := path, entry := e, who := .cold cold }, false)
        | none => none

/-! Cold slots (R187, R195, R200). -/

/-- Changes an insertion. -/
def modIns (s : State) (id : Nat) (f : Insertion → Insertion) : State :=
  s.withFs { s.fs with ins := s.fs.ins.map (fun i => if i.id = id then f i else i) }

/-- An insertion knows how it will end. -/
def endIns (s : State) (id status : Nat) : State := modIns s id (fun i => { i with status := some status })

/-- Posts insert-fail: pier and course of the failing key's primary bucket; outcome 1 placed in tier B, 2 NO_SPACE
(R187, R210). -/
def postInsertFail (s : State) (key : Bytes) (dir outcome : Nat) : State :=
  let b := (flowBuckets s key).1
  postEvent s 0x05 1 (pierOrigin s (bucketPier s b) (bucketAddr s b)) (le 1 dir ++ le 1 outcome)

/-- A command, if one asked, completes. -/
def tellOrigin (s : State) (o : Origin) (r : Reply) : State :=
  match o with
  | .command a => finish s a r
  | _ => s

/-- A record has found no cold slot or no directory place: an insertion ends NO_SPACE, a demotion leaves it in tier A (R187,
R195, R200 step 1, R209). -/
def coldFails (s : State) (r : Bytes) (who : ColdFor) : State :=
  match who with
  | .insertion id dir => endIns (postInsertFail s (recKey r dir) dir 2) id 3
  | .demotion slot _ origin =>
    tellOrigin (count s 10 (slotPier s slot) 19 1) origin { status := stNoSpace }

/-- Steps 2 and 3 of a demotion (R200): the tier-B count rises, the slot enters the demotion table, and its index entries are
invalidated. -/
def enterDemotion (s : State) (slot c : Nat) (origin : Origin) : State :=
  let s := dropEntries (tierBUp s (recTenant (recAt s slot))) slot
  s.withFs { s.fs with dems := s.fs.dems ++ [{ slot := slot, cold := c, stamp := s.tbl.epoch, origin := origin }] }

/-- A cold slot and the entries it has so far are given back. -/
def giveBackCold (s : State) (p : ColdPlace) : State :=
  let s := dropDir s p.cold p.record
  checkWatermarks (s.withFs { s.fs with coldFree := p.cold :: s.fs.coldFree, coldFullPosted := false })

/-- Both directory entries of a record stand: it is placed in tier B with LIVE at once (R187, R195, R205), or its demotion
begins, unless the record has been deleted meanwhile (R200).  Demotion and promotion-refused times have no stated value
yet and are free (log 6). -/
def coldPlaced (s : State) (p : ColdPlace) : State :=
  let s := s.withFs { s.fs with colds := s.fs.colds.filter (fun q => q.cold != p.cold) }
  match draw s with
  | (v, s) =>
    let make (x : Bytes) (flags : Nat) : Bytes := coldMake p.record x (v.toNat % 2 ^ 32) (v.toNat / 2 ^ 32) flags
    match p.who with
    | .insertion id dir =>
      let s := tierBUp (setCold s p.cold (make (extSetCold p.exten (some p.cold)) 1)) (recTenant p.record)
      let s := postInsertFail s (recKey p.record dir) dir 1
      modIns s id (fun i => { i with tierB := true, cold := p.cold, status := some 0 })
    | .demotion slot gen origin =>
      if slotLive s slot && recGen (recAt s slot) == gen then
        let x := extSetCold (extAt s slot) (some p.cold)
        enterDemotion (setExt (setCold s p.cold (make x 0)) slot x) slot p.cold origin
      else tellOrigin (giveBackCold s p) origin { status := stBusy }

/-- Places the directory entries of a record from a direction on; one that finds no place gives its cold slot back. -/
def placeDirs (s : State) (p : ColdPlace) : Nat → Nat → State
  | 0, _ => coldPlaced s p
  | n + 1, dir =>
    match placeDir s (recKey p.record dir) p.cold dir with
    | none =>
      let s := s.withFs { s.fs with colds := s.fs.colds.filter (fun q => q.cold != p.cold) }
      coldFails (giveBackCold s p) p.record p.who
    | some (s, true) => placeDirs s p n (dir + 1)
    | some (s, false) => s

/-- A record takes a cold slot and both directory entries (R187, R195, R200). -/
def takeCold (s : State) (r x : Bytes) (who : ColdFor) : State :=
  if s.fs.tbSize = 0 then coldFails s r who
  else match allocCold s with
    | none => coldFails (coldFull s) r who
    | some (s, c) =>
      let s := if coldReady s then s else coldFull s
      let p : ColdPlace := { cold := c, record := r, exten := x, who := who }
      placeDirs (s.withFs { s.fs with colds := s.fs.colds ++ [p] }) p 2 0

/-! Insertions (R181, R183, R187). -/

/-- A slot that was never more than an insertion's is freed after the epoch fence (R187). -/
def freeLater (s : State) (slot gen : Nat) : State :=
  s.withFs { s.fs with dels := s.fs.dels ++
    [{ tierB := false, slot := slot, gen := gen, stamp := s.tbl.epoch, mark := s.fs.nextFetch, live := false
       reason := 0, origin := .none }] }

/-- The placed entry, if any, is invalidated, the record goes to tier B, and its slot is freed after the fence (R187). -/
def insertFails (s : State) (i : Insertion) (dir : Nat) : State :=
  let r := recAt s i.slot
  let x := extAt s i.slot
  takeCold (freeLater (dropEntries s i.slot) i.slot i.gen) r x (.insertion i.id dir)

/-- The return key of an insertion is placed, its forward key being placed (R181 step 3, R183). -/
def placeReturnKey (s : State) (i : Insertion) : State :=
  let key := recKey (recAt s i.slot) 1
  if (keyEntry s key).isSome then endIns (freeLater (dropEntries s i.slot) i.slot i.gen) i.id 2
  else
    let x := flowBuckets s key
    match placeKey s key (ixMake x.2.2 i.slot 1 i.gen true) (.insertion i.id) with
    | none => insertFails s i 1
    | some (s, true) => endIns s i.id 0
    | some (s, false) => s

/-- The record that an insertion writes (R181 step 2): counters and hit bits 0, both times now, MIRROR as its map entry
says (R547); a copy from another member keeps what its RECORD cell carries and names its owner (R548). -/
def newRecord (s : State) (r : Bytes) (gen : Nat) (origin : Origin) : Bytes :=
  let r := paste (cut r 0 128) 110 (le 2 gen)
  match origin with
  | .mirror _ dev _ => paste r 123 (le 1 (dev % 4 * 16))
  | _ =>
    let r := recSetCounts r 0 0
    let r := paste r 123 (le 1 (ownDev s % 4 * 16) ++ le 4 (coarse s))
    recSetMirror r (mirrorTarget s r).isSome

/-- The extension that an insertion writes (R181 step 2, R548). -/
def newExt (s : State) (x : Bytes) (origin : Origin) : Bytes :=
  match origin with
  | .mirror _ _ _ => extSetCold (cut x 0 32) none
  | _ => List.replicate 16 0 ++ le 4 (coarse s) ++ List.replicate 12 0

/-- Starts the insertion of a record (R181, R183, R187, R188). -/
def startInsert (s : State) (r x : Bytes) (origin : Origin) : State :=
  let id := s.fs.nextIns
  let s := s.withFs { s.fs with nextIns := id + 1 }
  match allocSlot s (recKey r 0) with
  | none =>
    let i : Insertion := { id := id, slot := 0, gen := 0, tierB := true, cold := 0, status := none, pend := false, origin := origin }
    let s := s.withFs { s.fs with ins := s.fs.ins ++ [i] }
    if recKey r 0 = recKey r 1 then endIns s id 4
    else if (keyEntry s (recKey r 0)).isSome then endIns s id 1
    else if (keyEntry s (recKey r 1)).isSome then endIns s id 2
    else takeCold s (newRecord s r 0 origin) (newExt s x origin) (.insertion id 0)
  | some (s, slot, gen) =>
    let i : Insertion := { id := id, slot := slot, gen := gen, tierB := false, cold := 0, status := none, pend := true, origin := origin }
    let s := s.withFs { s.fs with ins := s.fs.ins ++ [i] }
    let s := setExt (setRec s slot (newRecord s r gen origin)) slot (newExt s x origin)
    let s := checkWatermarks s
    let fwd := recKey r 0
    let b := flowBuckets s fwd
    let undo := checkWatermarks (freeSlot s slot)
    if fwd = recKey r 1 then endIns undo id 4
    else if (keyEntry s fwd).isSome then endIns undo id 1
    else if (keyEntry s (recKey r 1)).isSome then endIns undo id 2
    else match placeKey s fwd (ixMake b.2.2 slot 0 gen true) (.insertion id) with
      | none => insertFails s i 0
      | some (s, true) => placeReturnKey s i
      | some (s, false) => s

/-! The end of an insertion. -/

/-- A thread of a logical engine. -/
def threadAt (s : State) (n t : Nat) : Thread := getAt {} (getAt {} s.eng.en n).threads t

/-- Writes a thread. -/
def setThread (s : State) (n t : Nat) (x : Thread) : State :=
  let e : Engine := getAt {} s.eng.en n
  s.withEng { s.eng with en := setAt {} s.eng.en n { e with threads := setAt {} e.threads t x } }

/-- The operation that a thread waits for has its result (R310); MEMORY_OP_COMPLETE delivers it. -/
def memResult (s : State) (n t value addr : Nat) (data : Bytes) : State :=
  let x := threadAt s n t
  setThread s n t { x with mem := some { rd := x.rdWait, value := BitVec.ofNat 64 value, addr := addr, data := data, load := false } }

/-- A thread still serves a task and waits on memory, halted or not. -/
def awaitsMemory (s : State) (n t task : Nat) : Bool :=
  let x := threadAt s n t
  x.task == some task && (x.st == .waitMemory || (x.st == .halted && x.resume == .waitMemory))

/-- Answers a RECORD cell (R534, R549): outcome 0 applied, 1 NO_SPACE, 2 duplicate. -/
def ackRecord (s : State) (link dev seq outcome : Nat) : State :=
  sendCell s link 0 (mkCell s 3 dev 0 seq outcome true true [])

/-- Counts an outcome of R218 in the slice and the tenant of a frame. -/
def countOutcome (s : State) (slice ten code : Nat) : State :=
  count (count s 4 slice (32 + code) 1) 5 ten (4 + code) 1

/-- Frames parked on a record whose insertion failed are dropped and counted (R175). -/
def dropOnRecord (s : State) (fid code : Nat) : State :=
  match frameAt s fid with
  | some f => dropParked (countOutcome s f.slice f.tenant code) fid
  | none => s

/-- MIRROR_SYNC is set (R560). -/
def mirrorSync (s : State) : Bool := regField s .stackCfg 0 2 1 == 1

/-- Frames may leave with a new record, or are held until its INSERT is acknowledged (R550): `sent` is the partner and
sequence of the INSERT. -/
def releaseOrHold (s : State) (fids : List Nat) (at_ : RecPlace) (sent : Option (Nat × Nat)) : State :=
  match sent with
  | some (dev, seq) =>
    if mirrorSync s then
      let p : Bool × Nat := match at_ with
        | .hot n => (false, n)
        | .cold c => (true, c)
      s.withStk { s.stk with holds := s.stk.holds ++
        [{ partner := dev, seq := seq, frames := fids, cold := p.1, slot := p.2 }] }
    else fids.foldl (fun s f => releaseParked s f at_) s
  | none => fids.foldl (fun s f => releaseParked s f at_) s

/-- The INSERT of a mirrored record goes to its partner (R547); its partner and sequence. -/
def sendInsert (s : State) (r x : Bytes) : State × Option (Nat × Nat) :=
  if recMirror r = false then (s, none)
  else match mirrorTarget s r with
    | some (e, dev) => (sendRecord s 1 e dev r x false, some (dev, getAt 0 s.stk.txSeq dev))
    | none => (s, none)

/-- An insertion by software: a command, or a management task (R182, R214). -/
def bySoftware (s : State) (i : Insertion) : Bool :=
  match i.origin with
  | .command _ => true
  | .thread _ _ task => match taskAt s task with
    | some x => byteAt x.desc 0 == 5
    | none => false
  | _ => false

/-- An insertion of a task's thread sets byte 1 bit 5 of the task's descriptor and names the record it wrote. -/
def noteInserted (s : State) (i : Insertion) (task : Nat) : State :=
  match taskAt s task with
  | some x =>
    setTask s task (some { x with
      desc := paste x.desc 1 (le 1 ((byteAt x.desc 1).toNat ||| 32))
      written := some { cold := i.tierB, slot := if i.tierB then i.cold else i.slot, gen := i.gen } })
  | none => s

/-- What an insertion's end tells its asker: a command completes, a thread gets its result, a RECORD cell is
acknowledged (R182, R214, R221, R254, R310, R549). -/
def tellInserted (s : State) (i : Insertion) (status ten : Nat) : State :=
  let s := if status = 0 && bySoftware s i then tenUp s ten else s
  match i.origin with
  | .none => s
  | .command aseq =>
    finish s aseq (if status = 0 then {} else if status = 1 then { status := stExists, result := 0 }
      else if status = 2 then { status := stExists, result := 1 }
      else if status = 3 then { status := stNoSpace } else { status := stSameKey })
  | .thread n t task =>
    let s := if status = 0 then noteInserted s i task else s
    if awaitsMemory s n t task then memResult s n t (status + 256 * flag (i.tierB && status == 0)) 0 [] else s
  | .mirror link dev seq =>
    let s := if status = 0 then (touch s 16 0 6).withStk { s.stk with copies := s.stk.copies + 1 } else s
    ackRecord s link dev seq (if status = 0 then 0 else 1)

/-- A record that software has inserted is seen by frames of the validating epoch on (R182). -/
def validateInsert (s : State) (i : Insertion) : State :=
  if bySoftware s i then
    let s := advanceEpoch s
    let at_ : RecPlace := if i.tierB then .cold i.cold else .hot i.slot
    s.withFs { s.fs with mgmt := s.fs.mgmt ++ [{ tierB := i.tierB, slot := if i.tierB then i.cold else i.slot,
                                                  gen := recGen (placeRec s at_), epoch := s.tbl.epoch }] }
  else s

/-- The insertion ends (R175, R181 steps 4 and 5): PEND is cleared, and the frames parked on the record go. -/
def finishInsert (s : State) (i : Insertion) (status : Nat) : State :=
  let s := s.withFs { s.fs with ins := s.fs.ins.filter (fun x => x.id != i.id) }
  let fids := if i.pend then getAt [] s.fs.parked i.slot else []
  let s := if i.pend then s.withFs { s.fs with parked := setAt [] s.fs.parked i.slot [] } else s
  let at_ : RecPlace := if i.tierB then .cold i.cold else .hot i.slot
  let r := placeRec s at_
  let x := match at_ with
    | .hot n => extAt s n
    | .cold c => coldExt (coldAt s c)
  if status = 0 then
    let s := if i.tierB then s else modEntries s i.slot (fun e => ixBit e 53 false)
    let s := validateInsert s i
    match sendInsert s r x with
    | (s, sent) =>
      let s := tellInserted s i 0 (recTenant r)
      if fids.isEmpty then s else releaseOrHold s fids at_ sent
  else
    let s := tellInserted s i status (recTenant r)
    fids.foldl (fun s f => dropOnRecord s f (if status = 4 then 5 else 4)) s

/-- An insertion whose end is known ends (R175, R181). -/
def insertionEnd (s : State) (id : Nat) : State :=
  match s.fs.ins.find? (fun i => i.id == id) with
  | none => s
  | some i =>
    match i.status with
    | none => s
    | some st => finishInsert s i st

/-- Insertions by software whose validating epoch every frame has reached need no mark any more (R182). -/
def pruneMgmt (s : State) : State :=
  s.withFs { s.fs with mgmt := s.fs.mgmt.filter (fun m => !fencePassed s ((m.epoch + 2 ^ 32 - 1) % 2 ^ 32)) }

/-- A frame of an epoch does not see a record that software has inserted later, in a slot or a cold slot (R182). -/
def hiddenFor (s : State) (epoch : Nat) (tierB : Bool) (slot gen : Nat) : Bool :=
  s.fs.mgmt.any (fun m => m.tierB == tierB && m.slot == slot && m.gen == gen && earlier s epoch m.epoch)

/-- The mark of a record moves with it between the tiers (R182). -/
def carryMark (s : State) (tierB : Bool) (slot gen to_ newGen : Nat) : State :=
  s.withFs { s.fs with mgmt := s.fs.mgmt ++ (s.fs.mgmt.filter (fun m =>
    m.tierB == tierB && m.slot == slot && m.gen == gen)).map (fun m =>
      { m with tierB := !tierB, slot := to_, gen := newGen }) }

/-- SPILL_COUNT_DECREMENT (R185 step 3): 192 cc after an entry has moved back into its primary bucket. -/
def execSpillCountDecrement (bucket : Nat) (s : State) : Host.Outcome State Fault Refusal :=
  match takeFirst (· == bucket) s.fs.spillDec with
  | some (_, rest) => .next (spillDown (s.withFs { s.fs with spillDec := rest }) bucket)
  | none => .next s

end Sys2Proof.Machine
end

