-- ==== Sys2Proof/Machine/Lookup.lean ====
section
/-! DEFINITION. Outcomes of the flow lookup (R171-R178, R192, R215, R216), tier-B fetches and promotion (R193-R197,
R201, R204), and deadline faults (R139-R146). -/

namespace Sys2Proof.Machine

/-! Deadline faults. -/

/-- The unit of a stage of R140. -/
def stageUnit (stage : Nat) : Nat :=
  match stage with
  | 1 => 0x11
  | 2 | 6 | 7 => 0x12
  | 3 => 0x13
  | 8 => 0x15
  | _ => 0x14

/-- The stateless results of a faulted frame: whether they are complete, an exact-match hit or an LPM result being
there (R142, R271). -/
def statelessComplete (f : Frame) : Bool :=
  (match f.sec with
    | some b => bit (byteAt b 0).toNat 0 && (byteAt b 1 == 0x08 || byteAt b 1 == 0x09)
    | none => false) || f.lpm.isSome

/-- The action of a deadline fault: 0 dropped, 1 forwarded stateless, 2 dropped for incomplete results (R142, R144). -/
def faultAction (s : State) (f : Frame) : Nat :=
  if !(dlForward f && permissive f) then 0
  else if statelessComplete f = false then 2
  else match resolveStateless f with
    | .drop => 0
    | .punt => 1
    | .dest c q e => if (destOf s f c q e).isSome then 1 else 0

/-- Posts deadline-fault within the limit of its slice, or counts it suppressed (R143, R144, R146). -/
def postDeadline (s : State) (f : Frame) (stage action : Nat) : State :=
  let x := sliceAt s f.slice
  if x.events < regFieldAt s f.epoch .dlEvtCfg 0 0 16 then
    let s := setSlice s f.slice { x with events := x.events + 1 }
    postEvent s 0x02 1 (origin s f.slice (stageUnit stage) 0 0)
      (cut f.key 0 40 ++ le 2 f.tenant ++ le 1 f.cls ++ le 1 stage ++ le 1 action ++
        le 1 (flag f.extended + 2 * flag (!hasToken s 0 f.tenant)) ++
        le 2 (if stage = 4 ∨ stage = 5 then f.words else 0))
  else count s 4 f.slice 24 1

/-- Takes a frame out of the fetches it waits on. -/
def leaveFetch (s : State) (fid : Nat) : State :=
  s.withFs { s.fs with fetches := s.fs.fetches.map (fun x => { x with frames := x.frames.filter (· != fid) }) }

/-- A deadline fault of a frame without verdict (R137, R140-R143). -/
def deadlineFault (s : State) (fid stage : Nat) : State :=
  match frameAt s fid with
  | none => s
  | some f =>
    let s := count (count s 4 f.slice (15 + stage) 1) 5 f.tenant 0 1
    let s := countPmc s { code := 0x05, block := f.slice, who := some (f.tenant, f.cls) } 1
    let s := takeToken s 0 f.tenant
    let act := faultAction s f
    let s := postDeadline s f stage act
    let s := leaveFetch (returnAdmission s f) fid
    if act = 1 then
      let v := paste (f.verdict.set 0 1) 1 (le 1 0 ++ le 2 (0xFFE + leAt f.verdict 2 2 / 4096 * 4096))
      let f := { f with mirror := none, hit := false }
      let f := { f with verdict := fillVerdict f v false true }
      unblock (settleFetches (passVerdict s fid f)) f.key
    else unblock (settleFetches (dropFrame s fid)) f.key

/-- A frame has no verdict yet. -/
def noVerdict (f : Frame) : Bool := f.stage == .slice || f.stage == .tierB

/-- A bank of the microcode store. -/
def bankOf (s : State) (b : Nat) : Bank := if b = 0 then s.seq.bank0 else s.seq.bank1

/-- A microcode word. -/
def bankWord (s : State) (b addr : Nat) : BitVec 320 := getAt 0 (bankOf s b).words addr

/-- The flow result is in the workspace, or the frame makes no flow lookup. -/
def flowKnown (f : Frame) : Bool := f.hit || f.miss || f.key.isEmpty

/-- The result of a frame's latest secondary lookup is in the workspace (R124, R130). -/
def secKnown (f : Frame) : Bool := f.sec.isSome && f.secReqs.isEmpty

/-- The stage that holds a frame at its deadline (R140): a fetch not returned, no context, or what the word to be
executed waits for.  DESIGN CHOICE (log 14): a frame that waits for nothing is held by the classifier before its first
word, by the verdict assembler after it. -/
def heldStage (s : State) (f : Frame) : Nat :=
  if f.stage == .tierB && !flowKnown f then 6
  else if f.context = false then 5
  else
    let w := (bankWord s f.bank f.pc).toNat
    if bit w 40 && !flowKnown f then 2
    else if (bit w 41 && f.lpm.isNone) || (bit w 42 && f.acl.isNone) then 3
    else if (bit w 43 && !secKnown f) || (bit w 44 && f.colour.isNone) then 5
    else if f.words = 0 then 1
    else 8

/-- DEADLINE_FAULT (R139, R140): the deadline of a frame without a verdict passes. -/
def execDeadlineFault (fid : Nat) (s : State) : Host.Outcome State Fault Refusal :=
  match frameAt s fid with
  | some f => if noVerdict f then .next (deadlineFault s fid (heldStage s f)) else .next s
  | none => .next s

/-! The setup check (R215, R216). -/

/-- The cause for which a setup is refused: 1 DL_BUDGET, 2 NO_SYN, 3 QUOTA, 4 RATE (R215). -/
def setupRefusal (s : State) (f : Frame) : Option Nat :=
  if refusing s f.tenant && !(bucketCfg s 0 f.tenant).unbudgeted then some 1
  else if isTcp f && trackMode f == 1 && !opening f && !(bareAck f && cookieMode f != 0) then some 2
  else if (match quotaOf s f.tenant with
      | some q => decide (q ≤ tenCount s f.tenant)
      | none => false) then some 3
  else if !hasToken s 2 f.tenant && !(bucketCfg s 2 f.tenant).unbudgeted then some 4
  else none

/-- The cookie decision, by the level before the take (R215). -/
def cookieDecision (s : State) (f : Frame) : Bool :=
  opening f && (cookieMode f == 2 ||
    (cookieMode f == 1 &&
      decide (2 * bucketLevel s 2 f.tenant < (bucketCfg s 2 f.tenant).burst * 1000)))

/-- A lookup outcome of setup: the frame has missed and is admitted or refused (R215-R217). -/
def setupCheck (s : State) (fid : Nat) : State :=
  match frameAt s fid with
  | none => s
  | some f =>
    let f := { f with miss := true, flow := some 0 }
    match setupRefusal s f with
    | some c => setFrame (count s 5 f.tenant c 1) fid (some { f with refused := true })
    | none =>
      let s := setFrame s fid (some { f with admitted := true, cookie := cookieDecision s f })
      let s := tenUp (takeToken s 2 f.tenant) f.tenant
      countPmc s { code := 0x06, block := f.slice, who := some (f.tenant, f.cls) } 1

/-! Hits. -/

/-- The word of R174. -/
def flowWord (slot dir gen : Nat) (tierB fetched : Bool) : Nat :=
  slot % 2 ^ 25 + 2 ^ 25 * (dir % 2) + 2 ^ 26 * flag tierB + 2 ^ 27 * flag fetched + 2 ^ 32 * (gen % 2 ^ 16)

/-- An earlier frame of a frame's connection and direction is parked and does not have its record yet (R32). -/
def earlierWaiting (s : State) (fid : Nat) (f : Frame) : Bool :=
  s.slices.frames.any (fun p => decide (p.1 < fid) && (match p.2 with
    | some x => x.key == f.key && !x.key.isEmpty &&
        ((x.stage == .tierB && !flowKnown x) || x.stage == .setup || x.stage == .pending)
    | none => false))

/-- A frame has found its record; behind earlier frames that are parked it is parked too (R32, R174).  Frames that one fetch
serves keep their order. -/
def recordHit (s : State) (fid : Nat) (r : Bytes) (word : Nat) : State :=
  match frameAt s fid with
  | none => s
  | some f =>
    let f := { f with hit := true, flow := some word, record := r }
    if (f.stage == .slice && earlierParked s fid f) || (f.stage == .tierB && earlierWaiting s fid f) then
      setFrame s fid (some { f with stage := .pending, behind := true, context := false, fetch := none, parkedAt := s.clk.cc })
    else setFrame s fid (some f)

/-! Fetches and promotion. -/

/-- A waiting frame gets the record of a fetch: it goes on with the word for its direction, or, where the record has
not its key or the frame does not see it yet, to the setup check (R182, R194). -/
def serveFrame (s : State) (fid : Nat) (r : Bytes) (slot gen : Nat) (tierB fetched hidden : Bool) : State :=
  match frameAt s fid with
  | none => s
  | some f =>
    match keyDir r f.key with
    | some d => if hidden then setupCheck s fid else recordHit s fid r (flowWord slot d gen tierB fetched)
    | none => setupCheck s fid

/-- A frame does not see the record at a place yet (R182). -/
def hiddenAt (s : State) (fid : Nat) (at_ : RecPlace) : Bool :=
  match frameAt s fid, at_ with
  | some f, .hot n => hiddenFor s f.epoch false n (recGen (recAt s n))
  | some f, .cold c => hiddenFor s f.epoch true c (recGen (coldRec (coldAt s c)))
  | none, _ => false

/-- A frame is served from a tier-A slot. -/
def serveHot (fetched : Bool) (n : Nat) (s : State) (fid : Nat) : State :=
  serveFrame s fid (recAt s n) n (recGen (recAt s n)) false fetched (hiddenAt s fid (.hot n))

/-- A frame is served from a cold copy by the fetch of an entry (R197). -/
def serveCold (entry c : Nat) (s : State) (fid : Nat) : State :=
  let r := coldRec (coldAt s c)
  serveFrame s fid r entry (recGen r) true true (hiddenAt s fid (.cold c))

/-- Changes a fetch. -/
def modFetch (s : State) (id : Nat) (f : Fetch → Fetch) : State :=
  s.withFs { s.fs with fetches := s.fs.fetches.map (fun x => if x.id = id then f x else x) }

/-- Removes a fetch. -/
def dropFetch (s : State) (id : Nat) : State :=
  s.withFs { s.fs with fetches := s.fs.fetches.filter (fun x => x.id != id) }

/-- The lowest free entry of the outstanding-fetch table (R193). -/
def freeFetch (s : State) : Option Nat :=
  if 4096 ≤ s.fs.fetches.length then none
  else (List.range (s.fs.fetches.length + 1)).find? (fun i => !s.fs.fetches.any (fun f => f.id == i))

/-- The fence of a demotion is renewed: a frame of the current epoch has been served from its slot (R201). -/
def renewDem (s : State) (slot : Nat) : State :=
  s.withFs { s.fs with dems := s.fs.dems.map (fun d => if d.slot = slot then { d with stamp := s.tbl.epoch } else d) }

/-- The record a joining frame gets from a fetch that has its result: from its tier-A slot or the cold copy. -/
def joinServed (s : State) (fid : Nat) (f : Fetch) : State :=
  match f.slot, f.cold with
  | some n, c => serveHot c.isSome n (renewDem s n) fid
  | none, some c => serveCold f.id c s fid
  | none, none => s

/-- The issue of a fetch as an event: on the channel and at the address of its primary directory bucket (R193, R614). -/
def fetchEvent (s : State) (f : Frame) : PmcEvent :=
  let a := dirAddr s (dirBuckets s f.key).1
  { code := 0x08, block := 24, unit := some (servingChannel s a), addr := some a, who := some (f.tenant, f.cls) }

/-- A miss resolved to tier B: it joins a fetch of its key, or issues one within the miss budget, or is a deadline fault
(R116, R117, R192, R193, R204). -/
def startFetch (s : State) (fid : Nat) : State :=
  match frameAt s fid with
  | none => s
  | some f =>
    let parked (id : Nat) : Option Frame := some { f with stage := .tierB, extended := true, fetch := some id }
    let refuse : State := deadlineFault (count s 5 f.tenant 14 1) fid 7
    match s.fs.fetches.find? (fun x => x.key == f.key) with
    | some x =>
      if 32 ≤ x.joined then refuse
      else
        let s := setFrame s fid (parked x.id)
        let s := modFetch s x.id (fun y => { y with joined := y.joined + 1 })
        if x.slot.isSome || x.cold.isSome then joinServed s fid x
        else modFetch s x.id (fun y => { y with frames := y.frames ++ [fid] })
    | none =>
      match freeFetch s with
      | none => refuse
      | some id =>
        if !hasToken s 1 f.tenant && !(bucketCfg s 1 f.tenant).unbudgeted then refuse
        else
          let s := setFrame (takeToken s 1 f.tenant) fid (parked id)
          let s := countPmc s (fetchEvent s f) 1
          let x : Fetch := { id := id, serial := s.fs.nextFetch, key := f.key, frames := [fid], joined := 1 }
          updatePanic (s.withFs { s.fs with fetches := s.fs.fetches ++ [x], nextFetch := s.fs.nextFetch + 1 })

/-- A promotion has both its entries (R196 step 5). -/
def finishPromotion (s : State) (f : Fetch) (slot c : Nat) : State :=
  let s := setColdFlags s c (coldFlags (coldAt s c) / 2 * 2)
  dropFetch (tierBDown s (recTenant (recAt s slot))) f.id

/-- A promotion has found no place: what was placed is invalidated, and the slot waits for the fence (R197); the fetch stays
for the write-backs of its frames (R193). -/
def refusePromotion (s : State) (f : Fetch) (slot c : Nat) : State :=
  let s := dropEntries s slot
  let b := coldAt s c
  let s := setCold s c (coldMake (coldRec b) (coldExt b) (coldDemoted b) (coarse s) (coldFlags b ||| 2))
  let s := s.withFs { s.fs with refused := s.fs.refused ++
    [{ slot := slot, gen := recGen (recAt s slot), cold := c, stamp := s.tbl.epoch
       packets := recPackets (coldRec b), octets := recOctets (coldRec b) }] }
  settleFetches (modFetch s f.id (fun x => { x with slot := none, cold := some c, ending := true, left := some slot }))

/-- The return key of a promoted record is placed, its forward key being placed. -/
def promoteReturn (s : State) (f : Fetch) (slot c : Nat) : State :=
  let r := recAt s slot
  let x := flowBuckets s (recKey r 1)
  match placeKey s (recKey r 1) (ixMake x.2.2 slot 1 (recGen r) false) (.promotion f.id) with
  | none => refusePromotion s f slot c
  | some (s, true) => finishPromotion s f slot c
  | some (s, false) => s

/-- Promotion of the record of a fetch that has hit (R196). -/
def promote (s : State) (f : Fetch) (c : Nat) (slot gen : Nat) : State :=
  let b := coldAt s c
  let r := paste (coldRec b) 110 (le 2 gen)
  let r := paste r 123 (le 1 (recHits r ||| 1))
  let s := carryMark s true c (recGen (coldRec b)) slot gen
  let s := checkWatermarks (setExt (setRec s slot r) slot (coldExt b))
  let s := f.frames.foldl (serveHot true slot) s
  let s := modFetch s f.id (fun x => { x with frames := [], slot := some slot, cold := some c })
  let x := flowBuckets s (recKey r 0)
  match placeKey s (recKey r 0) (ixMake x.2.2 slot 0 gen false) (.promotion f.id) with
  | none => refusePromotion s f slot c
  | some (s, true) => promoteReturn s f slot c
  | some (s, false) => s

/-- The frames of a fetch are served from the cold copy (R197). -/
def fetchCold (s : State) (f : Fetch) (c : Nat) : State :=
  let s := modFetch s f.id (fun x => { x with frames := [], cold := some c, ending := true })
  settleFetches (f.frames.foldl (serveCold f.id c) s)

/-- A fetch hits a live cold record (R194, R196, R197). -/
def fetchHit (s : State) (f : Fetch) (c : Nat) : State :=
  let b := coldAt s c
  let late := decide (16 ≤ wrapSub 32 (coarse s) (coldRefused b))
  let s := if bit (coldFlags b) 1 && late then setColdFlags s c (coldFlags b % 2) else s
  if bit (coldFlags (coldAt s c)) 1 || s.fs.dels.any (fun d => d.tierB && d.slot == c) then fetchCold s f c
  else match allocSlot s (recKey (coldRec b) 0) with
    | none => fetchCold s f c
    | some (s, slot, gen) => promote s f c slot gen

/-- A fetch ends as a miss: each frame goes on to its setup check (R194). -/
def fetchMiss (s : State) (f : Fetch) : State := dropFetch (f.frames.foldl setupCheck s) f.id

/-- A check failure: the frames of a fetch are dropped and counted, BAD is set, and the integrity event is posted
(R194); `c` is the cold slot, if its directory entry was read. -/
def fetchBad (s : State) (f : Fetch) (c : Option Nat) : State :=
  let p := bucketPier s (flowBuckets s f.key).1
  let s := count s 10 p 18 f.frames.length
  let s := match c with
    | some k => postEvent (markBad s k (coldRec (coldAt s k)) true) 0x05 5 (coldOrigin s k) (le 8 k)
    | none => s
  dropFetch (f.frames.foldl (fun s x => dropParked s x) s) f.id

/-- A fetch meets an entry marked BAD: its frames are dropped in the same way (R194). -/
def fetchMarked (s : State) (f : Fetch) : State :=
  let p := bucketPier s (flowBuckets s f.key).1
  dropFetch (f.frames.foldl (fun s x => dropParked s x) (count s 10 p 18 f.frames.length)) f.id

/-- The index entries of an abandoned demotion are back: it leaves the demotion table, and the fetch is released (R201). -/
def reinserted (s : State) (slot : Nat) : State :=
  match demOf s slot with
  | none => s
  | some d =>
    let s := s.withFs { s.fs with
      dems := s.fs.dems.filter (fun e => e.slot != slot)
      fetches := s.fs.fetches.filter (fun f => !(f.slot == some slot && f.cold.isNone)) }
    tellOrigin (tierBDown s (recTenant (recAt s slot))) d.origin { status := stBusy }

/-- The re-insertion finds no path: the demotion goes on from step 4, with a new fence for the frames served meanwhile
(R201); the fetch stays for their write-backs (R193). -/
def reinsertFails (s : State) (slot : Nat) : State :=
  let s := dropEntries s slot
  settleFetches (s.withFs { s.fs with
    dems := s.fs.dems.map (fun d => if d.slot = slot then { d with back := false, stamp := s.tbl.epoch } else d)
    fetches := s.fs.fetches.map (fun f =>
      if f.slot = some slot ∧ f.cold.isNone then { f with ending := true, left := some slot } else f) })

/-- The entries of an abandoned demotion are inserted again, from a direction on (R201). -/
def reinsert (slot : Nat) : Nat → Nat → State → State
  | 0, _, s => reinserted s slot
  | n + 1, dir, s =>
    let r := recAt s slot
    let x := flowBuckets s (recKey r dir)
    match placeKey s (recKey r dir) (ixMake x.2.2 slot dir (recGen r) false) (.reinsert slot) with
    | none => reinsertFails s slot
    | some (s, true) => reinsert slot n (dir + 1) s
    | some (s, false) => s

/-- A fetch is answered from a slot in the demotion table, and the demotion is abandoned, unless it is so already (R201). -/
def fetchDemoting (s : State) (f : Fetch) (d : Dem) : State :=
  let s := f.frames.foldl (serveHot false d.slot) (renewDem s d.slot)
  let s := modFetch s f.id (fun x => { x with directory := true, frames := [], slot := some d.slot })
  if d.back then s
  else
    let s := s.withFs { s.fs with dems := s.fs.dems.map (fun e => if e.slot = d.slot then { e with back := true } else e) }
    reinsert d.slot 2 0 s

/-- The candidates of a fetch, after its directory reads: at most two entries (R193). -/
def fetchCands (s : State) (f : Fetch) : List Nat := ((dirCandidates s f.key).take 2).map (dirAt s)

/-- The demotion that a fetch's candidates name. -/
def candDemoting (s : State) (f : Fetch) (es : List Nat) : Option Dem :=
  s.fs.dems.find? (fun d => es.any (fun e => dxSlot e == d.cold) && (keyDir (recAt s d.slot) f.key).isSome)

/-- Another fetch already reads a cold slot that holds the key of this one (R193). -/
def candFetched (s : State) (f : Fetch) (es : List Nat) : Option Fetch :=
  s.fs.fetches.find? (fun x => x.id != f.id && es.any (fun e =>
    (x.cands.contains (dxSlot e) || x.cold == some (dxSlot e)) &&
      (keyDir (coldRec (coldAt s (dxSlot e))) f.key).isSome))

/-- The frames of a fetch join another one, up to 32; the others are refused as R117 states (R193). -/
def joinFetch (s : State) (f x : Fetch) : State :=
  let s := dropFetch s f.id
  f.frames.foldl (fun s fid =>
    match fetchAt s x.id, frameAt s fid with
    | some y, some fr =>
      if 32 ≤ y.joined then deadlineFault (count s 5 fr.tenant 14 1) fid 7
      else
        let s := setFrame s fid (some { fr with fetch := some y.id })
        let s := modFetch s y.id (fun z => { z with joined := z.joined + 1 })
        if y.slot.isSome || y.cold.isSome then joinServed s fid y
        else modFetch s y.id (fun z => { z with frames := z.frames ++ [fid] })
    | _, _ => s) s

/-- What a fetch does once its directory buckets have come back readable. -/
def directoryBack (s : State) (f : Fetch) : State :=
  let es := fetchCands s f
  match candDemoting s f es with
  | some d => fetchDemoting s f d
  | none =>
    match candFetched s f es with
    | some x => joinFetch s f x
    | none =>
      if es.any dxBad then fetchMarked s f
      else if es.isEmpty then fetchMiss s f
      else modFetch s f.id (fun x => { x with directory := true, cands := es.map dxSlot })

/-- TIER_B_DIRECTORY_RETURN (R193, R201, R202): both directory buckets of a fetch return. -/
def execTierBDirectoryReturn (fetch : Nat) (prim alt : ReadOutcome) (s : State) : Host.Outcome State Fault Refusal :=
  match fetchAt s fetch with
  | none => .next s
  | some f =>
    if f.directory then .next s
    else
      let x := dirBuckets s f.key
      let s := ddrRead (ddrRead s (dirAddr s x.1) 64 prim 1) (dirAddr s x.2.1) 64 alt 1
      let bad := readsBad s (dirAddr s x.1) 64 prim || readsBad s (dirAddr s x.2.1) 64 alt
      .next (updatePanic (if bad then fetchBad s f none else directoryBack s f))

/-- What a fetch does with the cold record `c` that has come back; `bad` says that it is poisoned. -/
def recordBack (s : State) (f : Fetch) (c : Nat) (cs : List Nat) (bad : Bool) : State :=
  let b := coldAt s c
  let mine := (keyDir (coldRec b) f.key).isSome
  if bad || (mine && cut b 248 8 != coldCheck b) then fetchBad s f (some c)
  else if mine && coldLive b then fetchHit s f c
  else if cs.isEmpty then fetchMiss s f
  else modFetch s f.id (fun x => { x with cands := cs })

/-- TIER_B_RECORD_RETURN (R194): the cold record of a fetch's next candidate returns. -/
def execTierBRecordReturn (fetch : Nat) (r : ReadOutcome) (s : State) : Host.Outcome State Fault Refusal :=
  match fetchAt s fetch with
  | none => .next s
  | some f =>
    match f.cands with
    | [] => .next s
    | c :: cs =>
      if f.directory = false ∨ f.slot.isSome ∨ f.cold.isSome then .next s
      else
        let s := ddrRead s (coldAddr s c) 256 r 1
        .next (updatePanic (recordBack s f c cs (readsBad s (coldAddr s c) 256 r)))

/-! The tier-A lookup (R171). -/

/-- A miss in tier A resolves to tier B or to setup (R192). -/
def resolveMiss (s : State) (fid : Nat) (f : Frame) : State :=
  let s := countPmc s { code := 0x04, block := f.slice, unit := some 0x12, who := some (f.tenant, f.cls) } 1
  if tierBCount s f.tenant ≠ 0 then startFetch s fid else setupCheck s fid

/-- A frame whose lookup met an uncorrectable error is dropped (R177). -/
def lookupDrop (s : State) (fid : Nat) : State := dropParked s fid

/-- A bucket or record read is counted, with a corrected error (R157). -/
def readAt (s : State) (pier addr : Nat) (r : ReadOutcome) : State :=
  let s := bankAccess s pier addr
  if r = .corrected then courseCorrected s pier addr else s

/-- A candidate's record has another generation than its entry (R177, R210). -/
def inconsistent (s : State) (k : Nat) : State :=
  let e := idxAt s k
  let p := slotPier s (ixSlot e)
  postEvent (count s 10 p 14 1) 0x05 3 (pierOrigin s p (recordAddr s (ixSlot e)))
    (le 4 (ixSlot e) ++ le 1 (ixGen e) ++ le 2 (recGen (recAt s (ixSlot e))))

/-- A candidate's record has the generation bits of its entry (R171, R177). -/
def consistent (s : State) (k : Nat) : Bool := recGen (recAt s (ixSlot (idxAt s k))) % 16 == ixGen (idxAt s k)

/-- A candidate is the hit for a frame (R171, R182, R554). -/
def matches_ (s : State) (f : Frame) (k : Nat) : Bool :=
  let e := idxAt s k
  let r := recAt s (ixSlot e)
  consistent s k && recKey r (ixDir e) == f.key && servable s r && !hiddenFor s f.epoch false (ixSlot e) (recGen r)

/-- The candidates' records, all of which are read, are compared (R171): the first that matches is the hit; every record
of another generation is posted (R177). -/
def compareCands (s : State) (f : Frame) (ks : List Nat) : State × Option Nat :=
  ((ks.filter (fun k => !consistent s k)).foldl inconsistent s, ks.find? (matches_ s f))

/-- What a hit on an index entry does: parked on a pending record, dropped on a quarantined one, or a tier-A hit (R171,
R175, R177). -/
def lookupHit (s : State) (fid : Nat) (f : Frame) (k : Nat) : State :=
  let e := idxAt s k
  let slot := ixSlot e
  let r := recAt s slot
  if ixPend e then
    let s := setFrame s fid (some { f with
      stage := .pending, context := false, parkedAt := s.clk.cc, verdict := f.verdict.set 0 4 })
    s.withFs { s.fs with parked := setAt [] s.fs.parked slot (getAt [] s.fs.parked slot ++ [fid]) }
  else if ixQuar e then
    let p := slotPier s slot
    lookupDrop (count s 10 p (7 + servingCourse s p (recordAddr s slot)) 1) fid
  else
    let s := countPmc s { code := 0x03, block := f.slice, unit := some 0x12, who := some (f.tenant, f.cls) } 1
    recordHit s fid r (flowWord slot (ixDir e) (recGen r) false false)

/-- A lookup reads a lost bucket: it counts as uncorrectable in the course that serves it (R576). -/
def lostRead (s : State) (b : Nat) : State :=
  let p := bucketPier s b
  if s.fs.lost.contains b then count s 10 p (7 + servingCourse s p (bucketAddr s b)) 1 else s

/-- A bucket read of a lookup: counted, with its errors (R157, R177, R576); whether the bucket can be used. -/
def bucketRead (s : State) (b : Nat) (r : ReadOutcome) : State × Bool :=
  let p := bucketPier s b
  let s := readAt s p (bucketAddr s b) r
  if r = .uncorrectable then (courseUncorrectable s p (bucketAddr s b) false, false)
  else (lostRead s b, !s.fs.lost.contains b)

/-- A record read of a lookup: counted, with its errors; an uncorrectable one sets QUAR on both entries (R157, R177). -/
def recordRead (s : State) (k : Nat × ReadOutcome) : State :=
  let slot := ixSlot (idxAt s k.1)
  let p := slotPier s slot
  let s := readAt s p (recordAddr s slot) k.2
  if k.2 = .uncorrectable then
    courseUncorrectable (modEntries s slot (fun e => ixBit e 58 true)) p (recordAddr s slot) true
  else s

/-- The buckets of a lookup are back and readable: the records of the first two candidates are read and compared (R171). -/
def lookupRecords (s : State) (fid : Nat) (f : Frame) (rec0 rec1 : ReadOutcome) : State :=
  let ks := (candidates s f.key).take 2
  let rs := ks.zip [rec0, rec1]
  let s := rs.foldl recordRead s
  if rs.any (fun k => k.2 == .uncorrectable) then lookupDrop s fid
  else match compareCands s f ks with
    | (s, some k) => lookupHit s fid f k
    | (s, none) => resolveMiss s fid f

/-- FLOW_LOOKUP_RESULT (R171, R177, R192): how the bucket and record reads of a frame's lookup ended. -/
def execFlowLookupResult (fid : Nat) (prim alt rec0 rec1 : ReadOutcome) (s : State) :
    Host.Outcome State Fault Refusal :=
  match frameAt s fid with
  | none => .next s
  | some f =>
    if !(f.stage == .slice) || flowKnown f then .next s
    else
      let x := flowBuckets s f.key
      let spilled := decide (spillAt s x.1 ≠ 0)
      match bucketRead s x.1 prim with
      | (s, ok) =>
        match (if spilled then bucketRead s x.2.1 alt else (s, true)) with
        | (s, ok2) =>
          if ok && ok2 then .next (lookupRecords s fid f rec0 rec1) else .next (lookupDrop s fid)

/-! Relocation (R185). -/

/-- The key of an index entry. -/
def entryKey (s : State) (e : Nat) : Bytes := recKey (recAt s (ixSlot e)) (ixDir e)

/-- A path of the index is free: the entry it was made for takes the freed place, if it may still be placed (R172, R183), and its
insertion, promotion or demotion goes on. -/
def pathFree (s : State) (m : Move) : State :=
  let ok := placeable s (entryKey s m.entry)
  let put (s : State) : State := setIdx s (m.path.headD 0) m.entry
  let dir := ixDir m.entry
  if m.entry = 0 then s
  else match m.who with
  | .insertion id =>
    match s.fs.ins.find? (fun i => i.id == id) with
    | some i =>
      if (keyEntry s (entryKey s m.entry)).isSome then
        endIns (freeLater (dropEntries s i.slot) i.slot i.gen) i.id (1 + dir)
      else if ok = false then insertFails s i dir
      else if dir = 0 then placeReturnKey (put s) i
      else endIns (put s) id 0
    | none => s
  | .promotion id =>
    match fetchAt s id with
    | some f =>
      match f.slot, f.cold with
      | some slot, some c =>
        if ok = false then refusePromotion s f slot c
        else if dir = 0 then promoteReturn (put s) f slot c
        else finishPromotion (put s) f slot c
      | _, _ => s
    | none => s
  | .reinsert slot => if ok then reinsert slot (1 - dir) (dir + 1) (put s) else reinsertFails s slot
  | .rescan => if ok then put s else s
  | .cold _ => s

/-- A path of the directory is free: the entry it was made for takes the freed place, and its placement goes on (R191). -/
def dirPathFree (s : State) (m : Move) : State :=
  match s.fs.colds.find? (fun p => m.entry != 0 && m.who == .cold p.cold) with
  | none => s
  | some p =>
    let dir := dxDir m.entry
    if dirCrowded s (recKey p.record dir) then
      coldFails (giveBackCold (s.withFs { s.fs with colds := s.fs.colds.filter (fun q => q.cold != p.cold) }) p) p.record p.who
    else placeDirs (setDir s (m.path.headD 0) m.entry) p (1 - dir) (dir + 1)

/-- RELOCATION_FLIP (R185 steps 3 and 4, R191): the old copy of a moved entry is invalidated and MOVING cleared, in the directory
once no fetch issued before the copy is outstanding; the next move of the path begins. -/
def execRelocationFlip (src : FlowEntry) (s : State) : Host.Outcome State Fault Refusal :=
  match s.fs.moves.find? (fun m => m.dir == src.dir && moveSource m == src.key) with
  | none => .next s
  | some m =>
    if src.dir && s.fs.fetches.any (fun f => decide (f.serial < m.since)) then .next s
    else
      let m' := { m with path := m.path.dropLast, held := (moveTarget m / 8) :: m.held }
      let s := flipMove s m
      if 1 < m'.path.length then .next (beginMove s m')
      else .next (if src.dir then dirPathFree s m' else pathFree s m')

end Sys2Proof.Machine
end

