-- ==== Sys2Proof/Machine/Measure.lean ====
section
/-! DEFINITION. The seed commitment, the measurement log and the measurement register (R599-R601). -/

namespace Sys2Proof.Machine

/-- A word of a key as last written, whether it has taken effect or still waits in its shadow (R601). -/
def writtenKeyWord (s : State) (i : Nat) : Nat :=
  match getAt none s.regs.shadow (Reg.off .hashKey i) with
  | some v => v.toNat
  | none => (hashKeyWord s i).toNat

/-- The 13 words of the key of a spreading profile. -/
def hashKeyBytes (s : State) (k : Nat) : Bytes :=
  (List.range 13).flatMap (fun w => le 4 (writtenKeyWord s (13 * k + w)))

/-- The seed commitment (R601): seeds, keys of profiles 0 to 63, serial number. -/
def seedCommitment (s : State) : Bytes :=
  sha384 (le 8 s.fs.seedA.toNat ++ le 8 s.fs.seedB.toNat ++ le 8 s.fs.seedC.toNat ++ le 8 s.fs.seedEA.toNat ++
    le 8 s.fs.seedEB.toNat ++ le 8 s.stk.seedS.toNat ++ (List.range 64).flatMap (hashKeyBytes s) ++
    le 8 Config.serialNumber.toNat)

/-- The 80 bytes of a log entry (R599). -/
def logEntry (idx kind event target version svn time : Nat) (digest : Bytes) : Bytes :=
  le 4 idx ++ le 1 kind ++ le 1 event ++ le 2 target ++ le 4 version ++ le 4 svn ++ le 8 time ++
    cut digest 0 48 ++ List.replicate 8 0

/-- Appends an entry (R599, R600): M takes the digest of M and the entry; a full log gives up its oldest, which enters
the base value. -/
def logAppend (s : State) (kind event target version svn : Nat) (digest : Bytes) : State :=
  let e := logEntry s.img.nextIndex kind event target version svn (timeNs s) digest
  let m := sha384 (s.img.m ++ e)
  let s := s.withImg { s.img with m := m, nextIndex := (s.img.nextIndex + 1) % 2 ^ 32 }
  match s.img.log with
  | o :: os =>
    if s.img.log.length < 4096 then s.withImg { s.img with log := s.img.log ++ [e] }
    else s.withImg { s.img with log := os ++ [e], base := sha384 (s.img.base ++ o) }
  | [] => s.withImg { s.img with log := [e] }

/-- Logs a draw of seeds or a write of a spreading key (R599). -/
def logSeeds (s : State) : State := logAppend s 0 3 0xFFFF 0 0 (seedCommitment s)

/-- Logs an image that has passed its check, event 1, or been activated, event 2 (R599). -/
def logImage (s : State) (event target : Nat) (i : ImgInfo) : State :=
  logAppend s i.kind event target i.version i.svn i.digest

/-- An image comes into force (R599, R607): the log entry and image-activated, which names its index. -/
def imageActivated (s : State) (target : Nat) (i : ImgInfo) : State :=
  let idx := s.img.nextIndex
  postEvent (logImage s 2 target i) 0x10 2 (origin s 19 5 0 0) (le 1 i.kind ++ le 2 target ++ le 4 i.version ++ le 4 idx)

end Sys2Proof.Machine
end

