-- ==== Sys2Proof/Machine/Lifecycle.lean ====
section
/-! DEFINITION. Deletion (R245-R248), the fence work of R244, ageing (R249-R252), demotion (R198-R201) and the hold of
parked frames (R220). -/

namespace Sys2Proof.Machine

/-! Deletion. -/

/-- The origin code of a device-wide event (R210). -/
def deviceOrigin (s : State) : Nat := origin s 31 0 0 0

/-- A forward key has been deleted: no purge waits for it any more (R254). -/
def purgeForget (s : State) (key : Bytes) : State :=
  s.withFs { s.fs with purges := s.fs.purges.map (fun p => { p with left := p.left.filter (· != key) }) }

/-- A purge has nothing more to do: its list is empty and none of its deletions waits. -/
def purgeDone (s : State) (p : Purge) : Bool :=
  p.left.isEmpty && !s.fs.dels.any (fun d => d.origin == .command p.aseq)

/-- Purges that have nothing more to do complete with their count (R254, R668). -/
def settlePurges (s : State) : State :=
  let ps := s.fs.purges.filter (purgeDone s)
  let s := s.withFs { s.fs with purges := s.fs.purges.filter (fun p => !purgeDone s p) }
  ps.foldl (fun s p => finish s p.aseq { result := p.count }) s

/-- Step 2 of a deletion of a tier-A record (R245, R247, R547): its entries go, a demotion of it is abandoned, its
partner is told, and the deletion waits from the current epoch on. -/
def deleteSlot (s : State) (slot reason : Nat) (origin : Origin) : State :=
  let r := recAt s slot
  let s := voidMoves (dropEntries s slot) (fun m => !m.dir && ixSlot m.entry == slot)
  let s := match extCold (extAt s slot) with
    | some c =>
      let s := dropDir s c r
      setColdFlags s c (coldFlags (coldAt s c) / 2 * 2)
    | none => s
  let s := match demOf s slot with
    | some d =>
      let s := s.withFs { s.fs with
        dems := s.fs.dems.filter (fun e => e.slot != slot)
        fetches := s.fs.fetches.map (fun f => if f.slot = some slot then { f with ending := true, left := some slot } else f) }
      settleFetches (tellOrigin (tierBDown s (recTenant r)) d.origin { status := stBusy })
    | none => s
  let s := mirrorChange s slot 3
  let s := s.withFs { s.fs with dels := s.fs.dels ++
    [{ tierB := false, slot := slot, gen := recGen r, stamp := s.tbl.epoch, mark := s.fs.nextFetch, live := false
       reason := reason, origin := origin }] }
  settlePurges (purgeForget s (recKey r 0))

/-- Step 2 of a deletion of a record live in tier B. -/
def deleteCold (s : State) (c reason : Nat) (origin : Origin) : State :=
  let r := coldRec (coldAt s c)
  let s := mirrorCold (dropDir s c r) c 3
  let s := s.withFs { s.fs with dels := s.fs.dels ++
    [{ tierB := true, slot := c, gen := recGen r, stamp := s.tbl.epoch, mark := s.fs.nextFetch, live := true
       reason := reason, origin := origin }] }
  settlePurges (purgeForget s (recKey r 0))

/-- What a request to delete a key meets (R245, R247). -/
inductive DelTarget where
  | missing
  | busy
  | promoted
  | hot (slot : Nat)
  | cold (c : Nat)
  deriving DecidableEq, Repr

/-- The record that a deletion of a key takes (R245, R247). -/
def delTarget (s : State) (key : Bytes) : DelTarget :=
  if (promotingKey s key).isSome then .promoted
  else match placeOfKey s key with
    | some (.hot n) => if slotPend s n then .busy else .hot n
    | some (.cold c) => .cold c
    | none => .missing

/-- The totals of a record, with OVERFLOW beside them (R242). -/
def totalsOf (r x : Bytes) : Bytes :=
  le 8 ((leAt x 0 8 + recPackets r) % 2 ^ 64) ++ le 8 ((leAt x 8 8 + recOctets r) % 2 ^ 64) ++ le 1 (recFlags r % 2)

/-- The final harvest (R246): the record's counts go to its tenant and its totals to flow records; a copy kept for
another member leaves the copy count only (R548). -/
def finalHarvest (s : State) (r x : Bytes) (live : Bool) (reason : Nat) : State :=
  let t := recTenant r
  if recOwner r = ownDev s then
    let s := account s t (recPackets r) (recOctets r)
    let s := if exports s r then writeExport s r x (endReason r reason) else s
    tenDown (if live then tierBDown s t else s) t
  else
    let s := (touch s 16 0 6).withStk { s.stk with copies := s.stk.copies - 1 }
    if live then tierBDown s t else s

/-- A deletion tells its asker: a purge counts it, a command completes with the totals (R245, R254). -/
def tellDeleted (s : State) (o : Origin) (totals : Bytes) : State :=
  match o with
  | .command a =>
    if s.fs.purges.any (fun p => p.aseq == a) then
      s.withFs { s.fs with purges := s.fs.purges.map (fun p =>
        if p.aseq = a then { p with count := p.count + 1 } else p) }
    else finish s a { block := totals }
  | _ => s

/-- Steps 5 and 6 of a deletion (R245). -/
def finishDelete (s : State) (d : Del) : State :=
  let s := s.withFs { s.fs with dels := s.fs.dels.filter (fun e => !(e.tierB == d.tierB && e.slot == d.slot)) }
  if d.reason = 0 then checkWatermarks (freeSlot s d.slot)
  else if d.tierB then
    let b := coldAt s d.slot
    let s := finalHarvest s (coldRec b) (coldExt b) d.live d.reason
    settlePurges (tellDeleted (checkWatermarks (freeCold s d.slot)) d.origin (totalsOf (coldRec b) (coldExt b)))
  else
    let r := recAt s d.slot
    let x := extAt s d.slot
    let s := finalHarvest s r x false d.reason
    let s := match extCold x with
      | some c => freeCold s c
      | none => s
    settlePurges (tellDeleted (checkWatermarks (freeSlot s d.slot)) d.origin (totalsOf r x))

/-- The fence of a deletion has passed, and for a record live in tier B no fetch issued before step 2 is outstanding (R245
step 3). -/
def deletionFenced (s : State) (d : Del) : Bool :=
  fencePassed s d.stamp && !(d.tierB && s.fs.fetches.any (fun f => decide (f.serial < d.mark)))

/-- No fold is open on the slot, and no insertion still holds it (R245 step 4, R187). -/
def deletionSettled (s : State) (d : Del) : Bool :=
  d.tierB || (!s.fs.folds.any (fun f => f.slot == d.slot && f.gen == d.gen) &&
    !(d.reason == 0 && s.fs.ins.any (fun i => i.pend && i.slot == d.slot)))

/-- DELETION_FENCE_PASSED (R245 steps 3 to 6): once the fence has passed, what the combiner holds is applied, and the deletion ends
unless a fold is open. -/
def execDeletionFencePassed (slot : Nat) (tierB : Bool) (s : State) : Host.Outcome State Fault Refusal :=
  match s.fs.dels.find? (fun d => d.tierB == tierB && d.slot == slot) with
  | none => .next s
  | some d =>
    if deletionFenced s d = false then .next s
    else
      let s := if tierB then s else flushTracks (flushComb s slot d.gen) slot d.gen
      if deletionSettled s d then .next (finishDelete s d) else .next s

/-! Work that waits on a fence (R244, R197). -/

/-- A refused promotion whose fence has passed: the counts collected in its slot go to the cold copy, a sum past its maximum
stays at it with OVERFLOW set, and the slot is freed (R197, R241). -/
def endRefused (s : State) (x : Refused) : State :=
  let s := flushTracks (flushComb s x.slot x.gen) x.slot x.gen
  let r := recAt s x.slot
  let c := coldRec (coldAt s x.cold)
  let p := recPackets r - x.packets
  let b := recOctets r - x.octets
  let s := if passesMax c p b then coldSaturates s c else s
  let saturated := bit (recFlags r) 0 || passesMax c p b
  let s := modCold s x.cold (fun c e =>
    let c := if saturated then paste c 105 (le 1 (recFlags c ||| 1)) else c
    (recSetCounts c (min (recPackets c + p) maxPackets) (min (recOctets c + b) maxOctets), e))
  checkWatermarks (freeSlot s x.slot)

/-- The refused promotions whose fence has passed end. -/
def endAllRefused (s : State) : State :=
  let xs := s.fs.refused.filter (fun x => fencePassed s x.stamp)
  let s := s.withFs { s.fs with refused := s.fs.refused.filter (fun x => !fencePassed s x.stamp) }
  xs.foldl endRefused s

/-- PERIODIC_EPOCH_ADVANCE (R244): while a deletion, demotion or refused promotion waits, and no batch step holds it
back. -/
def execPeriodicEpochAdvance (s : State) : Host.Outcome State Fault Refusal :=
  if (s.fs.dels.isEmpty && s.fs.dems.isEmpty && s.fs.refused.isEmpty) || s.tbl.waits.any (·.batch) then .next s
  else .next (pruneMgmt (endAllRefused (advanceEpoch s)))

/-! Ageing (R249-R252). -/

/-- The class entry of a record for the current epoch (R98). -/
def classNow (s : State) (r : Bytes) : Bytes := tableOr0 s s.tbl.epoch 0x02 0 (recClass r) 16

/-- The idle code of a record by its class and tracking state (R211). -/
def idleCode (s : State) (r : Bytes) : Nat :=
  let e := classNow s r
  match recState r with
  | 1 | 2 | 9 => bits (leAt e 8 1) 4 4
  | 3 => bits (leAt e 9 1) 0 4
  | 4 | 5 | 6 => bits (leAt e 9 1) 4 4
  | 7 => bits (leAt e 10 1) 0 4
  | 8 => bits (leAt e 10 1) 4 4
  | _ => bits (leAt e 8 1) 0 4

/-- A record is judged in the present round (R249). -/
def judged (s : State) (r : Bytes) : Bool :=
  idleCode s r != 15 && s.fs.round % 2 ^ idleCode s r == 0

/-- SWEEPER_ROUND_START (R249). -/
def execSweeperRoundStart (s : State) : Host.Outcome State Fault Refusal :=
  if s.fs.formatted then .next (s.withFs { s.fs with round := (s.fs.round + 1) % 2 ^ 32 }) else .next s

/-- The purge that has a forward key still to delete. -/
def purgeOf (s : State) (key : Bytes) : Option Purge := s.fs.purges.find? (fun p => p.left.contains key)

/-- The sweeper skips a slot (R251, R548). -/
def sweepSkips (s : State) (slot : Nat) : Bool :=
  !slotLive s slot || slotPend s slot || promoting s slot || foldOpen s slot || isCopy s (recAt s slot)

/-- Byte 123 after a judged visit; `none` deletes the record (R250). -/
def judge (hits : Nat) : Option Nat :=
  if bit hits 0 then some (hits / 8 * 8)
  else if bit hits 2 then none
  else some (hits ||| 4)

/-- A judged visit (R250), with the active record of R618. -/
def judgeSlot (s : State) (slot : Nat) : State :=
  let r := recAt s slot
  let active (s : State) : State :=
    if exports s r && activeDue s (extAt s slot) then exportSlot s slot else s
  if judged s r then
    match judge (recHits r) with
    | some h => active (setRec s slot (paste r 123 (le 1 h)))
    | none => deleteSlot s slot 1 .none
  else active s

/-- SWEEPER_VISIT (R250, R251, R254): a purged record is deleted whatever its age. -/
def execSweeperVisit (slot : Nat) (s : State) : Host.Outcome State Fault Refusal :=
  if !s.fs.formatted || sweepSkips s slot then .next s
  else
    let s := touchRecord s 0 (some (.hot slot))
    match purgeOf s (recKey (recAt s slot) 0) with
    | some p => .next (deleteSlot s slot 3 (.command p.aseq))
    | none =>
      if regField s .sweepCfg 0 0 1 = 1 then .next (judgeSlot s slot) else .next s

/-- What the cold sweeper does with a cold record that it has read (R252, R254, R618): one that is being promoted waits (R247). -/
def coldSweep (s : State) (cold : Nat) : State :=
  let b := coldAt s cold
  let r := coldRec b
  if !coldLive b || isCopy s r || promotingCold s cold || s.fs.dels.any (fun d => d.tierB && d.slot == cold) then s
  else match purgeOf s (recKey r 0) with
    | some p => deleteCold s cold 3 (.command p.aseq)
    | none =>
      if regField s .sweepCfg 0 0 1 = 0 then s
      else if idleCode s r != 15 && decide (3 * 2 ^ idleCode s r * 128 < wrapSub 32 (coarse s) (recLast r)) then
        deleteCold s cold 1 .none
      else if exports s r && activeDue s (coldExt b) then exportCold s cold
      else s

/-- COLD_SWEEPER_READ (R252, R254, R498, R618): the cold sweeper reads a cold slot; a poisoned record is left as it is. -/
def execColdSweeperRead (read : ColdRead) (s : State) : Host.Outcome State Fault Refusal :=
  if !s.fs.formatted || decide (coldSlots s ≤ read.cold) then .next s
  else
    let a := coldAddr s read.cold
    let bad := readsBad s a 256 read.outcome
    let s := ddrRead s a 256 read.outcome 4
    .next (if bad then s else coldSweep s read.cold)

/-! Demotion (R198-R201). -/

/-- The bin of an age (R199). -/
def ageBin (age : Nat) : Nat := if age = 0 then 0 else min (Nat.log2 age + 1) 15

/-- The records of a histogram in bins k and above. -/
def olderThan (hist : Store Nat) (k : Nat) : Nat := ((upFrom k (16 - k)).map (getAt 0 hist)).foldl (· + ·) 0

/-- The threshold of a pass, from the histogram of the last one and the excess over the low watermark (R199): the
records of at least 2^k units are those of bins k + 1 and above. -/
def passThreshold (hist : Store Nat) (excess least : Nat) : Nat :=
  max least (match (List.range 15).find? (fun k => decide (excess ≤ olderThan hist (k + 1))) with
    | some k => 2 ^ k
    | none => 2 ^ 14)

/-- The excess of a pier: its slots in use over its quarter of the low watermark. -/
def pierExcess (s : State) (p : Nat) : Nat := pierUsed s p - lowMark s / 4

/-- A pass of a pier's demotion unit begins (R199). -/
def startPass (s : State) (p : Nat) : State :=
  let x := pierAt s p
  setPier s p { x with
    lastHist := x.hist, hist := [], passes := x.passes + 1
    threshold := passThreshold x.hist (pierExcess s p) (regField s .fsDemoteCfg 0 0 16) }

/-- TIER_A_ONLY of a tenant (R203). -/
def tierAOnly (s : State) (t : Nat) : Bool :=
  match tableNow s 0x05 0 t with
  | some b => bit (leVal b) 31
  | none => false

/-- A demotion of a slot begins (R200): a record that owns a cold slot enters the demotion table, another takes one first. -/
def startDemotion (s : State) (slot : Nat) (origin : Origin) : State :=
  let r := recAt s slot
  match extCold (extAt s slot) with
  | some c => enterDemotion s slot c origin
  | none => takeCold s r (extAt s slot) (.demotion slot (recGen r) origin)

/-- A record may be demoted by the unit (R199, R203). -/
def demotable (s : State) (slot : Nat) : Bool :=
  let r := recAt s slot
  !bit (recFlags r) 1 && !slotPend s slot && !promoting s slot && !takingCold s slot && !tierAOnly s (recTenant r)

/-- DEMOTION_VISIT (R199): the unit of the slot's pier reaches a slot; a pass begins at local slot 0. -/
def execDemotionVisit (slot : Nat) (s : State) : Host.Outcome State Fault Refusal :=
  let p := slotPier s slot
  if !s.fs.formatted then .next s
  else
    let s := if slot % pierSlots s = 0 then startPass s p else s
    if (pierAt s p).passes = 0 || !slotLive s slot then .next s
    else
      let age := wrapSub 32 (coarse s) (recLast (recAt s slot))
      let x := pierAt s p
      let bin := ageBin age
      let s := setPier s p { x with hist := setAt 0 x.hist bin (getAt 0 x.hist bin + 1) }
      if s.fs.demoting && decide (1 < x.passes) && decide (x.threshold ≤ age) && demotable s slot then
        .next (startDemotion s slot .none)
      else .next s

/-- DEMOTION_COMPLETE (R200 steps 4 and 5). -/
def execDemotionComplete (slot : Nat) (s : State) : Host.Outcome State Fault Refusal :=
  match demOf s slot with
  | none => .next s
  | some d =>
    if d.back || !fencePassed s d.stamp then .next s
    else
      let gen := recGen (recAt s slot)
      let s := flushTracks (flushComb s slot gen) slot gen
      let s := setCold s d.cold (coldMake (recAt s slot) (extAt s slot) (coarse s) (coldRefused (coldAt s d.cold)) 1)
      let s := carryMark s false slot gen d.cold gen
      let s := s.withFs { s.fs with
        dems := s.fs.dems.filter (fun e => e.slot != slot)
        fetches := s.fs.fetches.map (fun f => if f.slot = some slot then { f with slot := none, cold := some d.cold } else f) }
      .next (tellOrigin (settleFetches (checkWatermarks (freeSlot s slot))) d.origin {})

/-! The hold of parked frames (R220). -/

/-- A frame is held under MIRROR_SYNC (R550). -/
def heldBack (s : State) (fid : Nat) : Bool := s.stk.holds.any (fun h => h.frames.contains fid)

/-- SETUP_HOLD_EXPIRE (R220): the frame is dropped and counted; its task runs on. -/
def execSetupHoldExpire (fid : Nat) (s : State) : Host.Outcome State Fault Refusal :=
  match frameAt s fid with
  | none => .next s
  | some f =>
    if f.stage == .setup || heldBack s fid then
      let s := s.withStk { s.stk with holds := s.stk.holds.map (fun h =>
        { h with frames := h.frames.filter (· != fid) }) }
      .next (dropParked (count s 4 f.slice 30 1) fid)
    else .next s

end Sys2Proof.Machine
end

