-- ==== Sys2Proof/Machine/Courses.lean ====
section
/-! DEFINITION. Course faults and the rebuild of a course onto the spare (R157, R573-R577). -/

namespace Sys2Proof.Machine

/-- Posts no-spare (R588): kind 0 slice, 1 engine, 2 cluster, 3 course; a course is numbered 7 × pier + course. -/
def postNoSpare (s : State) (kind unit : Nat) : State := postEvent s 0x0F 7 (deviceOrigin s) (le 1 kind ++ le 2 unit)

/-- The origin code of a pier and course. -/
def courseOrigin (s : State) (p k : Nat) : Nat := origin s (20 + p) k 0 0

/-- The granules of a course (R153, R156): 64 banks of 65,536. -/
abbrev courseGranules : Nat := 4194304

/-- The course of a pier that is being rebuilt. -/
def rebuildingCourse (s : State) (p : Nat) : Option Nat := (List.range 6).find? (fun k => (courseOf s p k).rebuilding)

/-- A course is retired and its rebuild begins, unless course 6 is not free (R573): cause 0 fault, 1 command, 2 wake
failure.  The state, and whether it begins. -/
def retireCourse (s : State) (p k cause : Nat) (aseq : Option Nat) : State × Bool :=
  let six := courseOf s p 6
  if six.standing.isSome || six.retired || k == 6 then (postNoSpare s 3 (7 * p + k), false)
  else
    let s := setCourse s p 6 { six with standing := some k }
    let s := setCourse s p k { courseOf s p k with rebuilding := true, copied := 0, bad := 0, rebuilt := 0, aseq := aseq }
    let s := wakeRequest s .course [7 * p + 6] false
    (postEvent s 0x0F 4 (courseOrigin s p k) (le 1 cause), true)

/-- COURSE_CE_WINDOW_END (R157, R573): `count` are corrected errors of accesses that no other event shows.  Three
windows over the limit in a row are a course fault. -/
def execCourseCeWindowEnd (pier : PierNo) (course : Fin 7) (count_ : Nat) (s : State) :
    Host.Outcome State Fault Refusal :=
  let p := pier.val
  let k := course.val
  let x := courseOf s p k
  let n := x.window + count_
  let overs := if regField s .fsDemoteCfg 0 16 16 < n then x.overs + 1 else 0
  let s := count s 10 p k count_
  let s := setCourse s p k { x with window := 0, overs := overs % 3 }
  if overs = 3 then
    let s := postEvent s 0x05 4 (courseOrigin s p k) (le 8 n)
    .next (if regField s .ftCfg 0 1 1 = 1 && !x.retired && !x.rebuilding then (retireCourse s p k 0 none).1 else s)
  else .next s

/-- A record granule that a rebuild finds uncorrectable (R576): the record is quarantined, or rewritten from its cold
copy with OVERFLOW set. -/
def badRecord (s : State) (slot : Nat) : State :=
  if slotLive s slot = false then s
  else match extCold (extAt s slot) with
    | some c =>
      let r := coldRec (coldAt s c)
      let r := paste (paste r 110 (le 2 (recGen (recAt s slot)))) 105 (le 1 (recFlags r ||| 1))
      modEntries (setRec s slot r) slot (fun e => ixBit e 58 false)
    | none => modEntries s slot (fun e => ixBit e 58 true)

/-- An extension entry that a rebuild finds uncorrectable (R576). -/
def badExt (s : State) (slot : Nat) : State :=
  let r := recAt s slot
  setExt (setRec s slot (paste r 105 (le 1 (recFlags r ||| 1)))) slot (paste (extAt s slot) 0 (List.replicate 16 0))

/-- An index bucket that a rebuild finds uncorrectable is lost (R576). -/
def loseBucket (s : State) (p k b : Nat) : State :=
  let s := s.withFs { s.fs with lost := s.fs.lost ++ [b] }
  postEvent s 0x0F 6 (courseOrigin s p k) (le 4 b)

/-- An uncorrectable granule by the region it lies in (R154, R158, R576). -/
def badGranule (s : State) (p k addr : Nat) : State :=
  let ix := if s.fs.half then 0x20000000 else 0x40000000
  let ex := if s.fs.half then 0x28000000 else 0x50000000
  if addr < ix then badRecord s (p * pierSlots s + addr / 128)
  else if addr < ex then loseBucket s p k (p * (nba s / 4) + (addr - ix) / 64)
  else if addr < ex + pierSlots s * 32 then
    let n := p * pierSlots s + (addr - ex) / 32
    badExt (badExt s n) (n + 1)
  else s

/-- REBUILD_GRANULE_COPY (R574, R576): the copy has reached a granule of the course, and every one before it; the
granule is redirected to course 6, poisoned if it was uncorrectable. -/
def execRebuildGranuleCopy (pier : PierNo) (bank : Fin 64) (off : BitVec 16) (bad : Bool) (s : State) :
    Host.Outcome State Fault Refusal :=
  let p := pier.val
  match rebuildingCourse s p with
  | none => .next s
  | some k =>
    let i := 65536 * bank.val + off.toNat
    let x := courseOf s p k
    if i < x.copied || !isAwake s .course (7 * p + 6) then .next s
    else
      let s := setCourse s p k { x with copied := i + 1, bad := x.bad + flag bad }
      if bad then .next (badGranule s p k ((off.toNat * bankCount s + 64 * k + bank.val) * 64)) else .next s

/-- An entry stands in one of some buckets, or its other bucket is one of them. -/
def touchesBuckets (s : State) (bs : List Nat) (k e : Nat) : Bool :=
  ixValid e && (bs.contains (k / 8) || bs.contains (otherOf (nba s) (k / 8) (ixTag e) (ixChoice e)))

/-- Places a key's entry again after a rescan, under R184; it keeps PEND and QUAR. -/
def replaceKey (s : State) (e : Nat) : State :=
  let key := recKey (recAt s (ixSlot e)) (ixDir e)
  let x := flowBuckets s key
  match placeKey s key (ixBit (ixMake x.2.2 (ixSlot e) (ixDir e) (ixGen e) (ixPend e)) 58 (ixQuar e)) .rescan with
  | some (t, _) => t
  | none => s

/-- BUCKET_RESCAN (R576): when the copy is complete, every key with a bucket that the pier has lost is placed again, and
the bucket is no longer lost (log 55). -/
def execBucketRescan (pier : PierNo) (s : State) : Host.Outcome State Fault Refusal :=
  let p := pier.val
  match rebuildingCourse s p with
  | none => .next s
  | some k =>
    let x := courseOf s p k
    let bs := s.fs.lost.filter (fun b => bucketPier s b == p)
    if x.copied < courseGranules || bs.isEmpty then .next s
    else
      let es := s.fs.idx.filter (fun e => touchesBuckets s bs e.1 e.2)
      let s := es.foldl (fun s e => dropIdx s e.1) s
      let s := bs.foldl (fun s b => s.withFs { s.fs with spill := setAt 0 s.fs.spill b 0 }) s
      let s := s.withFs { s.fs with lost := s.fs.lost.filter (fun b => !bs.contains b) }
      let s := setCourse s p k { x with rebuilt := x.rebuilt + bs.length }
      .next (es.foldl (fun s e => replaceKey s e.2) s)

/-- REBUILD_COMPLETE (R577). -/
def execRebuildComplete (pier : PierNo) (s : State) : Host.Outcome State Fault Refusal :=
  let p := pier.val
  match rebuildingCourse s p with
  | none => .next s
  | some k =>
    let x := courseOf s p k
    if x.copied < courseGranules || s.fs.lost.any (fun b => bucketPier s b == p) then .next s
    else
      let s := setCourse s p k { x with rebuilding := false, retired := true, aseq := none }
      let s := postEvent (putBlk s .course (7 * p + k) .retention) 0x0F 5 (courseOrigin s p k)
        (le 4 x.bad ++ le 4 x.rebuilt)
      match x.aseq with
      | some a => .next (finish s a {})
      | none => .next s

/-- COURSE_RETIRE (R573, R587): completes at the course-rebuilt event. -/
def execCourseRetire (c : Cmd) (pier course : BitVec 8) (s : State) : Host.Outcome State Fault Refusal :=
  runCommand c 0x0F04 (fun aseq s =>
    let p := pier.toNat
    let k := course.toNat
    if 4 ≤ p ∨ 6 ≤ k then .done (err 2) s
    else if (courseOf s p k).rebuilding || (courseOf s p k).retired then .done (err 5) s
    else match retireCourse s p k 1 (some aseq) with
      | (s, true) => .later s
      | (s, false) => .done (err 5) s) s

end Sys2Proof.Machine
end

