-- ==== Sys2Proof/Machine/FlowCmds.lean ====
section
/-! DEFINITION. The commands of the flow store and of flows (R189, R209, R225, R254, R618) and DL_BUDGET_STATUS
(R152). -/

namespace Sys2Proof.Machine

/-! FS_FORMAT (R188, R189, R209). -/

/-- Memory left to software in GiB at FS_FORMAT: what is installed less the bands of channels retired at boot (R189,
R496). -/
def usableGib (s : State) : Nat := (32 - s.ddr.bootBands) * channelGib s

/-- Two ranges overlap; an empty one overlaps nothing. -/
def overlaps (a n b m : Nat) : Bool := n != 0 && m != 0 && decide (a < b + m) && decide (b < a + n)

/-- The policy region: first address and length (R225). -/
def policyRegion (s : State) : Nat × Nat :=
  (2 ^ 30 * regField s .flowPolicyCfg 0 0 12, 2 ^ 26 * regField s .flowPolicyCfg 0 12 8)

/-- The tier-B configuration of FS_TIERB_CFG may be applied (R189, R225). -/
def tierBOk (s : State) : Bool :=
  let base := regField s .fsTierbCfg 0 0 12
  let size := regField s .fsTierbCfg 0 12 12
  size == 0 || (size % 8 == 0 && decide (16 ≤ size) && decide (8 * base + 9 * size ≤ 8 * usableGib s) &&
    !overlaps (2 ^ 30 * base) (2 ^ 27 * 9 * size) (policyRegion s).1 (policyRegion s).2)

/-- Work that waits on records ends before a format: fetches miss, insertions end NO_SPACE, and deletions, demotions and
purges complete. -/
def endFlowWork (s : State) : State :=
  let s := s.fs.fetches.foldl fetchMiss s
  let s := s.fs.ins.foldl (fun s i => finishInsert s i 3) s
  let gone : Reply := { status := stNotFound }
  let s := s.fs.purges.foldl (fun s p => finish s p.aseq { result := p.count }) s
  let s := s.fs.dels.foldl (fun s d => tellOrigin s d.origin gone) s
  let s := s.fs.colds.foldl (fun s p => match p.who with
    | .demotion _ _ origin => tellOrigin s origin gone
    | .insertion _ _ => s) s
  s.fs.dems.foldl (fun s d => tellOrigin s d.origin gone) s

/-- Half geometry puts courses 3 to 5 of each pier into retention; full geometry wakes them (R158). -/
def geometryCourses (s : State) (half : Bool) : State :=
  ((List.range 4).flatMap (fun p => [7 * p + 3, 7 * p + 4, 7 * p + 5])).foldl (fun s n =>
    if half then (if isAwake s .course n then putBlk s .course n .retention else s)
    else wakeRequest s .course [n] false) s

/-- The draw of SEED_A and SEED_B (R169), logged under R599. -/
def drawFlowSeeds (s : State) : State :=
  let (a, s) := draw s
  let (b, s) := draw s
  logSeeds (s.withFs { s.fs with seedA := a, seedB := b })

/-- Formats the flow store: new seeds, geometry and tier B applied, every entry invalid, free lists rebuilt; generations
stay (R188, R209); a demotion that runs stops (R210). -/
def formatStore (s : State) (aseq : Nat) : State :=
  let s := drawFlowSeeds (endFlowWork s)
  let s := if s.fs.demoting then postEvent s 0x05 7 (deviceOrigin s) (le 8 (occupancy s)) else s
  let f := s.fs
  let half := regField s .fsGeometry 0 0 1 == 1
  let s := s.withFs { ({} : FsSt) with
    formatting := some aseq, half := half
    tbBase := regField s .fsTierbCfg 0 0 12, tbSize := regField s .fsTierbCfg 0 12 12
    seedA := f.seedA, seedB := f.seedB, seedC := f.seedC, seedEA := f.seedEA, seedEB := f.seedEB
    recs := f.recs, ext := f.ext, nextIns := f.nextIns, nextFetch := f.nextFetch, courses := f.courses }
  geometryCourses (s.withTen { s.ten with count := [], tierB := [], quotaHit := [] }) half

/-- FS_FORMAT (R209). -/
def execFsFormat (c : Cmd) (s : State) : Host.Outcome State Fault Refusal :=
  runCommand c 0x0501 (fun aseq s =>
    if s.fs.formatting.isSome then .wait
    else if tierBOk s then .later (formatStore s aseq) else .done (err 5) s) s

/-- FS_FORMAT_COMPLETE (R209, R249): round 0 of the sweeper begins. -/
def execFsFormatComplete (s : State) : Host.Outcome State Fault Refusal :=
  match s.fs.formatting with
  | none => .next s
  | some a =>
    let s := s.withStk { s.stk with needFormat := false }
    .next (finish (s.withFs { s.fs with formatting := none, formatted := true, round := 0 }) a {})

/-! Reading. -/

/-- The block of FLOW_READ: record, extension, tier, slot. -/
def flowBlock (r x : Bytes) (tier slot : Nat) : Bytes := cut r 0 128 ++ cut x 0 32 ++ le 1 tier ++ le 8 slot

/-- FLOW_READ (R209, R240, R247). -/
def execFlowRead (c : Cmd) (key : Bytes) (addr : BitVec 64) (s : State) : Host.Outcome State Fault Refusal :=
  runCommand c 0x0502 (fun _ s =>
    match hotOf s key with
    | some n =>
      if foldOpen s n then .wait
      else .done { block := flowBlock (recAt s n) (extAt s n) 0 n, addr := some addr.toNat } (touchRecord s 1 (some (.hot n)))
    | none =>
      match coldOf s key with
      | some k => .done { block := flowBlock (coldRec (coldAt s k)) (coldExt (coldAt s k)) 1 k, addr := some addr.toNat } s
      | none => .done { status := stNotFound } s) s

/-- How many buckets of a pier have a spill count. -/
def spillCount (s : State) (p v : Nat) : Nat :=
  if v = 0 then nba s / 4 - (s.fs.spill.filter (fun e => bucketPier s e.1 == p)).length
  else (s.fs.spill.filter (fun e => bucketPier s e.1 == p && e.2 == v)).length

/-- FS_STATUS (R209).  Bank utilisation has no stated measure and is a free value (log 6). -/
def execFsStatus (c : Cmd) (pier : BitVec 8) (s : State) : Host.Outcome State Fault Refusal :=
  runCommand c 0x0503 (fun _ s =>
    let p := pier.toNat
    if 4 ≤ p then .done (err 2) s
    else
      match draw s with
      | (use, s) =>
        let counts (lo : Nat) : Bytes := (List.range 7).flatMap (fun k => le 8 (counter s 10 p (lo + k)))
        let block := le 8 (pierUsed s p) ++ le 8 (pierFree s p) ++
          (List.range 16).flatMap (fun v => le 8 (spillCount s p v)) ++ le 8 use.toNat ++ counts 0 ++ counts 7 ++
          le 8 (coldUsed s) ++ le 8 (pierAt s p).threshold
        .done { block := block } s) s

/-- FS_TENANT_STATUS (R209). -/
def execFsTenantStatus (c : Cmd) (ten : BitVec 16) (s : State) : Host.Outcome State Fault Refusal :=
  runCommand c 0x0504 (fun _ s =>
    let t := ten.toNat
    let block := le 8 (bucketLevel s 1 t / 1000) ++ le 8 (tierBCount s t) ++ le 8 (counter s 5 t 14) ++
      le 8 (tenCount s t)
    .done { block := block } s) s

/-- TENANT_ACCOUNT (R254). -/
def execTenantAccount (c : Cmd) (ten : BitVec 16) (s : State) : Host.Outcome State Fault Refusal :=
  runCommand c 0x0605 (fun _ s =>
    let t := ten.toNat
    let block := le 8 (getAt 0 s.ten.packets t) ++ le 8 (getAt 0 s.ten.octets t) ++ le 8 (tenCount s t) ++
      le 8 (bucketLevel s 2 t / 1000) ++ (upFrom 1 4).flatMap (fun k => le 8 (counter s 5 t k))
    .done { block := block } s) s

/-- DL_BUDGET_STATUS (R152). -/
def execDlBudgetStatus (c : Cmd) (ten : BitVec 16) (s : State) : Host.Outcome State Fault Refusal :=
  runCommand c 0x0204 (fun _ s =>
    let t := ten.toNat
    match sampleCounters s 5 t (List.range 5) with
    | (s, vs) =>
      let block := le 8 (bucketLevel s 0 t / 1000) ++ le 1 (flag (refusing s t)) ++ le 8 (vs.headD 0) ++
        le 8 (vs.tail.foldl (· + ·) 0)
      .done { block := block } s) s

/-! Changing records. -/

/-- FLOW_DEMOTE (R209). -/
def execFlowDemote (c : Cmd) (key : Bytes) (s : State) : Host.Outcome State Fault Refusal :=
  runCommand c 0x0505 (fun aseq s =>
    if (promotingKey s key).isSome || (demotingKey s key).isSome then .done { status := stBusy } s
    else match placeOfKey s key with
      | none => .done { status := stNotFound } s
      | some (.cold _) => .done (err 5) s
      | some (.hot n) =>
        let r := recAt s n
        if bit (recFlags r) 1 || tierAOnly s (recTenant r) || s.fs.tbSize == 0 then .done (err 5) s
        else if slotPend s n || takingCold s n then .done { status := stBusy } s
        else .later (startDemotion s n (.command aseq))) s

/-- FLOW_INSERT (R182, R254). -/
def execFlowInsert (c : Cmd) (record : Bytes) (s : State) : Host.Outcome State Fault Refusal :=
  runCommand c 0x0601 (fun aseq s => .later (startInsert s (cut record 0 128) [] (.command aseq))) s

/-- FLOW_DELETE (R245, R254). -/
def execFlowDelete (c : Cmd) (key : Bytes) (s : State) : Host.Outcome State Fault Refusal :=
  runCommand c 0x0602 (fun aseq s =>
    match delTarget s key with
    | .missing => .done { status := stNotFound } s
    | .busy => .done { status := stBusy } s
    | .promoted => .wait
    | .hot n => .later (deleteSlot s n 2 (.command aseq))
    | .cold k => .later (deleteCold s k 2 (.command aseq))) s

/-- The forward keys of a tenant's records that a purge deletes: those in tier A without a pending entry, those in the
demotion table, and those live in tier B (R254). -/
def purgeKeys (s : State) (t : Nat) : List Bytes :=
  let own (r : Bytes) : Bool := recTenant r == t && !isCopy s r
  let hot := s.fs.recs.filterMap (fun e =>
    if own (recAt s e.1) && (slotLive s e.1 || (demOf s e.1).isSome) && !slotPend s e.1
    then some (recKey (recAt s e.1) 0) else none)
  let cold := s.fs.cold.filterMap (fun e =>
    let r := coldRec (coldAt s e.1)
    if own r && coldLive (coldAt s e.1) && !s.fs.dels.any (fun d => d.tierB && d.slot == e.1)
    then some (recKey r 0) else none)
  (hot ++ cold).eraseDups

/-- TENANT_PURGE (R254): the sweepers delete what the list names. -/
def execTenantPurge (c : Cmd) (ten : BitVec 16) (s : State) : Host.Outcome State Fault Refusal :=
  runCommand c 0x0603 (fun aseq s =>
    match purgeKeys s ten.toNat with
    | [] => .done {} s
    | ks => .later (s.withFs { s.fs with purges := s.fs.purges ++
        [{ tenant := ten.toNat, aseq := aseq, count := 0, left := ks }] })) s

/-- The offset of a policy table in its region (R225). -/
def policyOffset (id : Nat) : Nat :=
  match id with
  | 0x30 => 0
  | 0x31 => 0x40000
  | 0x32 => 0x240000
  | _ => 0x2240000

/-- POLICY_WRITE (R225, R253, R254): an entry beyond the region is ERROR. -/
def execPolicyWrite (c : Cmd) (table : BitVec 16) (idx : BitVec 32) (data : Bytes) (s : State) :
    Host.Outcome State Fault Refusal :=
  runCommand c 0x0604 (fun aseq s =>
    let id := table.toNat
    if s.tbl.waits.any (fun w => w.inst == 0x30) then .wait
    else if id < 0x30 ∨ 0x33 < id then .done (err 2) s
    else match tableInfo id with
      | none => .done (err 2) s
      | some t =>
        let i := idx.toNat
        if t.count ≤ i ∨ (policyRegion s).2 < policyOffset id + (i + 1) * t.size then .done (err 2) s
        else match updateEntry s aseq 0x30 0 id i (cut data 0 t.size) with
          | .done _ s => .done {} s
          | e => e) s

/-- FLOW_EXPORT (R240, R618). -/
def execFlowExport (c : Cmd) (key : Bytes) (s : State) : Host.Outcome State Fault Refusal :=
  runCommand c 0x1105 (fun _ s =>
    match hotOf s key with
    | some n =>
      if foldOpen s n then .wait
      else .done {} (if exports s (recAt s n) then exportSlot s n else s)
    | none =>
      match coldOf s key with
      | some k => .done {} (if exports s (coldRec (coldAt s k)) then exportCold s k else s)
      | none => .done { status := stNotFound } s) s

end Sys2Proof.Machine
end

