-- ==== Sys2Proof/Machine/Engines.lean ====
section
/-! DEFINITION. Tarril engines (08): maps, threads, locks, channels, how a task ends or faults, and the replacement of
engines and clusters (R298-R303, R313-R322, R332, R333, R341-R351). -/

namespace Sys2Proof.Machine

/-! Maps and physical elements (R298, R300, R347). -/

/-- A logical engine. -/
def engAt (s : State) (n : Nat) : Engine := getAt {} s.eng.en n

/-- Writes a logical engine. -/
def setEng (s : State) (n : Nat) (e : Engine) : State := s.withEng { s.eng with en := setAt {} s.eng.en n e }

/-- A physical cluster. -/
def clAt (s : State) (p : Nat) : Cluster := getAt {} s.eng.cl p

/-- Writes a physical cluster. -/
def setCl (s : State) (p : Nat) (c : Cluster) : State := s.withEng { s.eng with cl := setAt {} s.eng.cl p c }

/-- A physical engine, 8 × cluster + engine; those of cluster 16 are spares at reset. -/
def physAt (s : State) (p : Nat) : PhysState :=
  match getAt none s.eng.pe p with
  | some x => x
  | none => if p < 128 then .inUse else .spare

/-- Writes a physical engine's state. -/
def setPhys (s : State) (p : Nat) (x : PhysState) : State :=
  s.withEng { s.eng with pe := setAt none s.eng.pe p (some x) }

/-- The physical engine that serves a logical engine (ENGINE_MAP, R355). -/
def physOf (s : State) (n : Nat) : Option Nat :=
  let v := regVal s .engineMap n
  if bit v 8 then some (bits v 0 5 * 8 + bits v 5 3) else none

/-- The physical engine that ENGINE_MAP names last, mapped or not. -/
def lastPhys (s : State) (n : Nat) : Nat := bits (regVal s .engineMap n) 0 5 * 8 + bits (regVal s .engineMap n) 5 3

/-- Maps a logical engine onto a physical one. -/
def mapEngine (s : State) (n p : Nat) : State := setReg s .engineMap n (p / 8 + p % 8 * 32 + 256)

/-- Unmaps a logical engine. -/
def unmapEngine (s : State) (n : Nat) : State := setReg s .engineMap n (bits (regVal s .engineMap n) 0 8)

/-- The physical cluster that serves a logical cluster (CLUSTER_MAP, R355). -/
def clusterPhys (s : State) (c : Nat) : Option Nat :=
  let v := regVal s .clusterMap c
  if bit v 5 then some (bits v 0 5) else none

/-- The physical cluster whose units an engine uses: that of its logical cluster (R301). -/
def engPhys (s : State) (n : Nat) : Nat := bits (regVal s .clusterMap (n / 8)) 0 5

/-- The origin code of a physical engine and a thread (R302). -/
def engOrigin (s : State) (p t : Nat) : Nat := origin s (p / 8) (0x40 + p % 8) t 0

/-- A logical engine is drained, or holds no image (R356, R635). -/
def engDrained (e : Engine) : Bool := e.drained || e.image.isNone

/-- A logical engine may be given tasks (R335, R347, R356). -/
def engServes (s : State) (n : Nat) : Bool :=
  match physOf s n with
  | some p => isAwake s .engine p && isAwake s .cluster (engPhys s n) && !engDrained (engAt s n) &&
      (engAt s n).draining.isNone
  | none => false

/-- The logical engines of a logical cluster. -/
def clusterEngines (c : Nat) : List Nat := upFrom (8 * c) 8

/-! Threads. -/

/-- A register of a thread; r0 reads 0 (R307). -/
def regOf (x : Thread) (r : Nat) : Nat := if r = 0 then 0 else (getAt 0 x.regs r).toNat

/-- A thread with a register written; a write of r0 is discarded (R307). -/
def Thread.put (x : Thread) (r v : Nat) : Thread :=
  if r = 0 then x else { x with regs := setAt 0 x.regs r (BitVec.ofNat 64 v) }

/-- The blocked instruction of a thread completes: its register is written and the program counter moves on.  A halted
thread stays halted (log 61). -/
def resumeThread (s : State) (n t rd v : Nat) : State :=
  let x := threadAt s n t
  let y := { x.put rd v with pc := (x.pc + 1) % 2 ^ 64, mem := none }
  setThread s n t (if x.st = .halted then { y with resume := .ready } else { y with st := .ready })

/-- A thread of its cluster by number, logical engine × 8 + thread. -/
def wThread (s : State) (w : Nat) : Thread := threadAt s (w / 8) (w % 8)

/-! Locks (R318-R322). -/

/-- A lock of a physical cluster. -/
def lockAt (s : State) (p l : Nat) : Lock := getAt {} (clAt s p).locks l

/-- Writes a lock. -/
def setLock (s : State) (p l : Nat) (x : Lock) : State :=
  setCl s p { clAt s p with locks := setAt {} (clAt s p).locks l x }

/-- A lock is granted to a thread: BROKEN clears with the grant, whose status says what it was (R319). -/
def grantLock (s : State) (p l w : Nat) : State :=
  let x := lockAt s p l
  let s := setLock s p l { x with holder := some w, broken := false }
  let y := wThread s w
  let s := setThread s (w / 8) (w % 8) { y with locks := y.locks ++ [l] }
  resumeThread s (w / 8) (w % 8) y.rdWait (flag x.broken)

/-- A lock is released, with BROKEN set or not; its oldest waiter is granted (R320, R322). -/
def releaseLock (s : State) (p l : Nat) (broken : Bool) : State :=
  let x := lockAt s p l
  let x := { x with holder := none, broken := x.broken || broken }
  match x.waiters with
  | w :: ws => grantLock (setLock s p l { x with waiters := ws }) p l w
  | [] => setLock s p l x

/-! Channels (R313-R317). -/

/-- A channel of a physical cluster. -/
def chanAt (s : State) (p c : Nat) : Chan := getAt {} (clAt s p).chans c

/-- Writes a channel. -/
def setChan (s : State) (p c : Nat) (x : Chan) : State :=
  setCl s p { clAt s p with chans := setAt {} (clAt s p).chans c x }

/-- The word that a reader may take now: the first visible one of a channel that no other reader holds (R316). -/
def chanWord (x : Chan) (w : Nat) : Option ChanWord :=
  match x.words with
  | y :: _ => if y.visible && (x.holder.isNone || x.holder == some w) then some y else none
  | [] => none

/-- The channel after its first word is taken by a reader (R316). -/
def chanTaken (x : Chan) (w : Nat) (y : ChanWord) : Chan :=
  { x with
    words := x.words.tail
    holder := if bit y.side 1 then none else if bit y.side 0 then some w else x.holder }

/-- Serves the readers that wait for a channel, in the order in which they blocked (R316). -/
def serveReaders (s : State) (p c : Nat) : Nat → State
  | 0 => s
  | k + 1 =>
    let x := chanAt s p c
    match x.readers.find? (fun w => (chanWord x w).isSome) with
    | none => s
    | some w =>
      match chanWord x w with
      | none => s
      | some y =>
        let s := setChan s p c { chanTaken x w y with readers := x.readers.filter (· != w) }
        let z := wThread s w
        let s := setThread s (w / 8) (w % 8) { z with chs := y.side }
        serveReaders (resumeThread s (w / 8) (w % 8) z.rdWait y.word.toNat) p c k

/-- The words of a message with their side fields: FIRST 0, LAST 1, writer 11 to 2 (R313). -/
def messageWords (w : Nat) (first : Bool) : List (BitVec 64) → List ChanWord
  | [] => []
  | v :: vs => { word := v, side := flag first + 2 * flag vs.isEmpty + 4 * (w % 1024), visible := false } ::
      messageWords w false vs

/-- A message enters a channel, not yet visible (R314). -/
def pushMessage (s : State) (p c w : Nat) (ws : List (BitVec 64)) : State :=
  let x := chanAt s p c
  setChan s p c { x with words := x.words ++ messageWords w true ws }

/-- A channel has room for a message (R313). -/
def chanRoom (s : State) (p c n : Nat) : Bool := decide ((chanAt s p c).words.length + n ≤ 16)

/-! Trace records (R351). -/

/-- Writes a trace record of a scheduling decision; one that is not written is counted. -/
def trace (s : State) (p decision en thread : Nat) (id : Nat) (t : Task) : State :=
  let v := regVal s .traceCfg 0
  if bit v 0 && bit v (5 + p) then
    let rec_ := le 4 (timeNs s) ++ le 1 decision ++ le 1 en ++
      le 1 (thread % 8 + (byteAt t.desc 0).toNat % 16 * 8) ++ le 1 p ++ le 4 (id % 16384) ++ cut t.desc 16 4
    match telPost s (bits v 4 1) (bits v 1 3) rec_ with
    | (s, true) => s
    | (s, false) => count s 9 t.cluster 45 1
  else s

/-! Tasks. -/

/-- The kind of a task: 1 SETUP, 2 COOKIE_CHECK, 3 FOLD, 4 INTERNAL, 5 MGMT (R323). -/
def taskKind (t : Task) : Nat := (byteAt t.desc 0).toNat
/-- The group mode: 0 none, 1 ordered, 2 atomic (R323). -/
def taskMode (t : Task) : Nat := bits (leAt t.desc 1 1) 3 2
/-- The group identifier (R329). -/
def taskGroup (t : Task) : Nat := leAt t.desc 16 8
/-- The tenant. -/
def taskTenant (t : Task) : Nat := leAt t.desc 6 2
/-- The ingress slice. -/
def taskSlice (t : Task) : Nat := (byteAt t.desc 2).toNat
/-- The plane of a task's work: 0 data, 1 control (R18, R615). -/
def taskPlane (t : Task) : Nat := if taskKind t = 5 then 1 else 0

/-- The tasks of a physical cluster that stand before a task in its group, in arrival order (R332, R333). -/
def groupBefore (s : State) (p id : Nat) (t : Task) : List Nat :=
  ((clAt s p).tasks.takeWhile (· != id)).filter (fun n => match taskAt s n with
    | some x => taskMode x != 0 && taskGroup x == taskGroup t
    | none => false)

/-- A task leaves the matching store. -/
def removeTask (s : State) (p id : Nat) : State :=
  setTask (setCl s p { clAt s p with tasks := (clAt s p).tasks.filter (· != id) }) id none

/-- The frame of FRAME_SEND enters the traffic manager, owner-tagged to the engine (R311, R363). -/
def sendEngineFrame (s : State) (tag dst queue : Nat) (data : Bytes) : State :=
  let f : Frame := { bytes := data, ingress := .engine tag, slice := 16, arrival := timeNs s, tag := tag
                     epoch := s.tbl.epoch, parse := parseHead (headOf s s.tbl.epoch data false)
                     verdict := paste (List.replicate 32 0) 2 (le 2 (dst % 4096 + queue % 16 * 4096)) }
  match bufferFrame s f with
  | (s, some fid) =>
    enqueueFrame s fid tag (match destOf s f dst queue 0 with
      | some d => [{ queue := d.queue, encap := d.encap }]
      | none => [])
  | (s, none) => s

/-- A release goes out (R333). -/
def deliver (s : State) : Release → State
  | .frame dst queue data tag => sendEngineFrame s tag dst queue data
  | .completion aseq status detail => finish s aseq { status := status, result := detail }
  | .event grp num org body => postEvent s grp num org body

/-- Delivers the held releases of the first tasks of an ordered group; ended tasks leave the store (R333). -/
def drainGroup (s : State) (p grp : Nat) : Nat → State
  | 0 => s
  | k + 1 =>
    match (clAt s p).tasks.find? (fun n => match taskAt s n with
        | some x => taskMode x == 1 && taskGroup x == grp
        | none => false) with
    | none => s
    | some id =>
      match taskAt s id with
      | none => s
      | some x =>
        let s := setTask s id (some { x with held := [] })
        let s := x.held.foldl deliver s
        if x.st = .ended then drainGroup (removeTask s p id) p grp k else s

/-- A release of a task: at once, or held while earlier tasks of its ordered group have not ended (R322, R333). -/
def release (s : State) (p id : Nat) (r : Release) : State :=
  match taskAt s id with
  | none => s
  | some t =>
    if taskMode t = 1 && !(groupBefore s p id t).isEmpty then setTask s id (some { t with held := t.held ++ [r] })
    else deliver s r

/-- A task has ended: it leaves the store, or as a task of an ordered group waits there for those before it. -/
def settleTask (s : State) (p id : Nat) : State :=
  match taskAt s id with
  | none => s
  | some t =>
    if taskMode t = 1 then
      drainGroup (setTask s id (some { t with st := .ended })) p (taskGroup t) ((clAt s p).tasks.length + 1)
    else removeTask s p id

/-! The end of a setup (R218, R219, R550). -/

/-- The INSERT of a record that its partner has not acknowledged yet (R550). -/
def awaitedInsert (s : State) (r : Bytes) : Option (Nat × Nat) :=
  (s.stk.awaits.find? (fun w => byteAt w.payload 0 == 1 && cut w.payload 8 40 == recKey r 0)).map
    (fun w => (w.partner, w.seq))

/-- The forward of a DENIED frame that the program asks for in a permissive class: stateless (R218, R271). -/
def forwardDenied (s : State) (fid : Nat) (f : Frame) : State :=
  let v := paste (f.verdict.set 0 1) 1 (le 1 0 ++ le 2 (0xFFE + leAt f.verdict 2 2 / 4096 * 4096))
  let f := { f with epoch := s.tbl.epoch, mirror := none, hit := false }
  unblock (passVerdict s fid { f with verdict := fillVerdict f v false false }) f.key

/-- What becomes of the frame that is parked for a setup (R218, R219, R236): a validated cookie ACK is dropped. -/
def endSetupFrame (s : State) (t : Task) (code : Nat) (ask : Bool) (fid : Nat) (f : Frame) : State :=
  if code = 1 ∨ code = 2 then
    match placeOfKey s f.key with
    | none => dropParked s fid
    | some at_ =>
      let r := placeRec s at_
      if code = 1 && taskKind t == 2 && bit (recFlags r) 3 then dropParked s fid
      else releaseOrHold s [fid] at_ (awaitedInsert s r)
  else if code = 3 && ask && permissive f then forwardDenied s fid f
  else dropParked s fid

/-- A setup ends with an outcome (R218): counted per tenant and slice; token, record count and frame as the outcome
says. -/
def endSetup (s : State) (t : Task) (code : Nat) (ask : Bool) : State :=
  let ten := taskTenant t
  let s := countOutcome s (taskSlice t) ten code
  let s := if code = 2 then returnToken s 2 ten else s
  let s := if code = 1 then s else tenDown s ten
  match t.frame with
  | none => s
  | some fid =>
    match frameAt s fid with
    | some f => if f.stage == .setup && !heldBack s fid then endSetupFrame s t code ask fid f else s
    | none => s

/-- The copy of an INTERNAL task gives up its references; the engine releases them (R363). -/
def dropCopy (s : State) (t : Task) (phys : Nat) : State :=
  match t.copy with
  | some c => releaseCopy s (0x20 + phys) c
  | none => s

/-! Ends of service. -/

/-- A thread stops serving: its staged words are discarded, its locks released with BROKEN set, and it waits for
nothing any more (R317, R322); a channel that it held goes to the readers that wait (log 61).  `leak` counts each lock. -/
def leaveThread (s : State) (n t : Nat) (leak : Bool) : State :=
  let w := 8 * n + t
  let p := engPhys s n
  let x := threadAt s n t
  let cl := clAt s p
  let s := setCl s p { cl with
    chans := cl.chans.map (fun c => (c.1, { c.2 with
      readers := c.2.readers.filter (· != w), writers := c.2.writers.filter (· != w)
      holder := if c.2.holder = some w then none else c.2.holder }))
    locks := cl.locks.map (fun l => (l.1, { l.2 with waiters := l.2.waiters.filter (· != w) })) }
  let s := setThread s n t { x with
    st := if x.st = .halted then .halted else .idle, resume := .idle, task := none, staged := [], locks := [],
    mem := none, timer := none, stepping := false }
  let s := if leak then count s 9 (n / 8) 44 x.locks.length else s
  let s := (cl.chans.filter (fun c => c.2.holder == some w)).foldl (fun s c => serveReaders s p c.1 17) s
  x.locks.foldl (fun s l => releaseLock s p l true) s

/-- The name of the thread that serves a task: logical engine and thread. -/
def serverOf (s : State) (id : Nat) : Option (Nat × Nat) :=
  match s.eng.en.find? (fun e => e.2.threads.any (fun t => t.2.task == some id)) with
  | some e =>
    match e.2.threads.find? (fun t => t.2.task == some id) with
    | some t => some (e.1, t.1)
    | none => none
  | none => none

/-- A command's task completes it with an error code of R345: ERROR with the fault code above 0x100 (R450). -/
def faultDetail (code : Nat) : Nat := 0x100 + code

/-- What a task that has faulted leaves (R345): a setup ends ABORTED, a command completes ERROR, a fold is queued
again, an INTERNAL frame is dropped; completion and event are releases of its group (R333).  `err` is the detail of a
command. -/
def endFaulted (s : State) (p id phys thread pc code : Nat) (err : Nat) : State :=
  match taskAt s id with
  | none => s
  | some t =>
    let s := setTask s id (some { t with held := [] })
    let s := match taskKind t with
      | 1 | 2 =>
        let s := endSetup s t 9 false
        postEvent s 0x06 5 (engOrigin s phys 0)
          (le 2 (taskTenant t) ++ le 8 (hash1 s (canonicalKey (cut t.desc 64 40))) ++ le 4 pc)
      | k =>
        let s := match k with
          | 3 => requeueFold s (leAt t.desc 24 4 % 2 ^ 25) (leAt t.desc 28 2)
          | 4 => dropCopy s t phys
          | _ => match t.aseq with
            | some a => release s p id (.completion a stError err)
            | none => s
        release s p id (.event 0x08 6 (engOrigin s phys thread) (le 1 k ++ le 1 code ++ le 4 pc ++ cut t.desc 16 4))
    settleTask s p id

/-- A program fault ends a thread's task at once (R345). -/
def faultThread (s : State) (n t code : Nat) : State :=
  let x := threadAt s n t
  match x.task with
  | none => s
  | some id =>
    let p := engPhys s n
    let s := count s 8 n 7 1
    let s := match taskAt s id with
      | some y => trace s p 8 n t id y
      | none => s
    endFaulted (leaveThread s n t false) p id (lastPhys s n) t x.pc code (faultDetail code)

/-- A task withdrawn from its thread returns to P0, or ends when its retries are exhausted (R343). -/
def withdrawTask (s : State) (n t id : Nat) (pc : Nat) : State :=
  let p := engPhys s n
  match taskAt s id with
  | none => s
  | some x =>
    let tries := (byteAt x.desc 3).toNat + 1
    if regField s .schedCfg 0 0 4 < tries then
      endFaulted (trace (count s 9 (n / 8) 42 1) p 6 n t id x) p id (lastPhys s n) t pc 0 5
    else
      let desc := paste x.desc 1 (le 1 ((byteAt x.desc 1).toNat ||| 1))
      let x := { x with desc := paste desc 3 (le 1 tries), st := .waiting, retry := true, held := [], saved := none }
      trace (setTask (count s 9 (n / 8) 41 1) id (some x)) p 7 n t id x

/-! Replacement of engines (R343, R346-R348). -/

/-- The lowest free spare: of cluster 16 first. -/
def freeSpare (s : State) : Option Nat := (upFrom 128 8 ++ List.range 128).find? (fun p => physAt s p == .spare)

/-- Posts engine-substituted: logical engine, replaced physical engine, 0xFF for no spare (R357). -/
def postSubstituted (s : State) (spare : Option Nat) (n old : Nat) : State :=
  let at_ := match spare with
    | some p => p
    | none => old
  postEvent s 0x08 3 (engOrigin s at_ 0) (le 2 n ++ le 1 (if spare.isSome then old else 0xFF))

/-- An engine's place is to be taken by a spare, whose load begins; without one its logical engine stays unmapped
(R347). -/
def substitute (s : State) (n : Nat) : State :=
  let old := lastPhys s n
  let s := unmapEngine s n
  match freeSpare s with
  | some p =>
    let s := setEng (setPhys s p .loading) n { engAt s n with spare := some p }
    wakeRequest s .engine [p] true
  | none =>
    let s := postSubstituted s none n old
    postEvent s 0x0F 7 (deviceOrigin s) (le 1 1 ++ le 1 n)

/-- The threads of a logical engine that serve a task: thread, task, program counter. -/
def servingThreads (s : State) (n : Nat) : List (Nat × Nat × Nat) :=
  (engAt s n).threads.filterMap (fun t => t.2.task.map (fun id => (t.1, id, t.2.pc)))

/-- The engine stops, its tasks are withdrawn, and it is taken out of service and replaced (R343, R346): `to` is what
its physical engine does next. -/
def stopEngine (s : State) (n : Nat) (dest : PhysState) : State :=
  let ts := servingThreads s n
  let s := count s 9 (n / 8) 40 1
  let s := ts.foldl (fun s t => leaveThread s n t.1 false) s
  let s := ts.foldl (fun s t => withdrawTask s n t.1 t.2.1 t.2.2) s
  let s := match physOf s n with
    | some p => setPhys s p dest
    | none => s
  substitute s n

/-- The trace record of a decision on the task that a thread serves. -/
def traceThread (s : State) (n t id decision : Nat) : State :=
  match taskAt s id with
  | some y => trace s (engPhys s n) decision n t id y
  | none => s

/-- The state of a thread as it is coded: IDLE 0, READY 1, WAIT_CHANNEL 2, WAIT_LOCK 3, WAIT_MEMORY 4, WAIT_TIMER 5,
HALTED 6. -/
def threadCode : ThreadSt → Nat
  | .idle => 0
  | .ready => 1
  | .waitChannel _ _ => 2
  | .waitLock _ => 3
  | .waitMemory => 4
  | .waitTimer => 5
  | .halted => 6

/-- The lock or channel that a thread awaits, 0xFF for none. -/
def awaited : ThreadSt → Nat
  | .waitChannel c _ => c % 64
  | .waitLock l => l
  | _ => 0xFF

/-- The locks that a thread holds, four bytes, 0xFF for none. -/
def locksHeld (x : Thread) : Bytes := ((x.locks ++ [255, 255, 255, 255]).take 4).flatMap (le 1)

/-- Every thread of an engine waits on a channel or a lock and no timer is armed (R341). -/
def engineStuck (s : State) (n : Nat) : Bool :=
  (List.range 8).all (fun t =>
    let x := threadAt s n t
    x.timer.isNone && (match x.st with
      | .waitChannel _ _ | .waitLock _ => true
      | _ => false))

/-- Some thread of a logical cluster is halted (R342). -/
def clusterHalted (s : State) (c : Nat) : Bool :=
  (clusterEngines c).any (fun n => (List.range 8).any (fun t => (threadAt s n t).st == .halted))

/-- ENGINE_STALL (R341-R343). -/
def execEngineStall (en : Fin 128) (s : State) : Host.Outcome State Fault Refusal :=
  let n := en.val
  if !engineStuck s n || clusterHalted s (n / 8) || (physOf s n).isNone then .next s
  else
    let body := (List.range 8).flatMap (fun t =>
      let x := threadAt s n t
      le 1 (threadCode x.st) ++ le 4 x.pc ++ le 1 (awaited x.st) ++ locksHeld x)
    let s := postEvent s 0x08 1 (engOrigin s (lastPhys s n) 0) body
    .next (stopEngine ((servingThreads s n).foldl (fun s x => traceThread s n x.1 x.2.1 9) s) n .selfTest)

/-- ENGINE_FAULT (R346): cause 0 instruction parity, 1 data uncorrectable. -/
def engineFault (s : State) (n cause addr : Nat) : State :=
  match physOf s n with
  | none => s
  | some p => stopEngine (postEvent s 0x08 2 (engOrigin s p 0) (le 1 cause ++ le 8 addr)) n .retired

/-- ENGINE_FAULT (R346). -/
def execEngineFault (en : Fin 128) (cause : Fin 2) (addr : BitVec 32) (s : State) :
    Host.Outcome State Fault Refusal := .next (engineFault s en.val cause.val addr.toNat)

/-- The image of a logical engine is loaded into its memories (R347, R590, R595). -/
def loadImage (s : State) (n : Nat) : State :=
  let e := engAt s n
  match e.image with
  | none => s
  | some i =>
    match getAt none s.img.store i with
    | none => s
    | some g =>
      let words := (List.range (g.imem.length / 8)).foldl
        (fun m k => setAt 0 m k (BitVec.ofNat 64 (leAt g.imem (8 * k) 8))) ([] : Store (BitVec 64))
      setEng s n { e with imem := words, dmem := Memory.writeN [] 0 g.dmem }

/-- SPARE_LOADED (R347): the spare is mapped and takes tasks. -/
def execSpareLoaded (en : Fin 128) (s : State) : Host.Outcome State Fault Refusal :=
  let n := en.val
  match (engAt s n).spare with
  | none => .next s
  | some p =>
    let old := lastPhys s n
    let s := setEng (setPhys s p .inUse) n { engAt s n with spare := none }
    .next (postSubstituted (loadImage (mapEngine s n p) n) (some p) n old)

/-- ENGINE_SELF_TEST_DONE (R348): the engine becomes a spare or is retired. -/
def execEngineSelfTestDone (phys : Fin 136) (pass : Bool) (s : State) : Host.Outcome State Fault Refusal :=
  let p := phys.val
  if physAt s p ≠ .selfTest then .next s
  else
    let s := setPhys s p (if pass then .spare else .retired)
    .next (postEvent s 0x08 4 (engOrigin s p 0) (le 1 (flag (!pass))))

/-! Cluster faults (R349). -/

/-- A task lost with its cluster (R349). -/
def loseTask (s : State) (p id : Nat) : State :=
  match taskAt s id with
  | none => s
  | some t =>
    let s := match taskKind t with
      | 1 | 2 => tenDown (countOutcome s (taskSlice t) (taskTenant t) 9) (taskTenant t)
      | 3 => requeueFold s (leAt t.desc 24 4 % 2 ^ 25) (leAt t.desc 28 2)
      | 4 => dropCopy s t (8 * p)
      | _ => match t.aseq with
        | some a => finish s a (err 5)
        | none => s
    removeTask s p id

/-- A logical engine starts over on a physical one, its threads idle. -/
def restartEngine (s : State) (n phys : Nat) : State :=
  let s := setEng (setPhys s phys .inUse) n { engAt s n with threads := [], spare := none }
  loadImage (mapEngine s n phys) n

/-- All eight spares are free. -/
def sparesFree (s : State) : Bool := (upFrom 128 8).all (fun p => physAt s p == .spare)

/-- The physical engines that a logical cluster has, serving it or being loaded for it. -/
def clusterPhysEngines (s : State) (c : Nat) : List Nat :=
  (clusterEngines c).filterMap (physOf s) ++ (clusterEngines c).filterMap (fun n => (engAt s n).spare)

/-- A cluster fault (R349): the tasks are lost; cluster 16 takes the logical cluster whole if all its engines were free,
or it has none.  The engines of the failed cluster are retired, those of another are spares again. -/
def clusterFault (s : State) (c unit : Nat) : State :=
  match clusterPhys s c with
  | none => s
  | some p =>
    let ok := sparesFree s && p != 16
    let s := (clAt s p).tasks.foldl (fun s id => loseTask s p id) s
    let s := setCl s p { failed := true }
    let s := (clusterPhysEngines s c).foldl (fun s q => setPhys s q (if q / 8 = p then .retired else .spare)) s
    let s := (clusterEngines c).foldl (fun s n => setEng (unmapEngine s n) n { engAt s n with threads := [], spare := none }) s
    let s := if ok then
        let s := setReg s .clusterMap c (16 + 32)
        (List.range 8).foldl (fun s e => restartEngine s (8 * c + e) (128 + e)) s
      else
        postEvent (setReg s .clusterMap c p) 0x0F 7 (deviceOrigin s) (le 1 2 ++ le 1 c)
    postEvent s 0x08 5 (origin s p (0x48 + unit) 0 0) (le 1 c ++ le 1 (flag ok))

/-- CLUSTER_FAULT (R349): unit 0 scheduler or matching store, 1 lock unit, 2 channel unit. -/
def execClusterFault (cl : Fin 16) (unit : Fin 3) (s : State) : Host.Outcome State Fault Refusal :=
  .next (clusterFault s cl.val unit.val)

end Sys2Proof.Machine
end

