-- ==== Sys2Proof/Machine/Workspace.lean ====
section
/-! DEFINITION. The workspace of a frame (R119) and the action sequencer's words (R122-R131). -/

namespace Sys2Proof.Machine

/-! The workspace (R119). -/

/-- A byte of the workspace.  The parse result has no stated layout in compact form, so its bytes are open values, drawn
when the frame was admitted (log 6). -/
def wsByte (f : Frame) (o : Nat) : Byte :=
  if o < 0x100 then byteAt f.bytes o
  else if o < 0x180 then byteAt f.record (o - 0x100)
  else if o < 0x1A0 then byteAt f.verdict (o - 0x180)
  else if o < 0x1E0 then BitVec.truncate 8 (Config.freeValue (f.pdraw + (o - 0x1A0)))
  else if o < 0x220 then byteAt f.scratch (o - 0x1E0)
  else if o < 0x230 then byteAt (f.lpm.getD []) (o - 0x220)
  else if o < 0x240 then byteAt (f.acl.getD []) (o - 0x230)
  else if o < 0x250 then byteAt (f.sec.getD []) (o - 0x240)
  else if o < 0x278 then byteAt f.key (o - 0x250)
  else if o < 0x280 then byteAt (le 8 (f.flow.getD 0)) (o - 0x278)
  else if o < 0x2C0 then byteAt f.rewrite (o - 0x280)
  else 0

/-- Bytes of the workspace. -/
def wsBytes (f : Frame) (o n : Nat) : Bytes := (upFrom o n).map (wsByte f)

/-- An operand covers the reserved area or extends past the workspace. -/
def wsReserved (o n : Nat) : Bool := decide (0x2C0 < o + n)

/-- A byte that microcode may write. -/
def wsWritable (o : Nat) : Bool :=
  (0x180 ≤ o && o < 0x1A0) || (0x1E0 ≤ o && o < 0x220) || (0x280 ≤ o && o < 0x2C0)

/-- Writes a byte of the workspace where microcode may. -/
def wsPut (f : Frame) (o : Nat) (b : Byte) : Frame :=
  if 0x180 ≤ o ∧ o < 0x1A0 then { f with verdict := f.verdict.set (o - 0x180) b }
  else if 0x1E0 ≤ o ∧ o < 0x220 then { f with scratch := f.scratch.set (o - 0x1E0) b }
  else if 0x280 ≤ o ∧ o < 0x2C0 then { f with rewrite := f.rewrite.set (o - 0x280) b }
  else f

/-- Writes bytes from an offset on, those in writable areas. -/
def wsWrite (f : Frame) (o : Nat) : Bytes → Frame
  | [] => f
  | b :: bs => wsWrite (wsPut f o b) (o + 1) bs

/-- A byte of a flow key lies in its address, port and protocol fields. -/
def keyNetwork (o : Nat) : Bool := decide (o < 37)

/-- The field that holds a byte is held most significant byte first (R128, R393). -/
def networkOrder (o : Nat) : Bool :=
  o < 0x100 || (0x100 ≤ o && o < 0x128 && keyNetwork (o - 0x100)) ||
    (0x128 ≤ o && o < 0x150 && keyNetwork (o - 0x128)) || (0x1A0 ≤ o && o < 0x1E0) ||
    (0x250 ≤ o && o < 0x278 && keyNetwork (o - 0x250)) || (0x284 ≤ o && o < 0x2B6)

/-- The value of an operand, in the byte order of the field that holds its first byte (R128). -/
def wsVal (f : Frame) (o n : Nat) : Nat :=
  if networkOrder o then beVal (wsBytes f o n) else leVal (wsBytes f o n)

/-- The bytes of a value that is written at an offset. -/
def wsEnc (o n v : Nat) : Bytes := if networkOrder o then be n v else le n v

/-! Operation slots (R128). -/

/-- An operation slot. -/
structure OpSlot where
  op : Nat
  width : Nat
  dest : Nat
  a : Nat
  b : Nat
  imm : Option Nat
  deriving DecidableEq, Repr

/-- The fields of a slot. -/
def opSlot (v : Nat) : OpSlot :=
  let op := bits v 0 4
  { op := op
    width := if op = 0xA then 2 else if bits v 4 2 = 0 then 1 else if bits v 4 2 = 1 then 2 else 4
    dest := bits v 6 10, a := bits v 16 10, b := bits v 26 10
    imm := if op = 2 then some (bits v 26 22) else if 3 ≤ op ∧ op ≤ 9 ∧ bit v 47 then some (bits v 26 21) else none }

/-- The offsets that a slot reads. -/
def slotReads (x : OpSlot) : List Nat :=
  if x.op = 1 then [x.a]
  else if 3 ≤ x.op ∧ x.op ≤ 9 then (if x.imm.isSome then [x.a] else [x.a, x.b])
  else if x.op = 0xA then [x.a, x.b, x.dest]
  else []

/-- The value that a slot writes: `none` for NOP and the reserved operations. -/
def slotValue (f : Frame) (x : OpSlot) : Option Nat :=
  let n := x.width
  let a := wsVal f x.a n
  let b := match x.imm with
    | some v => v
    | none => wsVal f x.b n
  match x.op with
  | 1 => some a
  | 2 => some b
  | 3 => some (a + b)
  | 4 => some (a + 2 ^ (8 * n) - b % 2 ^ (8 * n))
  | 5 => some (a &&& b)
  | 6 => some (a ||| b)
  | 7 => some (a ^^^ b)
  | 8 => some (a * 2 ^ (b % 32))
  | 9 => some (a / 2 ^ (b % 32))
  | 0xA => some (csumUpd (wsVal f x.dest 2) a b)
  | _ => none

/-- Adds workspace violations, one for each operand that R119 names, and reserved opcodes to the slice's counters. -/
def slotCounts (s : State) (n : Nat) (x : OpSlot) : State :=
  let reads := ((slotReads x).filter (fun o => wsReserved o x.width)).length
  let writes := flag ((1 ≤ x.op && x.op ≤ 0xA) && (upFrom x.dest x.width).any (fun o => !wsWritable o))
  let s := if reads + writes = 0 then s else count s 4 n 25 (reads + writes)
  if 0xB ≤ x.op then count s 4 n 26 1 else s

/-- The four slots of a word: all read before any writes, and of two that write a byte the higher-numbered stands
(R125). -/
def runSlots (f : Frame) (xs : List OpSlot) : Frame :=
  (xs.map (fun x => (x, slotValue f x))).foldl (fun g p => match p.2 with
    | some v => wsWrite g p.1.dest (wsEnc p.1.dest p.1.width v)
    | none => g) f

/-! Lookups, policing, mirroring (R130, R131). -/

/-- The LOOKUP slot: at most two lookups a frame; a third is counted. -/
def runLookup (s : State) (fid : Nat) (v : Nat) : State :=
  match frameAt s fid with
  | none => s
  | some f =>
    let t := bits v 0 4
    if t = 0 ∨ 5 < t then s
    else
      let o := bits v 4 10
      let n := 4 * bits v 14 5
      let s := if n ≠ 0 && wsReserved o n then count s 4 f.slice 25 1 else s
      if 2 ≤ f.lookups then count s 4 f.slice 27 1
      else setFrame s fid (some { f with lookups := f.lookups + 1, secReqs := f.secReqs ++ [(t, wsBytes f o n)] })

/-- The ACCOUNT slot: a frame is policed at most once. -/
def runAccount (s : State) (fid : Nat) (v : Nat) : State :=
  match frameAt s fid with
  | none => s
  | some f =>
    let o := bits v 1 10
    let police := bit v 0 && !f.policed
    let s := if police && wsReserved o 2 then count s 4 f.slice 25 1 else s
    let f := if police then { f with policed := true, policer := wsVal f o 2, aware := bit v 11 } else f
    let f := if bit v 12 then { f with mirror := some (bits v 13 6) } else f
    setFrame s fid (some f)

/-! Conditions and words (R124-R127, R129). -/

/-- A flag of a result at the workspace's layout of R282 or R265. -/
def resultFlag (r : Option Bytes) (i : Nat) : Bool :=
  match r with
  | some b => bit (byteAt b 0).toNat i
  | none => false

/-- A condition source (R129). -/
def condition (f : Frame) (c : Nat) : Bool :=
  match c with
  | 0 => false
  | 1 => true
  | 2 => f.hit
  | 3 => f.hit && bit (f.flow.getD 0) 25
  | 4 => f.miss
  | 5 => f.hit && bit (f.flow.getD 0) 27
  | 6 => f.hit && bit (recFlags f.record) 0
  | 7 => resultFlag f.lpm 0
  | 8 => resultFlag f.acl 1
  | 9 => resultFlag f.acl 2
  | 10 => resultFlag f.sec 0
  | 11 => (keyLayer f).any (fun l => l.ttl ≤ 1)
  | 12 => f.parse.tunnel != 0
  | 13 => (keyLayer f).any (fun l => l.frag == 2)
  | 14 => bit (tcpFlagsOf f) 1
  | 15 => bit (tcpFlagsOf f) 4
  | 16 => bit (tcpFlagsOf f) 0
  | 17 => bit (tcpFlagsOf f) 2
  | 18 => bit (tcpFlagsOf f) 3
  | 19 => bit (tcpFlagsOf f) 5
  | 20 => (keyLayer f).any (fun l => !l.v6)
  | 21 => f.colour == some 2
  | 22 => f.colour == some 1
  | 23 => permissive f
  | 24 => f.hit && bit (recState f.record) 0
  | 25 => f.hit && bit (recState f.record) 1
  | 26 => f.hit && bit (recState f.record) 2
  | 27 => f.hit && bit (recState f.record) 3
  | 28 => f.icmpErr
  | _ => if 32 ≤ c ∧ c < 48 then bit (leAt f.scratch 0 2) (c - 32) else false

/-- The results that a word's WAIT names are in the workspace (R124); a secondary lookup counts once its latest request
has its result. -/
def waitMet (f : Frame) (w : Nat) : Bool :=
  let wait := bits w 40 8
  (!bit wait 0 || flowKnown f) && (!bit wait 1 || f.lpm.isSome) && (!bit wait 2 || f.acl.isSome) &&
    (!bit wait 3 || secKnown f) && (!bit wait 4 || f.colour.isSome)

/-- The next address (R126). -/
def nextWord (f : Frame) (w : Nat) : Nat :=
  let n := min (bits w 12 3) 4
  ((List.range n).filter (fun k => condition f (bits w (16 + 6 * k) 6))).foldl (fun a k => a ||| 2 ^ k) (bits w 0 12)

/-- The parity bits of a word that fail (R124). -/
def wordParity (w : BitVec 320) : Nat :=
  let v := w.toNat
  (List.range 8).foldl (fun p i =>
    let ones := (List.range 39).countP (fun j => bit v (8 * j + i))
    if (ones + flag (bit v (312 + i))) % 2 = 0 then p else p + 2 ^ i) 0

/-- A word executes (R125): slots, LOOKUP and ACCOUNT, conditions, next address.  An END word passes the verdict to the
assembler; the 40th word that is none is a deadline fault (R127). -/
def runWord (s : State) (fid : Nat) (word : BitVec 320) : State :=
  match frameAt s fid with
  | none => s
  | some f =>
    let w := word.toNat
    let xs := [opSlot (bits w 48 48), opSlot (bits w 96 48), opSlot (bits w 144 48), opSlot (bits w 192 48)]
    let s := xs.foldl (fun s x => slotCounts s f.slice x) s
    let s := setFrame s fid (some (runSlots f xs))
    let s := runAccount (runLookup s fid (bits w 240 32)) fid (bits w 272 32)
    match frameAt s fid with
    | none => s
    | some f =>
      let f := { f with words := f.words + 1, pc := nextWord f w }
      let s := setFrame s fid (some f)
      if bit w 15 then assemble s fid
      else if 40 ≤ f.words then deadlineFault s fid 4
      else s

end Sys2Proof.Machine
end

