-- ==== Sys2Proof/Machine/MachineCheck.lean ====
section
/-! DEFINITION. Machine checks of slices and their substitution by S16 (R150, R151, R566-R568, R571). -/

namespace Sys2Proof.Machine

/-- The port group that a slice serves now. -/
def servedGroup (s : State) (n : Nat) : Option Nat := (List.range 16).find? (fun g => servingSlice s g == some n)

/-- Joins a port group to a slice, or to none (R566); a group with a slice is dark no more. -/
def joinGroup (s : State) (g : Nat) (dest : Option Nat) : State :=
  s.withFt { s.ft with
    joined := setAt (some g) s.ft.joined g dest, dark := if dest.isSome then s.ft.dark.filter (· != g) else s.ft.dark }

/-- A group without a slice goes dark: its subports stay down (R151, R634). -/
def darken (s : State) (g : Nat) : State :=
  let s := joinGroup s g none
  (upFrom (24 * g) 24).foldl linkDown (s.withFt { s.ft with dark := s.ft.dark ++ [g] })

/-- S16 is free to take a group: it serves none, is no target of a switch, and works. -/
def spareFree (s : State) : Bool :=
  (servedGroup s 16).isNone && s.ft.switch.isNone && !(sliceAt s 16).stopped && !(sliceAt s 16).retired

/-- The frames that a port group's ports have dropped for substitution (R567). -/
def substDrops (s : State) (g : Nat) : Nat := ((upFrom (6 * g) 6).map (fun p => counter s 3 p 2)).foldl (· + ·) 0

/-- S16 is ready for the group that waits for it: slice-substituted is posted (R567, R588). -/
def spareReady (s : State) : State :=
  match s.ft.waitS16 with
  | none => s
  | some g =>
    let a := s.ft.waitAseq
    let s := s.withFt { s.ft with waitS16 := none, waitAseq := none }
    let s := postEvent s 0x0F 1 (origin s g 0x14 0 0) (le 1 g ++ le 1 16 ++ le 8 (substDrops s g - s.ft.subDrops))
    let s := releaseHeld s g
    match a with
    | some a => finish s a {}
    | none => s

/-- A frame without a verdict that its slice holds is lost: its admission is returned and it leaves its fetch. -/
def loseFrame (s : State) (fid : Nat) : State :=
  match frameAt s fid with
  | none => s
  | some f => unblock (dropFrame (dropHead (leaveFetch (returnAdmission s f) fid) fid f.slice) fid) f.key

/-- A frame that a machine check finds without a verdict is discarded and counted (R150). -/
def discardFrame (n : Nat) (s : State) (fid : Nat) : State :=
  match frameAt s fid with
  | none => s
  | some _ => loseFrame (count s 4 n 29 1) fid

/-- A task of the setup queue that a machine check discards ends ABORTED (R150). -/
def discardTask (n : Nat) (s : State) (id : Nat) : State :=
  match taskAt s id with
  | none => s
  | some t => setTask (endSetup (count s 4 n 29 1) t 9 false) id none

/-- A slice loses the frames without verdict and the tasks that it holds (R150). -/
def discardSlice (s : State) (n : Nat) : State :=
  let fs := (s.slices.frames.filter (fun p => match p.2 with
    | some f => f.slice == n && (f.stage == .head || f.stage == .slice || f.stage == .tierB) && f.copyOf.isNone
    | none => false)).map (·.1)
  let q := (sliceAt s n).setupQ
  let s := setSlice s n { sliceAt s n with heads := [[], [], [], [], [], [], []], ctxWait := [], setupQ := [], stopped := true }
  settleFetches (checkAdmission (q.foldl (discardTask n) (fs.foldl (discardFrame n) s)) n)

/-- S16 is to serve a group: it is joined at once, and woken if it sleeps (R567). -/
def joinSpare (s : State) (g : Nat) (aseq : Option Nat) : State :=
  let s := joinGroup s g (some 16)
  let s := s.withFt { s.ft with waitS16 := some g, waitAseq := aseq, subDrops := substDrops s g }
  if isAwake s .slice 16 then spareReady s else wakeRequest s .slice [16] true

/-- A group loses its slice: S16 takes it over, or it stays unjoined, or without a spare its subports go down (R150,
R151, R567). -/
def substituteSlice (s : State) (n g : Nat) : State :=
  if n ≠ 16 ∧ spareFree s then
    if regField s .ftCfg 0 0 1 = 1 then joinSpare s g none else joinGroup s g none
  else driveAlive (darken (postNoSpare s 0 n) g) false

/-- Posts slice-returned with the outcome of its self-test, 0 passed (R569, R588). -/
def postReturned (s : State) (n : Nat) : State := postEvent s 0x0F 2 (origin s n 0x14 0 0) (le 1 0)

/-- A machine check of a slice (R150, R571): `bank` 0 live, 1 standby, word address, failing parity bits. -/
def machineCheck (s : State) (n bank addr parity : Nat) : State :=
  let g := servedGroup s n
  let s := postEvent (discardSlice s n) 0x02 3 (origin s n 0x14 0 0) (le 1 bank ++ le 2 addr ++ le 1 parity)
  let s := if n = 16 then match s.ft.waitAseq with
      | some a => finish (s.withFt { s.ft with waitS16 := none, waitAseq := none }) a (err 5)
      | none => s.withFt { s.ft with waitS16 := none }
    else s
  match s.ft.switch with
  | some m =>
    if m.src = n ∧ m.begun then
      finish ((if n = 16 then postReturned s m.dst else s).withFt { s.ft with switch := none }) m.aseq {}
    else
      let s := if m.src = n ∨ m.dst = n then finish (s.withFt { s.ft with switch := none }) m.aseq (err 5) else s
      match g with
      | some g => substituteSlice s n g
      | none => s
  | none => match g with
    | some g => substituteSlice s n g
    | none => s

end Sys2Proof.Machine
end

