-- ==== Sys2Proof/Machine/Search.lean ====
section
/-! DEFINITION. LPM and ACL searches (R279-R287) and secondary lookups (R130, R265-R270). -/

namespace Sys2Proof.Machine

/-- The instance of LPM or ACL that serves a slice (R280): S16 uses that of the slice whose ports it serves. -/
def searchInst (s : State) (n : Nat) : Nat :=
  if n < 16 then n / 2
  else match (List.range 16).find? (fun g => servingSlice s g == some 16) with
    | some g => g / 2
    | none => 0

/-- The entries of an indexed table on an instance that a frame of an epoch sees: index and contents. -/
def seenEntries (s : State) (epoch id inst : Nat) : List (Nat × Bytes) :=
  (s.tbl.ents.filter (fun e => e.1 / 2 ^ 32 == id * 64 + inst && entVisible s epoch e.2)).map
    (fun e => (e.1 % 2 ^ 32, e.2.bytes))

/-- The contents of slots as the searches find them: `bad` are slots that differ from their shadows, which hold until
repointing rewrites them (R288). -/
def foundEntries (es bad : List (Nat × Bytes)) : List (Nat × Bytes) :=
  es.map (fun e => match bad.find? (fun b => b.1 == e.1) with
    | some b => b
    | none => e)

/-- A key matches under a value and a mask: every cared bit equals (R279). -/
def maskMatch (key value mask : Nat) : Bool := (key ^^^ value) &&& mask == 0

/-- The number of bits set in a value of some width. -/
def ones (w v : Nat) : Nat := (List.range w).countP (bit v)

/-- A block of 512 slots is searched (R286): its pre-filter is enabled and admits the key byte; with no source every
enabled block is. -/
def blockSearched (s : State) (epoch id inst : Nat) (key : Option Nat) (idx : Nat) : Bool :=
  match tableRead s epoch id inst (idx / 512) with
  | none => false
  | some e => bit (leAt e 0 4) 16 && (match key with
    | none => true
    | some k => (k ^^^ leAt e 0 1) &&& leAt e 1 1 == 0)

/-- The best of some matches (R285): most cared bits, then the lowest index. -/
def bestMatch (ms : List (Nat × Nat × Bytes)) : Option (Nat × Nat × Bytes) :=
  ms.foldl (fun b m => match b with
    | none => some m
    | some x => if x.2.1 < m.2.1 ∨ (x.2.1 = m.2.1 ∧ m.1 < x.1) then some m else b) none

/-- A result of R282: flags, cared bits, slot and data; without a match all zero. -/
def searchResult (flags : Bytes → Nat) : Option (Nat × Nat × Bytes) → Bytes
  | none => List.replicate 16 0
  | some m => le 1 (flags m.2.2) ++ [0] ++ le 2 m.2.1 ++ le 4 m.1 ++ cut m.2.2 0 8

/-! LPM (R281). -/

/-- The most significant byte of a destination address (R286 value 2). -/
def addrTop (l : IpLayer) : Nat := (byteAt l.dst (if l.v6 then 0 else 12)).toNat

/-- The key byte of the LPM pre-filter, `none` for none (R286). -/
def lpmKeyByte (s : State) (f : Frame) (l : IpLayer) : Option Nat :=
  match regFieldAt s f.epoch .tableSearchCfg 0 0 2 with
  | 0 => none
  | 1 => some (f.tenant % 256)
  | 2 => some (addrTop l)
  | _ => some (f.tenant % 16 * 16 + addrTop l / 16)

/-- The search key of an even and an odd slot for a frame: kind, VRF and destination address (R281). -/
def lpmKeys (f : Frame) (l : IpLayer) : Nat × Nat :=
  let vrf := 2 ^ 60 * f.tenant
  if l.v6 then
    let a := beVal l.dst
    (6 * 2 ^ 76 + vrf + a / 2 ^ 68, 7 * 2 ^ 76 + a % 2 ^ 68)
  else (4 * 2 ^ 76 + vrf + beAt l.dst 12 4, 0)

/-- The value and mask of an LPM slot; its kind bits are always cared. -/
def lpmSlot (b : Bytes) : Nat × Nat := (beAt b 0 10, beAt b 10 10 ||| 15 * 2 ^ 76)

/-- What an LPM slot contributes: slot, cared bits, data; an IPv6 entry is an even slot with the odd one after it. -/
def lpmMatch (es : List (Nat × Bytes)) (f : Frame) (l : IpLayer) (e : Nat × Bytes) : Option (Nat × Nat × Bytes) :=
  let k := lpmKeys f l
  let x := lpmSlot e.2
  if !maskMatch k.1 x.1 x.2 then none
  else if !l.v6 then some (e.1, ones 80 x.2, cut e.2 20 8)
  else if e.1 % 2 = 1 then none
  else match es.find? (fun o => o.1 == e.1 + 1) with
    | none => none
    | some o =>
      let y := lpmSlot o.2
      if maskMatch k.2 y.1 y.2 then some (e.1, ones 80 x.2 + ones 80 y.2, cut e.2 20 8) else none

/-- The LPM search of a frame. -/
def lpmSearch (s : State) (f : Frame) (bad : List (Nat × Bytes)) : Bytes :=
  match keyLayer f with
  | none => searchResult (fun _ => 0) none
  | some l =>
    let i := 0x10 + searchInst s f.slice
    let es := foundEntries (seenEntries s f.epoch 0x10 i) bad
    let ms := (es.filter (fun e => blockSearched s f.epoch 0x11 i (lpmKeyByte s f l) e.1)).filterMap (lpmMatch es f l)
    searchResult (fun _ => 1) (bestMatch ms)

/-! ACL (R283, R284). -/

/-- The search key of an ACL slot. -/
def aclKey (f : Frame) (l : IpLayer) : Nat :=
  let flags := if l.proto = 6 then l.tcpFlags % 64 else 0
  beVal l.src * 2 ^ 192 + beVal l.dst * 2 ^ 64 + f.tenant * 2 ^ 48 + l.kSport * 2 ^ 32 + l.kDport * 2 ^ 16 +
    l.proto * 2 ^ 8 + flags * 4 + l.frag

/-- The key byte of the ACL pre-filter (R286). -/
def aclKeyByte (s : State) (f : Frame) (l : IpLayer) : Option Nat :=
  match regFieldAt s f.epoch .tableSearchCfg 0 2 2 with
  | 0 => none
  | 1 => some (f.tenant % 256)
  | 2 => some l.proto
  | _ => some (l.kDport / 256)

/-- The flags of an ACL result: hit, permit, deny. -/
def aclFlags (data : Bytes) : Nat :=
  let a := leAt data 0 1 % 4
  1 + 2 * flag (a == 1) + 4 * flag (a == 2)

/-- The ACL search of a frame. -/
def aclSearch (s : State) (f : Frame) (bad : List (Nat × Bytes)) : Bytes :=
  match keyLayer f with
  | none => searchResult (fun _ => 0) none
  | some l =>
    let i := 0x20 + searchInst s f.slice
    let es := foundEntries (seenEntries s f.epoch 0x20 i) bad
    let ms := (es.filter (fun e => blockSearched s f.epoch 0x21 i (aclKeyByte s f l) e.1)).filterMap (fun e =>
      if maskMatch (aclKey f l) (beAt e.2 0 40) (beAt e.2 40 40) then some (e.1, ones 320 (beAt e.2 40 40), cut e.2 80 8)
      else none)
    searchResult aclFlags (bestMatch ms)

/-- LPM_ACL_RESULT (R280): both results reach the workspace of a frame that has no verdict yet.  `lpmBad` and `aclBad`
are slots that hold other contents than their shadows. -/
def execLpmAclResult (fid : Nat) (lpmBad aclBad : List (Nat × Bytes)) (s : State) : Host.Outcome State Fault Refusal :=
  match frameAt s fid with
  | none => .next s
  | some f =>
    if !inEpochCount f || f.lpm.isSome then .next s
    else .next (setFrame s fid (some { f with lpm := some (lpmSearch s f lpmBad), acl := some (aclSearch s f aclBad) }))

/-! Secondary lookups (R130, R265). -/

/-- The table that a code of R130 names. -/
def lookupTable (t : Nat) : Nat :=
  if t = 1 then 0x08 else if t = 2 then 0x09 else if t = 3 then 0x0B else if t = 4 then 0x0A else 0x0C

/-- The data of an entry in a result (R265-R270). -/
def entryData (id : Nat) (b : Bytes) : Bytes :=
  if id = 0x08 then cut b 8 2 ++ List.replicate 6 0
  else if id = 0x09 then cut b 20 8
  else if id = 0x0A then cut b 24 8
  else cut b 0 8

/-- The entry that a secondary lookup finds for a frame: index and contents. -/
def secondaryEntry (s : State) (f : Frame) (id : Nat) (key : Bytes) : Option (Nat × Bytes) :=
  match tableInfo id with
  | none => none
  | some t =>
    if t.keyLen = 0 then
      let i := leVal key % t.count
      (tableRead s f.epoch id 0 i).map (fun b => (i, b))
    else hashedRead s f.epoch id (cut key 0 t.keyLen)

/-- The result of a secondary lookup of a frame, by its LOOKUP table code and key (R265). -/
def secondaryResult (s : State) (f : Frame) (req : Nat × Bytes) : Bytes :=
  let id := lookupTable req.1
  match secondaryEntry s f id req.2 with
  | some (i, b) =>
    let fl := if id = 0x08 then 2 * flag (bit (byteAt b 10).toNat 0) + 4 * flag (bit (byteAt b 10).toNat 3) else 0
    le 1 (1 + fl) ++ le 1 id ++ [0, 0] ++ le 4 i ++ entryData id b
  | none => [0] ++ le 1 id ++ List.replicate 14 0

/-- SECONDARY_LOOKUP_RESULT (R130): the frame's oldest outstanding lookup writes its result to 0x240. -/
def execSecondaryLookupResult (fid : Nat) (s : State) : Host.Outcome State Fault Refusal :=
  match frameAt s fid with
  | none => .next s
  | some f =>
    match f.secReqs with
    | [] => .next s
    | req :: later =>
      if inEpochCount f then
        .next (setFrame s fid (some { f with sec := some (secondaryResult s f req), secReqs := later }))
      else .next s

end Sys2Proof.Machine
end

