-- ==== Sys2Proof/Machine/Admit.lean ====
section
/-! DEFINITION. The front of a slice: head admission (R110-R113), the tenant map (R94-R98), spreading (R103-R107), the
classing of R102, steering (R540, R544, R545) and the sequencer contexts (R122). -/

namespace Sys2Proof.Machine

/-! Tenant identity (R94-R97). -/

/-- The frame carries a VNI: its outermost tunnel is VXLAN, Geneve or NVGRE (R96). -/
def carriesVni (p : Parse) : Bool := p.tunnel == 1 || p.tunnel == 2 || p.tunnel == 3

/-- The tenant-map key of a frame's subport and outer VLAN (R94, R95). -/
def vlanTenantKey (sub : Nat) (p : Parse) : Bytes := [1, 0] ++ le 2 sub ++ le 4 ((outerVid p).getD 4096)

/-- The tenant-map key of a frame's VNI; `none` where it carries none (R94, R97). -/
def vniTenantKey (p : Parse) : Option Bytes :=
  if carriesVni p then some ([2, BitVec.ofNat 8 p.tunnel] ++ le 2 0 ++ le 4 p.vni) else none

/-- The single tenant-map key of a frame that the map is looked up with (R96, R97). -/
def tenantKey (s : State) (f : Frame) : Option Bytes :=
  match f.ingress with
  | .inj h r => some ([3, 0] ++ le 2 h ++ le 4 r)
  | .subport n =>
    match regFieldAt s f.epoch .subportTenantCfg n 0 2 with
    | 1 => vniTenantKey f.parse
    | 2 => match vniTenantKey f.parse with
      | some k => some k
      | none => some (vlanTenantKey n f.parse)
    | _ => some (vlanTenantKey n f.parse)
  | _ => none

/-- What the tenant map says of a frame: tenant, class, profile. -/
structure TenantHit where
  tenant : Nat
  cls : Nat
  profile : Nat
  deriving DecidableEq, Repr

/-- The tenant, class and profile of a prefix (R538, R545). -/
def prefixTenant (b : Bytes) : TenantHit :=
  { tenant := leAt b 4 2, cls := leAt b 6 1, profile := leAt b 7 1 % 64 }

/-- The outcome of the tenant map: its entry, and whether the map was missed; `none` is a miss that drops (R96, R97). -/
def tenantOf (s : State) (f : Frame) : Option TenantHit × Bool :=
  match f.ingress with
  | .bond _ => (some (prefixTenant f.pfx), false)
  | _ =>
    match (tenantKey s f).bind (hashedRead s f.epoch 0x01) with
    | some (_, b) => (some { tenant := leAt b 8 2, cls := leAt b 10 1, profile := leAt b 11 1 % 64 }, false)
    | none =>
      match f.ingress with
      | .subport n =>
        let v := regValAt s f.epoch .subportTenantCfg n
        if bit v 2 then (some { tenant := bits v 16 16, cls := bits v 8 8, profile := 0 }, true) else (none, true)
      | _ => (none, true)

/-- Counts a tenant-map miss against the subport or the INJ ring; a subport's miss that drops a well-formed frame is
counted as a drop too (R97, R102). -/
def countMiss (s : State) (f : Frame) (drops : Bool) : State :=
  match f.ingress with
  | .subport n =>
    let s := count s 1 n 33 1
    if drops && f.parse.cause == 0 then count s 1 n 34 1 else s
  | .inj h r =>
    let page := typePage 4 + r
    setRing s h page { ringAt s h page with injErrors := (ringAt s h page).injErrors + 1 }
  | _ => s

/-! Spreading (R103-R107). -/

/-- The IP layer that a profile hashes: with LAYER the inner one of a tunnelled frame, else the outermost (R103). -/
def spreadLayer (f : Frame) (inner : Bool) : Option IpLayer :=
  if inner && f.parse.tunnel != 0 then f.parse.inner else f.parse.outer

/-- The hash input of a frame under the HASH_SEL value `sel` (R105). -/
def spreadInput (f : Frame) (sel : Nat) : Bytes :=
  let l := (spreadLayer f (bit sel 8)).getD { kSrc := List.replicate 16 0, kDst := List.replicate 16 0 }
  let swap := bit sel 9 && decide (beVal (l.kDst ++ be 2 l.kDport) < beVal (l.kSrc ++ be 2 l.kSport))
  let a := if swap then (l.kDst, l.kSrc, l.kDport, l.kSport) else (l.kSrc, l.kDst, l.kSport, l.kDport)
  let part := fun (i : Nat) (b : Bytes) => if bit sel i then b else []
  part 0 a.1 ++ part 1 a.2.1 ++ part 2 (be 2 a.2.2.1) ++ part 3 (be 2 a.2.2.2) ++ part 4 (be 1 l.kProto) ++
    part 5 (be 3 l.label) ++ part 6 (be 3 f.parse.vni) ++ part 7 (le 2 f.tenant)

/-- The key of a spreading profile for an epoch, 52 bytes (R104, R109). -/
def spreadKey (s : State) (epoch p : Nat) : Bytes :=
  ((upFrom (13 * p) 13).map (fun i => le 4 (hashKeyAt s epoch i).toNat)).flatten

/-- A frame with its spread hash and indirection value (R106, R107). -/
def spread (s : State) (f : Frame) : Frame :=
  let h := (toeplitz (spreadKey s f.epoch f.profile) (spreadInput f (regValAt s f.epoch .hashSel f.profile))).toNat
  { f with hash := h, indir := leVal (tableOr0 s f.epoch 0x03 0 (f.profile * 4096 + h % 4096) 2) }

/-! Malformed frames (R91-R93). -/

/-- The action of MALFORMED_ACT for a cause (R91). -/
def malformedAct (s : State) (epoch cause : Nat) : Nat := bits (regValAt s epoch .malformedAct 0) (2 * cause - 2) 2

/-- A malformed cause for which the pass action is honoured (R89). -/
def passCause (c : Nat) : Bool := c == 3 || c == 7 || c == 8 || c == 15 || c == 16

/-- Counts a malformed frame in its slice by cause and in its subport (R92). -/
def countMalformed (s : State) (f : Frame) : State :=
  let s := count s 4 f.slice (f.parse.cause - 1) 1
  match f.ingress with
  | .subport n => count s 1 n 32 1
  | .bond n => count s 1 n 32 1
  | _ => s

/-- A malformed frame is dropped and a copy punted within PUNT_PER_MS, or the copy is counted as suppressed (R91). -/
def puntMalformed (s : State) (fid : Nat) (f : Frame) : State :=
  let x := sliceAt s f.slice
  if regFieldAt s f.epoch .parseMiscCfg 0 16 16 ≤ x.punts then dropFrame (count s 4 f.slice 31 1) fid
  else
    let s := setSlice s f.slice { x with punts := x.punts + 1 }
    let ring := regFieldAt s f.epoch .parsePuntCfg 0 0 4
    let v := paste (paste f.verdict 8 (le 2 (0x100 + f.parse.cause))) 22 (le 2 ring)
    passVerdict s fid { f with verdict := fillVerdict f (v.set 0 2) false false }

/-! The classing of R102. -/

/-- The classes that a well-formed frame is put into (R102). -/
inductive FrameClass where | drop | stateless | flowBound
  deriving DecidableEq, Repr

/-- The rules of R102 after the tenant. -/
def classify (f : Frame) : FrameClass :=
  let b := (byteAt f.clsEntry 0).toNat
  if bit b 0 then .stateless
  else match keyLayer f with
    | none => if bit b 6 then .stateless else .drop
    | some l =>
      let mode := if bits b 4 2 = 3 then 0 else bits b 4 2
      if l.frag == 2 && mode != 2 then (if mode = 1 then .stateless else .drop) else .flowBound

/-- Counts a drop of R102 in the slice and the tenant. -/
def classDrop (s : State) (fid : Nat) (f : Frame) : State := dropFrame (count (count s 4 f.slice 32 1) 5 f.tenant 15 1) fid

/-- The sequencer contexts of a slice in use (R122). -/
def contextsUsed (s : State) (n : Nat) : Nat :=
  s.slices.frames.countP (fun p => match p.2 with
    | some f => f.slice == n && f.context && noVerdict f
    | none => false)

/-- The frames of a slice that wait for a sequencer context, in arrival order (R122). -/
def contextQueue (s : State) (n : Nat) : List Nat :=
  (sliceAt s n).ctxWait.filter (fun fid => match frameAt s fid with
    | some f => noVerdict f && !f.context
    | none => false)

/-- A frame takes a context, or waits for one in arrival order (R122). -/
def takeContext (s : State) (fid : Nat) (f : Frame) : State :=
  if contextsUsed s f.slice < 9216 && (contextQueue s f.slice).isEmpty then setFrame s fid (some { f with context := true })
  else
    let x := sliceAt s f.slice
    setFrame (setSlice s f.slice { x with ctxWait := x.ctxWait ++ [fid] }) fid (some f)

/-- The classifier ends with a frame that goes on to the sequencer: without an IP layer at the key layer both searches
have no result to wait for. -/
def enterSequencer (s : State) (fid : Nat) (f : Frame) : State :=
  let f := { f with pc := seqEntry f }
  let f := if (keyLayer f).isNone then { f with lpm := some (List.replicate 16 0), acl := some (List.replicate 16 0) } else f
  takeContext s fid f

/-- The device that owns a frame's key, where it is not served here whatever the map says (R544). -/
def ownerOf (s : State) (f : Frame) : Option Nat :=
  if steers s then
    let v := mapAt s f.epoch (mapIndex s f.key)
    if mapLocal v || mapOwner v == ownDev s then none else some (mapOwner v)
  else none

/-- A frame is steered to its owner by the group of STACK_ROUTE, or dropped where that is not valid (R541, R544, R560). -/
def steerTo (s : State) (fid : Nat) (f : Frame) (dev : Nat) : State :=
  let v := regValAt s f.epoch .stackRoute dev
  if bit v 10 then
    let f := { f with steered := true, indir := bits (stackHash s f.key) 16 16 }
    let w := paste f.verdict 0 ([1, 0] ++ le 2 (0x400 + bits v 0 10))
    passVerdict s fid { f with verdict := fillVerdict f w (!earlierParked s fid f) false }
  else dropFrame (count s 16 0 3 1) fid

/-- A flow-bound frame: dropped by an isolated member or a slice opened for stateless frames only, steered to the owner of
its key, or looked up here (R545, R555, R638). -/
def flowBound (s : State) (fid : Nat) (f : Frame) : State :=
  match keyLayer f with
  | none => s
  | some l =>
    let f := { f with key := keyOf l f.tenant (keyInner f), icmpErr := l.icmpError }
    let home := sliceAt s ((servedGroup s f.slice).getD f.slice)
    if s.stk.isolated then dropFrame (count s 16 0 5 1) fid
    else if home.opened = 1 then classDrop s fid f
    else match ownerOf s f with
      | none => enterSequencer s fid f
      | some dev =>
        match f.ingress with
        | .bond _ => enterSequencer (count s 16 0 4 1) fid f
        | _ => steerTo s fid f dev

/-- A frame after the tenant map: malformed frames by their action, misses, classes without an entry, which drop (R670), the
source lookup and the classing of R102. -/
def classifyFrame (s : State) (fid : Nat) (f : Frame) (hit : Option TenantHit) : State :=
  let t := hit.getD { tenant := 0, cls := 0, profile := 0 }
  let f := { f with tenant := t.tenant, cls := t.cls, profile := t.profile }
  let f := spread s { f with clsEntry := if hit.isSome then tableOr0 s f.epoch 0x02 0 t.cls 16 else List.replicate 16 0 }
  let s := setFrame s fid (some f)
  if f.parse.cause ≠ 0 then
    let s := countMalformed s f
    match malformedAct s f.epoch f.parse.cause with
    | 1 => puntMalformed s fid f
    | 2 =>
      if passCause f.parse.cause && hit.isSome && permissive f then
        let f := { f with stateless := true }
        enterSequencer (setFrame s fid (some f)) fid f
      else dropFrame s fid
    | _ => dropFrame s fid
  else if hit.isNone then dropFrame s fid
  else if (tableRead s f.epoch 0x02 0 t.cls).isNone then classDrop s fid f
  else
    let s := match f.ingress with
      | .subport n => sourceLookup s fid f n
      | _ => s
    let f := (frameAt s fid).getD f
    match classify f with
    | .drop => classDrop s fid f
    | .stateless =>
      let f := { f with stateless := true }
      enterSequencer (setFrame s fid (some f)) fid f
    | .flowBound => flowBound s fid f

/-! Frames from another member (R540, R545). -/

/-- A queue is one of a bond subport. -/
def bondQueue (s : State) (q : Nat) : Bool := isSubQ q && getAt false s.ports.bond (queueSub q / 4)

/-- A DELIVER frame gets its verdict from its prefix, without classification or microcode; a destination that leads over
a bond again drops it (R540). -/
def deliverFrame (s : State) (fid : Nat) (f : Frame) : State :=
  let t := prefixTenant f.pfx
  let f := { f with tenant := t.tenant, cls := t.cls, profile := t.profile
                    clsEntry := tableOr0 s f.epoch 0x02 0 t.cls 16, rewrite := cut f.pfx 16 64 }
  let f := spread s f
  let v := [1, byteAt f.pfx 1 &&& 0x1C] ++ cut f.pfx 8 2 ++ [0, 0] ++ cut f.pfx 10 2 ++ [0, 0, 0, 0] ++ cut f.pfx 12 1 ++
    List.replicate 19 0
  let f := { f with verdict := fillVerdict f v true false }
  match destOf s f (leAt v 2 2 % 4096) (leAt v 2 2 / 4096) (leAt v 6 2) with
  | some d => if bondQueue s d.queue then dropFrame (count s 16 0 3 1) fid else passVerdict (setFrame s fid (some f)) fid f
  | none => passVerdict (setFrame s fid (some f)) fid f

/-! Head admission (R111). -/

/-- A head enters the parser at its deadline start, under the current epoch and the live bank (R80, R121, R123). -/
def admitHead (n : Nat) (s : State) (fid : Nat) : State :=
  match frameAt s fid with
  | none => s
  | some f =>
    let p := parseHead (headOf s s.tbl.epoch f.bytes false)
    let f := { f with slice := n, stage := .slice, epoch := s.tbl.epoch, start := s.clk.cc, bank := s.seq.live
                      parse := p, pdraw := s.free }
    let s := setFrame (s.withFree (s.free + 64)) fid (some f)
    match f.ingress, (byteAt f.pfx 0).toNat with
    | .bond _, 2 => countPmc (deliverFrame s fid f) { code := 0x02, block := n } 1
    | .bond _, _ =>
      let t := prefixTenant f.pfx
      let s := countPmc s { code := 0x02, block := n, who := some (t.tenant, t.cls) } 1
      if s.stk.isolated then dropFrame (count s 16 0 5 1) fid else classifyFrame s fid f (some t)
    | _, _ =>
      let r := tenantOf s f
      let who := r.1.map (fun t => (t.tenant, t.cls))
      let s := countPmc s { code := 0x02, block := n, who := who } 1
      let s := if r.2 then countMiss s f r.1.isNone else s
      classifyFrame s fid f r.1

/-- One head of an input is admitted, if it holds one. -/
def admitFrom (s : State) (n i : Nat) : State × Bool :=
  match (sliceAt s n).heads.getD i [] with
  | [] => (s, false)
  | fid :: rest =>
    let x := sliceAt s n
    (admitHead n (setSlice s n { x with heads := x.heads.set i rest }) fid, true)

/-- One round of slots over inputs in order; how many slots are left of `k` (R111). -/
def admitRound (n : Nat) : List Nat → Nat → State → State × Nat
  | [], k, s => (s, k)
  | _ :: _, 0, s => (s, 0)
  | i :: is, k + 1, s =>
    match admitFrom s n i with
    | (s, true) => admitRound n is k s
    | (s, false) => admitRound n is (k + 1) s

/-- A slice admits heads: it is awake, neither stopped nor retired, and no switch holds its heads (R150, R569, R570). -/
def admits (s : State) (n : Nat) : Bool :=
  let x := sliceAt s n
  isAwake s .slice n && !x.stopped && !x.retired && !(s.ft.switch.any (fun m => m.begun && m.dst == n))

/-- HEAD_ADMIT (R111): up to 8 heads in one cycle, in two rounds: the ports from the one after the first of the last cycle
on, then the internal input, and then the ports once more. -/
def execHeadAdmit (slice : SliceNo) (s : State) : Host.Outcome State Fault Refusal :=
  let n := slice.val
  if admits s n then
    let ports := (upFrom ((sliceAt s n).rot + 1) 6).map (· % 6)
    match admitRound n (ports ++ [6]) 8 s with
    | (s, k) =>
      match admitRound n ports k s with
      | (s, _) => .next (setSlice s n { sliceAt s n with rot := ports.headD 0 })
  else .next s

/-- SEQ_CONTEXT_GRANT (R122): a free context goes to the frame that has waited longest and still has no verdict. -/
def execSeqContextGrant (slice : SliceNo) (s : State) : Host.Outcome State Fault Refusal :=
  let n := slice.val
  match contextQueue s n with
  | [] => .next (setSlice s n { sliceAt s n with ctxWait := [] })
  | fid :: rest =>
    match frameAt s fid with
    | some f =>
      if contextsUsed s n < 9216 then
        .next (setFrame (setSlice s n { sliceAt s n with ctxWait := rest }) fid (some { f with context := true }))
      else .next s
    | none => .next s

end Sys2Proof.Machine
end

