-- ==== Sys2Proof/Machine/Tasks.lean ====
section
/-! DEFINITION. The task scheduler (08): arrival of tasks and operands, dispatch, pre-emption (R323-R339). -/

namespace Sys2Proof.Machine

/-- Bytes whose value the spec leaves open, each drawn apart (log 6). -/
def drawBytes (s : State) (n : Nat) : Bytes × State :=
  ((List.range n).map (fun i => BitVec.truncate 8 (Config.freeValue (s.free + i))), s.withFree (s.free + n))

/-- An operand declaration (R324): bits of its 8 bytes. -/
def declBits (t : Task) (k lo w : Nat) : Nat := bits (leAt t.desc (32 + 8 * k) 8) lo w

/-- The kind of a declared operand; 7 to 15 act as 0 (R324). -/
def declKind (t : Task) (k : Nat) : Nat := if declBits t k 0 4 < 7 then declBits t k 0 4 else 0

/-- The declarations of a task that name an operand. -/
def declared (t : Task) : List Nat := (List.range 4).filter (fun k => declKind t k != 0)

/-! The matching store (R330, R331). -/

/-- MGMT_RESERVE as it acts (R355). -/
def mgmtReserve (s : State) : Nat := min (regField s .schedLimitCfg 0 16 16) 8192

/-- A task holds an entry of the matching store: until it is dispatched and its held releases are delivered (R331). -/
def holdsEntry (s : State) (id : Nat) : Bool :=
  match taskAt s id with
  | some t => t.st != .running || taskMode t == 1
  | none => false

/-- The entries of a physical cluster's matching store in use, and those of data tasks. -/
def storeUsed (s : State) (p : Nat) : Nat × Nat :=
  let ids := (clAt s p).tasks.filter (holdsEntry s)
  (ids.length, (ids.filter (fun n => match taskAt s n with
    | some t => taskKind t != 5
    | none => false)).length)

/-- The matching store takes a task of a kind (R331, R339). -/
def storeRoom (s : State) (p kind : Nat) : Bool :=
  let u := storeUsed s p
  decide (u.1 < 16384) && (kind == 3 || kind == 5 || decide (u.2 < 16384 - mgmtReserve s))

/-- A task enters the matching store (R330): with every operand there it is ready. -/
def enterStore (s : State) (p id : Nat) : State :=
  match taskAt s id with
  | none => s
  | some t =>
    let t := { t with arrived := s.clk.cc, missing := declared t }
    let s := setCl (setTask s id (some t)) p { clAt s p with tasks := (clAt s p).tasks ++ [id] }
    let s := trace s p 1 0xFF 0 id t
    if t.missing.isEmpty then trace s p 2 0xFF 0 id t else s

/-- What ends a setup task as it arrives (R225, R327): a SETUP_PROG with a reserved bit, or no policy region. -/
def arriveEnd (s : State) (t : Task) : Option Nat :=
  if taskKind t != 1 && taskKind t != 2 then none
  else if (policyRegion s).2 = 0 then some 3
  else if taskKind t = 1 ∧ 8192 ≤ leAt t.desc 10 2 then some 9
  else none

/-- The trace record of an end without an engine (R351). -/
def endTrace (s : State) (p id : Nat) (t : Task) : State := trace s p 6 0xFF 0 id t

/-- A task of a setup lane (R338, R339). -/
def arriveLane (s : State) (n c p : Nat) : State :=
  match (sliceAt s n).setupQ.find? (fun id => match taskAt s id with
      | some t => t.cluster == c
      | none => false) with
  | none => s
  | some id =>
    match taskAt s id with
    | none => s
    | some t =>
      if !storeRoom s p (taskKind t) then s
      else
        let x := sliceAt s n
        let s := checkAdmission (setSlice s n { x with setupQ := x.setupQ.filter (· != id) }) n
        match arriveEnd s t with
        | some code => setTask (endSetup (endTrace (trace s p 1 0xFF 0 id t) p id t) t code false) id none
        | none => enterStore s p id

/-- A counter-fold task (R239, R323), with tenant and class of the slot's record. -/
def foldTask (s : State) (slot gen c : Nat) : Task :=
  let r := recAt s slot
  { desc := [3, 0, 0xFF, 0, 0xFF, 0xFF] ++ le 2 (recTenant r) ++ le 1 (recClass r) ++ List.replicate 15 0 ++ le 4 slot ++
      le 2 gen ++ List.replicate 98 0
    cluster := c, arrived := 0 }

/-- The oldest fold of a slot that has no task yet enters the store (R239). -/
def arriveFold (s : State) (slot p : Nat) : State :=
  match s.fs.folds.find? (fun f => f.slot == slot && f.task.isNone) with
  | none => s
  | some f =>
    if !storeRoom s p 3 then s
    else match newTask s (foldTask s slot f.gen (slot % 16)) with
      | (s, id) => enterStore (modFold s slot f.gen (fun f => { f with task := some id })) p id

/-- The operand of the record that a frame's verdict names (R324): by slot in tier A; a record served from tier B by its cold
slot, which LOC can hold below 2^32; none without a record (log 60). -/
def recordOperand (s : State) (f : Frame) (slot : Nat) : Bytes :=
  if !f.hit then declare 0 0 0 0 0
  else if bit (leAt f.verdict 16 4) 26 then
    match coldOf s f.key with
    | some c => if c < 2 ^ 32 then declare 5 1 0 c 0 else declare 0 0 0 0 0
    | none => declare 0 0 0 0 0
  else declare 4 1 0 slot 0

/-- The task of a frame of an internal queue: frame head and the record that its verdict names (R324, R329). -/
def internalTask (s : State) (k : Nat) (c : Copy) (f : Frame) : Task :=
  let slot := leAt f.verdict 16 4 % 2 ^ 25
  let canon := canonicalKey f.key
  { desc := le 1 4 ++ le 1 (4 * flag (canon != f.key) + 16) ++ le 1 (if f.slice ≤ 16 then f.slice else 0xFF) ++ [0] ++
      le 2 (ingressSub f) ++ le 2 f.tenant ++ le 1 f.cls ++ List.replicate 7 0 ++ le 8 (hash1 s canon % 2 ^ 63) ++
      le 8 (frameLoc f) ++ declare 1 0 0 0 0 ++ recordOperand s f slot ++ List.replicate 16 0 ++
      cut f.key 0 40 ++ List.replicate 24 0
    cluster := k, arrived := 0, copy := some c
    written :=
      if !f.hit then none
      else if bit (leAt f.verdict 1 1) 6 then
        (coldOf s f.key).map (fun c => { cold := true, slot := c, gen := leAt f.verdict 20 2 })
      else some { cold := false, slot := slot, gen := leAt f.verdict 20 2 } }

/-- The frame at the head of an internal queue becomes a task (R329, R377). -/
def arriveInternal (s : State) (k p : Nat) : State :=
  let q := internalQ k
  match (queueAt s q).copies with
  | [] => s
  | c :: _ =>
    match frameAt s c.fid with
    | none => s
    | some f =>
      if !(f.whole && shaperOpen s q && storeRoom s p 4) then s
      else
        let s := popCopy (chargeQueue s q (copyLen f c.trunc)) q c
        match newTask (countQ s q 2 (copyLen f c.trunc)) (internalTask s k c f) with
        | (s, id) => enterStore s p id

/-- The descriptor of a management task: what the command processor gives, with the fields that R323 and R329 fix. -/
def mgmtDesc (a : Accepted) (desc : Bytes) : Bytes :=
  let m := masterOf a.src
  let who := m + match a.src with
    | .cmdRing _ r => 4 * r.val
    | _ => 0
  let d := cut desc 0 128
  paste d 0 ([5, 8, 0xFF, 0] ++ le 2 0xFFFF ++ cut d 6 2 ++ cut d 8 1 ++ [0] ++ le 2 a.opcode ++ [0, 0, 0, 0] ++
    le 8 (2 ^ 63 + who) ++ le 8 who)

/-- An accepted command that engines carry out becomes a management task of logical cluster 0 (R18, R329; log 60). -/
def arriveMgmt (s : State) (aseq : Nat) (desc : Bytes) (p : Nat) : State :=
  match s.host.accepted.find? (fun a => a.aseq == aseq && !a.started) with
  | none => s
  | some a =>
    if mustWait s a || !storeRoom s p 5 then s
    else
      let s := s.withHost { s.host with accepted := s.host.accepted.map (fun b =>
        if b.aseq = aseq then { b with started := true } else b) }
      match newTask s { desc := mgmtDesc a desc, cluster := 0, arrived := 0, aseq := some aseq } with
      | (s, id) => enterStore s p id

/-- TASK_ARRIVE (R330, R331, R339): a cluster that no physical cluster serves takes none. -/
def execTaskArrive (src : TaskSrc) (s : State) : Host.Outcome State Fault Refusal :=
  let c := match src with
    | .lane _ c => c.val
    | .fold slot => slot % 16
    | .internal q => q.val
    | .mgmt _ _ => 0
  match clusterPhys s c with
  | none => .next s
  | some p =>
    match src with
    | .lane n _ => .next (arriveLane s n.val c p)
    | .fold slot => .next (arriveFold s slot p)
    | .internal q => .next (arriveInternal s q.val p)
    | .mgmt aseq desc => .next (arriveMgmt s aseq.toNat desc p)

/-! Operands (R324, R325). -/

/-- The frame of a task: parked for it, or of its copy. -/
def taskFrame (s : State) (t : Task) : Option Frame :=
  match t.frame with
  | some fid => frameAt s fid
  | none => match t.copy with
    | some c => frameAt s c.fid
    | none => none

/-- Bytes of the policy region (R225): its tables as the current epoch reads them, other bytes as memory holds them,
and beyond the region bytes that the spec leaves open (log 6). -/
def policyBytes (s : State) (off n : Nat) : Bytes × State :=
  match drawBytes s n with
  | (open_, s') =>
    let r := policyRegion s
    ((List.range n).map (fun i =>
      let o := off + i
      if r.2 ≤ o then byteAt open_ i
      else if 0x0A240000 ≤ o then Memory.read s.ddr.mem (r.1 + o)
      else
        let id := if o < 0x40000 then 0x30 else if o < 0x240000 then 0x31 else if o < 0x2240000 then 0x32 else 0x33
        let size := if id = 0x30 then 64 else if id = 0x32 then 2 else 32
        byteAt (tableOr0 s s.tbl.epoch id 0 ((o - policyOffset id) / size) size) ((o - policyOffset id) % size)),
      if off + n ≤ r.2 then s else s')

/-- An entry of any table by its index, as TBL_READ and operands read it: a policy table is one of them; the entries of a
table with several instances follow one another, instance by instance (log 93). -/
def anyEntry (s : State) (id idx : Nat) : Option Bytes :=
  match tableInfo id with
  | none => none
  | some t =>
    if idx < t.count * t.insts then (tableNow s id (t.first + idx / t.count) (idx % t.count)).map (fun b => cut b 0 t.size)
    else none

/-- The bytes of a declared operand (R324); a frame that is gone leaves them open (log 6). -/
def operandBytes (s : State) (t : Task) (k : Nat) : Bytes × State :=
  let loc := declBits t k 16 32
  match declKind t k with
  | 1 => match taskFrame s t with
    | some f => (cut f.bytes 0 256, s)
    | none => drawBytes s 256
  | 2 => (tableOr0 s s.tbl.epoch 0x30 0 (leAt t.desc 12 2 % 4096) 64, s)
  | 3 => match anyEntry s (declBits t k 8 8) loc with
    | some b => (b, s)
    | none => ([], s)
  | 4 => (recView s loc, s)
  | 5 => (coldView s loc, s)
  | _ => policyBytes s loc (if declBits t k 48 16 = 0 then 256 else declBits t k 48 16)

/-- The size of an operand slot of the task area, and its offset (R326). -/
def slotSize (a : Nat) : Nat := if a < 2 then 256 else 128
/-- The offset of an operand slot. -/
def slotOff (a : Nat) : Nat := if a = 0 then 0x0C0 else if a = 1 then 0x1C0 else if a = 2 then 0x2C0 else 0x340

/-- The LPDDR6 address and length of an operand that is read from there (R225, R324). -/
def operandDdr (s : State) (t : Task) (k : Nat) : Option (Nat × Nat) :=
  let loc := declBits t k 16 32
  let base := (policyRegion s).1
  match declKind t k with
  | 1 => none
  | 2 => some (base + leAt t.desc 12 2 % 4096 * 64, 64)
  | 3 =>
    let id := declBits t k 8 8
    let size := if id = 0x30 then 64 else if id = 0x32 then 2 else 32
    if 0x30 ≤ id ∧ id ≤ 0x33 then some (base + policyOffset id + loc * size, size) else none
  | 4 => none
  | 5 => some (coldAddr s loc, 256)
  | _ => some (base + loc, if declBits t k 48 16 = 0 then 256 else declBits t k 48 16)

/-- A setup task declares a class policy block that is absent: it ends DENIED without being dispatched (R670). -/
def policyAbsent (s : State) (t : Task) (k : Nat) : Bool :=
  declKind t k == 2 && (taskKind t == 1 || taskKind t == 2) && (tableNow s 0x30 0 (leAt t.desc 12 2 % 4096)).isNone

/-- OPERAND_ARRIVE (R325, R502): the fetch of a declared operand ends, with an uncorrectable error or not. -/
def execOperandArrive (task : Nat) (k : Fin 4) (ok : Bool) (s : State) : Host.Outcome State Fault Refusal :=
  match taskAt s task with
  | none => .next s
  | some t =>
    let p := bits (regVal s .clusterMap t.cluster) 0 5
    let r : ReadOutcome := if ok then .clean else .uncorrectable
    if !t.missing.contains k.val then .next s
    else
    let d := operandDdr s t k.val
    let s := match d with
      | some x => ddrReadTask s (taskPlane t) x.1 x.2 r
      | none => s
    if !ok || d.any (fun x => poisonedIn s.ddr.poison x.1 x.2) then
      .next (endFaulted (trace s p 8 0xFF 0 task t) p task (8 * p) 0 0 13 (faultDetail 13))
    else if policyAbsent s t k.val then .next (settleTask (endSetup (endTrace s p task t) t 3 false) p task)
    else match operandBytes s t k.val with
      | (b, s) =>
        let t := { t with
          operands := t.operands ++ [(k.val, b.take (slotSize (declBits t k.val 4 2)))]
          missing := t.missing.filter (· != k.val) }
        let s := setTask s task (some t)
        .next (if t.missing.isEmpty then trace s p 2 0xFF 0 task t else s)

/-! Dispatch (R332-R335). -/

/-- An insertion that a task issued is still under way in the flow store. -/
def inserting (s : State) (id : Nat) : Bool :=
  s.fs.ins.any (fun i => match i.origin with
    | .thread _ _ k => k == id
    | _ => false)

/-- A task may be dispatched: its operands are there, in an atomic group those before it have ended, and a retry waits
for the insertion of its earlier run (R221). -/
def taskReady (s : State) (p id : Nat) : Bool :=
  match taskAt s id with
  | some t => (t.st == .waiting || t.st == .preempted) && t.missing.isEmpty && !(t.retry && inserting s id) &&
      (taskMode t != 2 || (groupBefore s p id t).isEmpty)
  | none => false

/-- The ready list of a task (R334). -/
def readyList (t : Task) : Nat :=
  if t.retry then 0 else if taskKind t = 3 ∨ taskKind t = 4 then 1 else if taskKind t = 5 then 3 else 2

/-- A saved task enters a list by the cycle it was saved in, the last saved first. -/
def laterFirst (x : Nat × Nat) : List (Nat × Nat) → List (Nat × Nat)
  | [] => [x]
  | y :: ys => if y.1 ≤ x.1 then x :: y :: ys else y :: laterFirst x ys

/-- The ready tasks of a list, oldest first; pre-empted ones stand before the others, the last saved first (R336). -/
def readyIn (s : State) (p l : Nat) : List Nat :=
  let ids := (clAt s p).tasks.filter (fun n => taskReady s p n && (match taskAt s n with
    | some t => readyList t == l
    | none => false))
  let saved := fun n => match taskAt s n with
    | some t => match t.saved with
      | some c => some c.savedAt
      | none => none
    | none => none
  let pre := (ids.filterMap (fun n => (saved n).map (fun x => (x, n)))).foldr laterFirst []
  pre.map (·.2) ++ ids.filter (fun n => (saved n).isNone)

/-- The threads of a logical cluster that serve management tasks. -/
def mgmtThreads (s : State) (c : Nat) : Nat :=
  ((clusterEngines c).flatMap (servingThreads s)).countP (fun x => match taskAt s x.2.1 with
    | some t => taskKind t == 5
    | none => false)

/-- MGMT_MIN (R355). -/
def mgmtMin (s : State) : Nat := regField s .schedCfg 0 4 4

/-- The task that is dispatched next (R334). -/
def nextTask (s : State) (c p : Nat) : Option Nat :=
  let order := if !(readyIn s p 3).isEmpty && mgmtThreads s c < mgmtMin s then [3, 0, 1, 2] else [0, 1, 2, 3]
  (order.flatMap (readyIn s p)).head?

/-- The idle threads of a logical engine that may get a task (R335). -/
def idleThreads (s : State) (n : Nat) : List Nat :=
  if engServes s n then
    (List.range 8).filter (fun t => (threadAt s n t).st == .idle && bit (regVal s .engThreadCfg n) (8 + t))
  else []

/-- The engine with the most idle threads, the lowest on a tie, and its lowest idle thread (R335). -/
def chooseThread (s : State) (c : Nat) : Option (Nat × Nat) :=
  let best := (clusterEngines c).foldl (fun b n => match b with
    | some m => if (idleThreads s m).length < (idleThreads s n).length then some n else b
    | none => if (idleThreads s n).isEmpty then none else some n) none
  match best with
  | some n => ((idleThreads s n).head?).map (fun t => (n, t))
  | none => none

/-- The address of a thread's task area (R326). -/
def areaOf (t : Nat) : Nat := 0x2E000 + t * 0x400

/-- Writes data memory of a logical engine. -/
def writeDmem (s : State) (n addr : Nat) (data : Bytes) : State :=
  setEng s n { engAt s n with dmem := Memory.writeN (engAt s n).dmem addr data }

/-- The task area as the scheduler writes it: descriptor, canonical key of a task that carries a key, reserved bytes,
operands (R326). -/
def writeArea (s : State) (n t : Nat) (x : Task) : State :=
  let a := areaOf t
  let key := if taskKind x = 1 ∨ taskKind x = 2 ∨ taskKind x = 4 then canonicalKey (cut x.desc 64 40)
    else List.replicate 40 0
  let s := writeDmem s n a (cut x.desc 0 128 ++ key ++ List.replicate 24 0)
  let s := writeDmem s n (a + 0x3C0) (List.replicate 64 0)
  x.operands.foldl (fun s o => writeDmem s n (a + slotOff (declBits x o.1 4 2)) o.2) s

/-- The first instruction of a task (R327). -/
def entryPc (s : State) (n : Nat) (x : Task) : Nat :=
  if taskKind x = 1 then leAt x.desc 10 2 % 8192
  else match (engAt s n).image with
    | some i => match getAt none s.img.store i with
      | some g => leAt g.table (2 * taskKind x) 2 % 8192
      | none => 0
    | none => 0

/-- The bin of a waiting time (R350). -/
def waitBin (d : Nat) : Nat := min (if d < 16 then 0 else Nat.log2 d - 3) 15

/-- The master whose command a task serves, for a performance counter (R615). -/
def taskMaster (x : Task) : Option Nat := if taskKind x = 5 then some (leAt x.desc 24 1 % 4) else none

/-- The tenant of a task, for a performance counter: 0 by tenant (R615). -/
def taskWho (x : Task) : Option (Nat × Nat) := some (taskTenant x, (byteAt x.desc 8).toNat)

/-- The first task that an engine runs after ENG_LOAD activates its image (R599). -/
def firstRun (s : State) (n : Nat) : State :=
  let e := engAt s n
  if !e.firstTask then s
  else match e.image with
    | some i => match getAt none s.img.store i with
      | some g => imageActivated (setEng s n { e with firstTask := false }) n g.info
      | none => s
    | none => s

/-- A task begins on a thread, or resumes where it was pre-empted (R307, R326, R335, R336); a halt asked for while the
thread was idle takes effect at its next boundary (R352). -/
def startTask (s : State) (p n t id : Nat) (x : Task) : State :=
  let s := firstRun s n
  let s := countPmc s { code := 0x0C, block := p, unit := some 0x48, plane := taskPlane x, master := taskMaster x, who := taskWho x } 1
  match x.saved with
  | some c =>
    let s := setTask s id (some { x with st := .running, retry := false, saved := none })
    let s := writeDmem s n (areaOf t) c.area
    trace (setThread s n t { regs := c.regs, chs := c.chs, pc := c.pc, timer := c.timer, st := .ready, task := some id
                             haltReq := (threadAt s n t).haltReq }) p 5 n t id x
  | none =>
    let s := if (byteAt x.desc 3).toNat = 0 then count s 9 x.cluster (24 + waitBin (s.clk.cc - x.arrived)) 1 else s
    let s := setTask s id (some { x with st := .running, retry := false })
    let s := writeArea s n t x
    let y : Thread := { pc := entryPc s n x, st := .ready, task := some id, haltReq := (threadAt s n t).haltReq }
    trace (setThread s n t (((y.put 1 (id % 16384)).put 2 (areaOf t)).put 3 (taskKind x))) p 3 n t id x

/-- TASK_DISPATCH (R334, R335): the scheduler of a logical cluster dispatches one task, if there is one and a thread
for it. -/
def execTaskDispatch (cluster : Fin 16) (s : State) : Host.Outcome State Fault Refusal :=
  let c := cluster.val
  match clusterPhys s c with
  | none => .next s
  | some p =>
    match nextTask s c p, chooseThread s c with
    | some id, some (n, t) =>
      match taskAt s id with
      | some x => .next (startTask s p n t id x)
      | none => .next s
    | _, _ => .next s

/-! Pre-emption and wake (R336, R337). -/

/-- Some thread of an engine that serves a logical cluster is IDLE, whether or not it may get a task. -/
def anyIdle (s : State) (c : Nat) : Bool :=
  (clusterEngines c).any (fun n => (physOf s n).isSome && (List.range 8).any (fun t => (threadAt s n t).st == .idle))

/-- Everything R336 asks for before a thread is pre-empted. -/
def mayPreempt (s : State) (c p n t : Nat) (x : Task) : Bool :=
  let y := threadAt s n t
  taskKind x == 5 && y.st == .ready && y.staged.isEmpty && y.locks.isEmpty &&
    [0, 1, 2].any (fun l => !(readyIn s p l).isEmpty) && !anyIdle s c &&
    decide (mgmtMin s < mgmtThreads s c) &&
    decide (((clAt s p).tasks.countP (fun k => match taskAt s k with
      | some z => z.saved.isSome
      | none => false)) < 64)

/-- PREEMPT (R336): the scheduler pre-empts a management task at an instruction boundary. -/
def execPreempt (en : Fin 128) (t : Fin 8) (s : State) : Host.Outcome State Fault Refusal :=
  let n := en.val
  let c := n / 8
  let y := threadAt s n t.val
  match clusterPhys s c, y.task with
  | some p, some id =>
    match taskAt s id with
    | none => .next s
    | some x =>
      if !mayPreempt s c p n t.val x then .next s
      else
        let area := Memory.readN (engAt s n).dmem (areaOf t.val) 1024
        let x := { x with st := .preempted, saved := some { regs := y.regs, chs := y.chs, pc := y.pc, timer := y.timer, area := area, savedAt := s.clk.cc } }
        let s := count (setTask s id (some x)) 9 c 43 1
        .next (trace (setThread s n t.val { haltReq := y.haltReq }) p 4 n t.val id x)
  | _, _ => .next s

/-- ENGINE_WAKE_REQUEST (R337): a task is ready and no thread of an awake engine is idle, so the lowest gated engine of
the cluster is asked to wake. -/
def execEngineWakeRequest (cluster : Fin 16) (s : State) : Host.Outcome State Fault Refusal :=
  let c := cluster.val
  match clusterPhys s c with
  | none => .next s
  | some p =>
    if (nextTask s c p).isNone || (chooseThread s c).isSome then .next s
    else match ((clusterEngines c).filterMap (physOf s)).find? (fun q =>
        (blkAt s .engine q).st == .clockGated || (blkAt s .engine q).st == .powerGated) with
      | some q => .next (wakeRequest s .engine [q] false)
      | none => .next s

end Sys2Proof.Machine
end

