-- ==== Sys2Proof/Machine/DdrCmds.lean ====
section
/-! DEFINITION. Retraining, faults and retirement of LPDDR6 channels, rows and refresh (R499, R501, R503, R506-R509), and
the LPDDR6 commands (R511). -/

namespace Sys2Proof.Machine

/-! Retirement (R507, R508). -/

/-- Cold slots in use in the band that a further retirement would take. -/
def bandSlots (s : State) (limit : Nat) : List Nat :=
  ((s.fs.cold.map (·.1) ++ s.fs.colds.map (·.cold)).filter (fun c => decide (limit ≤ c) && !s.fs.coldFree.contains c)).eraseDups

/-- Cold slots free below a limit: never used, and freed. -/
def freeBelow (s : State) (limit : Nat) : Nat :=
  (min limit (coldLimit s) - s.fs.coldNext) + s.fs.coldFree.countP (fun c => decide (c < limit))

/-- Why a retirement in service is refused: ERROR detail 5, or NO_SPACE for want of cold slots (R507, R511). -/
def retireRefusal (s : State) (c : Nat) : Option Reply :=
  let x := ddrCh s c
  let limit := coldLimit s - 2 ^ 22 * channelGib s
  if x.st ≠ .inService ∧ x.st ≠ .retraining then some (err 5)
  else if 4 ≤ s.ddr.bands + s.ddr.bootBands ∨ s.fs.tbSize = 0 ∨ s.fs.tbSize < 4 * channelGib s then some (err 5)
  else if freeBelow s limit < (bandSlots s limit).length then some { status := stNoSpace }
  else none

/-- Cold slot numbers in what is under way follow a move. -/
def renameCold (s : State) (c d : Nat) : State :=
  let r := fun n => if n = c then d else n
  let s := s.withFs { s.fs with
    fetches := s.fs.fetches.map (fun f => { f with cold := f.cold.map r, cands := f.cands.map r })
    dems := s.fs.dems.map (fun x => { x with cold := r x.cold })
    refused := s.fs.refused.map (fun x => { x with cold := r x.cold })
    ins := s.fs.ins.map (fun i => if i.tierB then { i with cold := r i.cold } else i)
    dels := s.fs.dels.map (fun x => if x.tierB then { x with slot := r x.slot } else x)
    colds := s.fs.colds.map (fun p => { p with cold := r p.cold })
    mgmt := s.fs.mgmt.map (fun m => if m.tierB then { m with slot := r m.slot } else m)
    moves := s.fs.moves.map (fun m => if m.dir && m.who == .cold c
      then { m with who := .cold d, entry := if m.entry = 0 then 0 else putBits m.entry 24 33 d } else m) }
  s.withEng { s.eng with tasks := s.eng.tasks.map (fun e => (e.1, e.2.map (fun t => { t with
    written := t.written.map (fun w => if w.cold then { w with slot := r w.slot } else w) }))) }

/-- Directory entries that name a cold slot name another. -/
def moveDirs (s : State) (c d : Nat) : State :=
  (s.fs.dir.filter (fun e => dxValid e.2 && dxSlot e.2 == c)).foldl (fun s e => setDir s e.1 (putBits e.2 24 33 d)) s

/-- Extension entries that name a cold slot name another. -/
def moveExts (s : State) (c d : Nat) : State :=
  (s.fs.ext.filter (fun e => extCold e.2 == some c)).foldl (fun s e => setExt s e.1 (extSetCold e.2 (some d))) s

/-- A cold slot in a band moves to a free one below: its directory entries and the extension that names it follow (R508
step 2). -/
def moveCold (s : State) (c : Nat) : State :=
  match allocCold s with
  | none => s
  | some (s, d) => checkWatermarks (renameCold (moveExts (moveDirs (setCold (setCold s d (coldAt s c)) c []) c d) c d) c d)

/-- A retraining is abandoned: DDR_RETRAIN completes with ERROR detail 5 (R506). -/
def abandonTraining (s : State) (c : Nat) : State :=
  let x := ddrCh s c
  let s := setDdrCh s c { x with step := 0, failed := 0, due := false, trainAseq := none }
  match x.trainAseq with
  | some a => finish s a (err 5)
  | none => s

/-- The retirement of a channel begins: its band is taken, and the cold slots in it move below (R507, R508 steps 1, 2). -/
def beginRetire (s : State) (c : Nat) (aseq : Option Nat) : State :=
  let s := abandonTraining s c
  let s := s.withDdr { s.ddr with bands := s.ddr.bands + 1 }
  let base := 2 ^ 30 * (s.fs.tbBase + s.fs.tbSize - s.ddr.bands * channelGib s)
  let s := setDdrCh s c { ddrCh s c with st := .evacuating, evacuated := 0, band := base, retireAseq := aseq }
  (bandSlots s (coldLimit s)).foldl moveCold s

/-- The next granule of a retiring channel, from `g` on, that does not lie in its own band, whose granules hold nothing any
more (R508 step 3). -/
def nextGranule (s : State) (c g : Nat) : Nat :=
  let b := (ddrCh s c).band
  let e := b + 2 ^ 30 * channelGib s
  if b ≤ ddrGranule c g ∧ ddrGranule c g < e then e / 2 ^ 13 else g

/-- The granules that a channel holds: those of installed memory, copies of retired channels in their bands among them. -/
def granuleCount (s : State) : Nat := 2 ^ 17 * (32 * channelGib s)

/-- The cold slots that a retirement gives up (R508 step 5). -/
def bandColdSlots (s : State) : Nat := 2 ^ 22 * channelGib s

/-- Channels retired. -/
def retiredChannels (s : State) : Nat := s.ddr.ch.countP (fun e => e.2.st == .retired)

/-- The evacuation of a channel is complete: it is powered down, and ddr-retired is posted (R508 step 5, R512). -/
def finishRetire (s : State) (c : Nat) : State :=
  let x := ddrCh s c
  let s := retireBlk (setDdrCh s c { x with st := .retired, retireAseq := none }) .channel c
  let s := postEvent s 0x0C 3 (ddrOrigin s c 0) (le 8 x.band ++ le 8 (bandColdSlots s) ++ le 1 (retiredChannels s))
  match x.retireAseq with
  | some a => finish s a { result := bandColdSlots s }
  | none => s

/-- EVACUATION_COPY (R508 steps 3 and 4, R509): the next granule of a retiring channel is copied and redirected; one that
was uncorrectable is poisoned at its copy. -/
def execEvacuationCopy (ch : Fin 32) (r : ReadOutcome) (s : State) : Host.Outcome State Fault Refusal :=
  let c := ch.val
  let x := ddrCh s c
  if x.st ≠ .evacuating then .next s
  else
    let last := granuleCount s
    let g := nextGranule s c x.evacuated
    if last ≤ g then .next (finishRetire s c)
    else
      let a := ddrGranule c g
      let s := ddrCommands (ddrRead s a 256 r 4) a 256
      let s := if r = .uncorrectable then s.withDdr { s.ddr with poison := poisonSet s.ddr.poison a 256 } else s
      let s := setDdrCh s c { ddrCh s c with evacuated := g + 1 }
      .next (if last ≤ nextGranule s c (g + 1) then finishRetire s c else s)

/-! Faults (R503). -/

/-- A channel faults: cause 0 corrected errors, 1 training; with AUTO_RETIRE its retirement starts unless it is refused
(R503, R507). -/
def channelFault (s : State) (c cause : Nat) : State :=
  let s := postEvent s 0x0C 2 (ddrOrigin s c 0) (le 1 cause ++ le 8 (ddrCh s c).lastWindow)
  if regField s .ddrCfg 0 4 1 = 1 ∧ retireRefusal s c = none then beginRetire s c none else s

/-- DDR_CE_WINDOW_END (R503): the third window in a row with more corrected errors than CH_CE_LIMIT is a channel fault. -/
def execDdrCeWindowEnd (ch : Fin 32) (s : State) : Host.Outcome State Fault Refusal :=
  let c := ch.val
  let x := ddrCh s c
  let overs := if regField s .ddrCfg 0 16 16 < x.window then x.overs + 1 else 0
  let s := setDdrCh s c { x with lastWindow := x.window, window := 0, overs := if overs = 3 then 0 else overs }
  if overs = 3 ∧ (x.st = .inService ∨ x.st = .retraining) then .next (channelFault s c 0) else .next s

/-! Retraining (R506). -/

/-- Some channel is being retrained. -/
def retraining (s : State) : Bool := s.ddr.ch.any (fun e => e.2.st == .retraining)

/-- A full retraining of a channel in service begins, unless another one runs. -/
def beginTraining (s : State) (c : Nat) : State :=
  let x := ddrCh s c
  if x.st = .inService ∧ retraining s = false then
    setDdrCh s c { x with st := .retraining, step := 0, failed := 0, due := false }
  else setDdrCh s c { x with due := x.st == .inService }

/-- RETRAIN_STEP (R506, R503): a step is done, or has failed with `ok` false; a step of a channel in service begins its
retraining in the rotation.  After 16 steps the retraining is complete, and a step that fails twice in a row is a channel
fault. -/
def execRetrainStep (ch : Fin 32) (ok : Bool) (s : State) : Host.Outcome State Fault Refusal :=
  let c := ch.val
  let s := if (ddrCh s c).st = .inService ∧ ((ddrCh s c).due = true ∨ regField s .ddrTrainCfg 0 0 16 ≠ 0) then beginTraining s c
    else s
  let x := ddrCh s c
  if x.st ≠ .retraining then .next s
  else if ok then
    if x.step = 15 then
      let s := setDdrCh s c { x with st := .inService, step := 0, failed := 0, trainedAt := timeNs s, trainAseq := none }
      match x.trainAseq with
      | some a => .next (finish s a {})
      | none => .next s
    else .next (setDdrCh s c { x with step := x.step + 1, failed := 0 })
  else if x.failed = 1 then
    .next (channelFault (abandonTraining (setDdrCh s c { x with st := .inService }) c) c 1)
  else .next (setDdrCh s c { x with failed := 1 })

/-- DRIFT_REPORT (R506): a drift beyond the limit starts a full retraining at once. -/
def execDriftReport (ch : Fin 32) (s : State) : Host.Outcome State Fault Refusal := .next (beginTraining s ch.val)

/-! Rows and refresh (R499, R501). -/

/-- The row of a bank is closed. -/
def closeRow (s : State) (ch sub bank : Nat) : State :=
  s.withDdr { s.ddr with rows := setAt none s.ddr.rows (65536 * (ch * 2 + sub) + bank) none }

/-- ROW_IDLE_CLOSE (R501). -/
def execRowIdleClose (ch : Fin 32) (sub : Fin 2) (bank : BitVec 16) (s : State) : Host.Outcome State Fault Refusal :=
  .next (closeRow s ch.val sub.val bank.toNat)

/-- REFRESH_DUE (R499): the refresh of a bank at the postponement limit goes before all requests; it finds the bank closed
and leaves it so. -/
def execRefreshDue (ch : Fin 32) (sub : Fin 2) (bank : BitVec 16) (s : State) : Host.Outcome State Fault Refusal :=
  .next (closeRow s ch.val sub.val bank.toNat)

/-! Commands (R511). -/

/-- The state of a channel as DDR_STATUS codes it: in service, retraining, self-refresh, evacuating, retired; an untrained
one reads as retired. -/
def ddrCode (s : State) (c : Nat) : Nat :=
  match (ddrCh s c).st with
  | .inService => if (blkAt s .channel c).st = .selfRefresh then 2 else 0
  | .retraining => 1
  | .evacuating => 3
  | .retired => 4
  | .untrained => 4

/-- DDR_STATUS (R511). -/
def execDdrStatus (c : Cmd) (ch : BitVec 16) (s : State) : Host.Outcome State Fault Refusal :=
  runCommand c 0x0C03 (fun _ s =>
    let n := ch.toNat
    if 32 ≤ n then .done (err 2) s
    else
      match sampleCounters s 15 n (List.range 5) with
      | (s, vs) => .done { block := le 1 (ddrCode s n) ++ vs.flatMap (le 8) ++ le 8 (ddrCh s n).trainedAt } s) s

/-- DDR_RETRAIN (R506, R511): it waits while another channel is retrained, and completes with the last step. -/
def execDdrRetrain (c : Cmd) (ch : BitVec 16) (s : State) : Host.Outcome State Fault Refusal :=
  runCommand c 0x0C04 (fun aseq s =>
    let n := ch.toNat
    let x := ddrCh s n
    if 32 ≤ n then .done (err 2) s
    else if x.st ≠ .inService ∧ x.st ≠ .retraining then .done (err 5) s
    else if (x.st = .inService ∧ retraining s = true) ∨ x.trainAseq.isSome then .wait
    else
      let s := beginTraining s n
      .later (setDdrCh s n { ddrCh s n with trainAseq := some aseq })) s

/-- DDR_RETIRE (R507, R508, R511). -/
def execDdrRetire (c : Cmd) (ch : BitVec 16) (s : State) : Host.Outcome State Fault Refusal :=
  runCommand c 0x0C05 (fun aseq s =>
    let n := ch.toNat
    if 32 ≤ n then .done (err 2) s
    else match retireRefusal s n with
      | some r => .done r s
      | none => .later (beginRetire s n (some aseq))) s

end Sys2Proof.Machine
end

