-- ==== Sys2Proof/Machine/EngCmds.lean ====
section
/-! DEFINITION. The commands of engines, scheduler and debugger (R350, R352-R356). -/

namespace Sys2Proof.Machine

/-- A command on a logical engine: no such engine is an operand error, one that is not mapped is in the wrong state
(R356). -/
def onEngine (s : State) (en : BitVec 16) (f : Nat → Effect) : Effect :=
  if 128 ≤ en.toNat then .done (err 2) s
  else if (physOf s en.toNat).isNone then .done (err 5) s
  else f en.toNat

/-- A command on one thread of a logical engine. -/
def onThread (s : State) (en : BitVec 16) (t : BitVec 8) (f : Nat → Nat → Effect) : Effect :=
  if 8 ≤ t.toNat then .done (err 2) s else onEngine s en (fun n => f n t.toNat)

/-- Every thread of an engine is IDLE. -/
def allIdle (s : State) (n : Nat) : Bool := (List.range 8).all (fun t => (threadAt s n t).st == .idle)

/-- An engine is drained: its data memory holds what its image holds, and no more what its programs kept there (R328). -/
def drainEngine (s : State) (n : Nat) : State :=
  loadImage (setEng s n { engAt s n with drained := true, draining := none }) n

/-- ENG_DRAIN. -/
def execEngDrain (c : Cmd) (en : BitVec 16) (s : State) : Host.Outcome State Fault Refusal :=
  runCommand c 0x0801 (fun aseq s => onEngine s en (fun n =>
    let e := engAt s n
    if engDrained e || e.draining.isSome then .done (err 5) s
    else if allIdle s n then .done {} (drainEngine s n)
    else .later (setEng s n { e with draining := some aseq }))) s

/-- A draining engine whose last thread is IDLE is drained (R356). -/
def engineDrained (s : State) (n : Nat) : State :=
  let e := engAt s n
  match e.draining with
  | some a => if allIdle s n then finish (drainEngine s n) a {} else s
  | none => s

/-- ENG_RESUME: an engine without an image has nothing to run. -/
def execEngResume (c : Cmd) (en : BitVec 16) (s : State) : Host.Outcome State Fault Refusal :=
  runCommand c 0x0803 (fun _ s => onEngine s en (fun n =>
    let e := engAt s n
    if !e.drained || e.image.isNone then .done (err 5) s
    else .done {} (setEng s n { e with drained := false }))) s

/-- The version of the image that an engine runs, 0 for none. -/
def imageVersion (s : State) (e : Engine) : Nat :=
  match e.image with
  | some i => match getAt none s.img.store i with
    | some g => g.info.version
    | none => 0
  | none => 0

/-- The kind of the task that a thread serves, 0 for none. -/
def servedKind (s : State) (x : Thread) : Nat :=
  match x.task with
  | some id => match taskAt s id with
    | some t => taskKind t
    | none => 0
  | none => 0

/-- ENG_STATUS: mapping, image version, and each thread's state, task kind, program counter and locks (log 19). -/
def execEngStatus (c : Cmd) (en : BitVec 16) (s : State) : Host.Outcome State Fault Refusal :=
  runCommand c 0x0804 (fun _ s => onEngine s en (fun n =>
    let p := lastPhys s n
    let block := le 1 (p / 8) ++ le 1 (p % 8) ++ le 1 (flag (physOf s n).isSome) ++ le 4 (imageVersion s (engAt s n)) ++
      (List.range 8).flatMap (fun t =>
        let x := threadAt s n t
        le 1 (threadCode x.st) ++ le 1 (servedKind s x) ++ le 4 x.pc ++ locksHeld x)
    .done { block := block } s)) s

/-! The figures of R350. -/

/-- The depth of a ready list of a logical cluster. -/
def readyDepth (s : State) (c l : Nat) : Nat := (readyIn s (bits (regVal s .clusterMap c) 0 5) l).length

/-- The depth of a slice's setup lane toward a logical cluster. -/
def laneDepth (s : State) (c n : Nat) : Nat :=
  (sliceAt s n).setupQ.countP (fun id => match taskAt s id with
    | some t => t.cluster == c
    | none => false)

/-- Matching-store occupancy: entries of data tasks, and of the others. -/
def storeOccupancy (s : State) (c : Nat) : Nat × Nat :=
  let u := storeUsed s (bits (regVal s .clusterMap c) 0 5)
  (u.2, u.1 - u.2)

/-- The atomic groups with tasks that wait for the group. -/
def waitingGroups (s : State) (c : Nat) : Nat :=
  let p := bits (regVal s .clusterMap c) 0 5
  (((clAt s p).tasks.filterMap (fun id => match taskAt s id with
    | some t => if taskMode t == 2 && t.st == .waiting && !(groupBefore s p id t).isEmpty then some (taskGroup t) else none
    | none => none)).eraseDups).length

/-- SCHED_STATUS. -/
def execSchedStatus (c : Cmd) (cl : BitVec 8) (s : State) : Host.Outcome State Fault Refusal :=
  runCommand c 0x0805 (fun _ s =>
    let k := cl.toNat
    if 16 ≤ k then .done (err 2) s
    else
      let block := (List.range 4).flatMap (fun l => le 8 (readyDepth s k l)) ++
        (List.range 17).flatMap (fun n => le 8 (laneDepth s k n)) ++
        le 8 (storeOccupancy s k).1 ++ le 8 (storeOccupancy s k).2 ++ le 8 (waitingGroups s k) ++
        (upFrom 24 16).flatMap (fun i => le 8 (counter s 9 k i)) ++
        (clusterEngines k).flatMap (fun n => le 8 (counter s 8 n 0) ++ le 8 (counter s 8 n 1)) ++
        (upFrom 40 5).flatMap (fun i => le 8 (counter s 9 k i))
      .done { block := block } s) s

/-! The debugger (R352-R354). -/

/-- Changes the threads of an engine that a mask names. -/
def modThreads (s : State) (n mask : Nat) (f : Thread → Thread) : State :=
  ((List.range 8).filter (bit mask)).foldl (fun s t => setThread s n t (f (threadAt s n t))) s

/-- DBG_HALT: the halts take effect at the threads' instruction boundaries (R352). -/
def execDbgHalt (c : Cmd) (en : BitVec 16) (mask : BitVec 8) (s : State) : Host.Outcome State Fault Refusal :=
  runCommand c 0x0806 (fun _ s => onEngine s en (fun n =>
    .done {} (modThreads s n mask.toNat (fun x => if x.st = .halted then x else { x with haltReq := true })))) s

/-- DBG_STEP: a halted thread issues one instruction; one that is blocked halts again when it completes. -/
def execDbgStep (c : Cmd) (en : BitVec 16) (t : BitVec 8) (s : State) : Host.Outcome State Fault Refusal :=
  runCommand c 0x0807 (fun _ s => onThread s en t (fun n t =>
    let x := threadAt s n t
    if x.st ≠ .halted ∨ x.resume = .idle ∨ x.resume = .halted then .done (err 5) s
    else if x.resume = .ready then .done {} (setThread s n t { x with st := .ready, stepping := true, broke := false })
    else .done {} (setThread s n t { x with st := x.resume, haltReq := true, broke := false }))) s

/-- DBG_RESUME: without a halted thread in the mask the engine is in the wrong state. -/
def execDbgResume (c : Cmd) (en : BitVec 16) (mask : BitVec 8) (s : State) : Host.Outcome State Fault Refusal :=
  runCommand c 0x0808 (fun _ s => onEngine s en (fun n =>
    if ((List.range 8).filter (bit mask.toNat)).any (fun t => (threadAt s n t).st == .halted) then
      .done {} (modThreads s n mask.toNat (fun x =>
        if x.st = .halted then { x with st := x.resume, broke := false } else x))
    else .done (err 5) s)) s

/-- The range of a debugger command: kind 0 registers by number, 1 data memory by address (log 19); it exists. -/
def dbgRange (kind start len : Nat) : Bool :=
  if kind = 0 then decide (start + len ≤ 32) else if kind = 1 then inRange start len else false
where
  /-- Bytes of data memory. -/
  inRange (a n : Nat) : Bool := decide (a + n ≤ 0x30000)

/-- DBG_READ: the values, the staged words and the channel status; a block beyond 4 KiB is an operand error (R451). -/
def execDbgRead (c : Cmd) (en : BitVec 16) (t kind : BitVec 8) (start len : BitVec 32) (addr : BitVec 64) (s : State) :
    Host.Outcome State Fault Refusal :=
  runCommand c 0x0809 (fun _ s => onThread s en t (fun n t =>
    let x := threadAt s n t
    if !dbgRange kind.toNat start.toNat len.toNat then .done (err 2) s
    else
      let vals := if kind = 0 then (upFrom start.toNat len.toNat).flatMap (fun r => le 8 (regOf x r))
        else Memory.readN (engAt s n).dmem start.toNat len.toNat
      let block := vals ++ x.staged.flatMap (fun w => le 8 w.toNat) ++ le 2 x.chs
      if 4096 < block.length then .done (err 2) s else .done { block := block, addr := some addr.toNat } s)) s

/-- Registers from one on take the words of some bytes. -/
def putRegs (x : Thread) (r : Nat) (data : Bytes) : Nat → Thread
  | 0 => x
  | k + 1 => putRegs (x.put r (leVal (data.take 8))) (r + 1) (data.drop 8) k

/-- DBG_WRITE: registers of a halted thread, or data memory of its engine. -/
def execDbgWrite (c : Cmd) (en : BitVec 16) (t kind : BitVec 8) (start : BitVec 32) (data : Bytes) (s : State) :
    Host.Outcome State Fault Refusal :=
  runCommand c 0x080A (fun _ s => onThread s en t (fun n t =>
    let x := threadAt s n t
    let len := if kind = 0 then data.length / 8 else data.length
    if !dbgRange kind.toNat start.toNat len then .done (err 2) s
    else if x.st ≠ .halted then .done (err 5) s
    else if kind = 0 then .done {} (setThread s n t (putRegs x start.toNat data len))
    else .done {} (writeDmem s n start.toNat data))) s

/-- DBG_LOCK_RELEASE (R354): of a lock whose holder is halted. -/
def execDbgLockRelease (c : Cmd) (cl lock : BitVec 8) (s : State) : Host.Outcome State Fault Refusal :=
  runCommand c 0x080B (fun _ s =>
    if 16 ≤ cl.toNat then .done (err 2) s
    else match clusterPhys s cl.toNat with
      | none => .done (err 5) s
      | some p =>
        match (lockAt s p lock.toNat).holder with
        | none => .done (err 5) s
        | some w =>
          let x := wThread s w
          if x.st ≠ .halted then .done (err 5) s
          else
            let s := setThread s (w / 8) (w % 8) { x with locks := x.locks.filter (· != lock.toNat) }
            .done {} (releaseLock s p lock.toNat true)) s

/-- DBG_ABORT (R345, R356): the task of a halted thread ends as a fault with code DEBUG_ABORT. -/
def execDbgAbort (c : Cmd) (en : BitVec 16) (t : BitVec 8) (s : State) : Host.Outcome State Fault Refusal :=
  runCommand c 0x080C (fun _ s => onThread s en t (fun n t =>
    let x := threadAt s n t
    if x.st ≠ .halted ∨ x.task.isNone then .done (err 5) s else .done {} (faultThread s n t 14))) s

end Sys2Proof.Machine
end

