-- ==== Sys2Proof/Machine/Owner.lean ====
section
/-! DEFINITION. Ownership: bids, election, lease, grant and the handover (R469-R476), and the losses of
a master's path (R436, R472). -/

namespace Sys2Proof.Machine

/-- LEASE_MS as it acts: 1 to 1,000 (R470). -/
def leaseMs (s : State) : Nat := max 1 (min 1000 (regField s .ownLeaseCfg 0 0 10))

/-- The cycle at which a lease that starts now ends: 1,500,000 cycles for each ms. -/
def leaseFrom (s : State) : Nat := s.clk.cc + 1500000 * leaseMs s

/-- A master's standing bid. -/
def bidOf (s : State) (m : Nat) : Option Bid := s.own.bids.find? (fun b => b.master == m)

/-- The value of a master's bank of OWN_BID. -/
def bankBid (s : State) (m : Nat) : Nat := (getAt 0 s.regs.bankBid m).toNat

/-- Writes a master's bank of OWN_BID. -/
def setBankBid (s : State) (m v : Nat) : State :=
  s.withRegs { s.regs with bankBid := setAt 0 s.regs.bankBid m (BitVec.ofNat 32 v) }

/-- Withdraws a master's standing bid; BID of its bank reads 0 (R470). -/
def withdrawBid (s : State) (m : Nat) : State :=
  let s := s.withOwn { s.own with bids := s.own.bids.filter (fun b => b.master != m) }
  setBankBid s m (putBits (bankBid s m) 4 1 0)

/-- A master number in an event body, 0xFF for none (R474). -/
def ownerCode : Option Nat → Nat
  | some m => m
  | none => 0xFF

/-- The handover cycle (R474): FENCE_SEQ takes the last ASEQ, the former owner's bid is withdrawn
(R472, R473), the new owner has a lease of LEASE_MS, and owner-changed is posted. -/
def changeOwner (s : State) (new : Option Nat) (cause : Nat) : State :=
  let former := s.own.owner
  let prio := match new with
    | some m => match bidOf s m with
      | some b => b.prio
      | none => 0
    | none => 0
  let s := match former with
    | some f => withdrawBid s f
    | none => s
  let s := s.withOwn { s.own with
    owner := new, ownerPrio := prio, fenceSeq := s.host.lastAseq
    leaseEnd := if new.isSome then leaseFrom s else 0 }
  postEvent s 0x0B 1 (origin s 31 0 0 0)
    (le 1 (ownerCode new) ++ le 1 (ownerCode former) ++ le 1 cause ++ le 4 s.host.lastAseq)

/-- A vacancy that finds standing bids opens a bid window (R471). -/
def vacancy (s : State) (cause : Nat) : State :=
  let s := changeOwner s none cause
  if s.own.bids.isEmpty then s else s.withOwn { s.own with window := true }

/-- The path of a master is lost: if it is the owner, a vacancy arises (R472). -/
def pathLoss (s : State) (m : Nat) : State :=
  if s.own.owner = some m then vacancy s 5 else s

/-- Counts a write of ones to bits that no field of a register names (R15). -/
def countReservedBits (s : State) (m : Nat) (r : Reg) (v : Nat) : State :=
  if v &&& r.named = v then s else countReserved s m 1

/-- A write of OWN_BID by a master (R470, R471): BID 1 records a standing bid, and without an owner or
a window opens one; BID 0 withdraws it. -/
def writeOwnBid (s : State) (m v : Nat) : State :=
  let s := setBankBid (countReservedBits s m .ownBid v) m (v % 32)
  if bit v 4 then
    let bid : Bid :=
      { master := m, prio := v % 16, nonce := (getAt 0 s.regs.bankNonce m).toNat }
    let bids := s.own.bids.filter (fun b => b.master != m) ++ [bid]
    s.withOwn { s.own with bids := bids, window := s.own.window || s.own.owner.isNone }
  else s.withOwn { s.own with bids := s.own.bids.filter (fun b => b.master != m) }

/-- A write of OWN_NONCE by a master (R470). -/
def writeOwnNonce (s : State) (m v : Nat) : State :=
  s.withRegs { s.regs with bankNonce := setAt 0 s.regs.bankNonce m (BitVec.ofNat 32 v) }

/-- A write of OWN_CTRL by a master (R469, R470, R472, R473): RENEW restarts the lease; GRANT comes
before RELEASE, and a grant that names the owner or a master without a standing bid changes nothing
and is counted. -/
def writeOwnCtrl (s : State) (m v : Nat) : State :=
  if s.own.owner ≠ some m then nonOwner s m (some (Reg.off .ownCtrl 0))
  else
    let s := countReservedBits s m .ownCtrl v
    let s := if bit v 0 then s.withOwn { s.own with leaseEnd := leaseFrom s } else s
    let target := bits v 3 2
    if bit v 2 then
      if target ≠ m ∧ (bidOf s target).isSome then changeOwner s (some target) 2
      else countNonOwner s m
    else if bit v 1 then vacancy s 4
    else s

/-- A bid is better: higher PRIO, then higher NONCE, then the lower master number (R471). -/
def betterBid (a b : Bid) : Bool :=
  decide (b.prio < a.prio) || (a.prio == b.prio && (decide (b.nonce < a.nonce) ||
    (a.nonce == b.nonce && decide (a.master < b.master))))

/-- The best of the standing bids (R471). -/
def bestBid : List Bid → Option Bid
  | [] => none
  | b :: bs => match bestBid bs with
    | some c => if betterBid b c then some b else some c
    | none => some b

/-- BID_RECORD (R470). -/
def execBidRecord (m : Master) (v : BitVec 32) (s : State) : Host.Outcome State Fault Refusal :=
  .next (regAccess s m.val (Reg.off .ownBid 0) (fun s => writeOwnBid s m.val (v ||| 0x10).toNat))

/-- BID_WITHDRAW (R470). -/
def execBidWithdraw (m : Master) (v : BitVec 32) (s : State) : Host.Outcome State Fault Refusal :=
  .next (regAccess s m.val (Reg.off .ownBid 0)
    (fun s => writeOwnBid s m.val (v &&& 0xffffffef).toNat))

/-- RENEW (R472). -/
def execRenew (m : Master) (v : BitVec 32) (s : State) : Host.Outcome State Fault Refusal :=
  .next (regAccess s m.val (Reg.off .ownCtrl 0) (fun s => writeOwnCtrl s m.val (v ||| 1).toNat))

/-- RELEASE (R472). -/
def execRelease (m : Master) (v : BitVec 32) (s : State) : Host.Outcome State Fault Refusal :=
  .next (regAccess s m.val (Reg.off .ownCtrl 0) (fun s => writeOwnCtrl s m.val (v ||| 2).toNat))

/-- GRANT (R473). -/
def execGrant (m : Master) (v : BitVec 32) (s : State) : Host.Outcome State Fault Refusal :=
  .next (regAccess s m.val (Reg.off .ownCtrl 0) (fun s => writeOwnCtrl s m.val (v ||| 4).toNat))

/-- BID_WINDOW_CLOSE (R471): the best standing bid wins; without one there is no owner. -/
def execBidWindowClose (s : State) : Host.Outcome State Fault Refusal :=
  if s.own.window = false then .next s
  else
    let s := s.withOwn { s.own with window := false }
    match s.own.owner, bestBid s.own.bids with
    | none, some b => .next (changeOwner s (some b.master) 1)
    | _, _ => .next s

/-- LEASE_EXPIRE (R472): lease-expired is posted and a vacancy arises. -/
def execLeaseExpire (s : State) : Host.Outcome State Fault Refusal :=
  match s.own.owner with
  | some m =>
    .next (vacancy (postEvent s 0x0B 2 (origin s 31 0 0 0) (le 1 m ++ le 2 (leaseMs s))) 3)
  | none => .next s

/-- Clears ENABLE of every ring of a host port, page by page from the highest (R436). -/
def resetRings (s : State) (h cause : Nat) : Nat → State
  | 0 => s
  | n + 1 =>
    let s := if ringEnabled s h n then
        disableRing (setRegField s .ringCfg (ringNo h n) 4 1 0) h n cause
      else s
    resetRings s h cause n

/-- The body of host-link-down and host-link-up (R476). -/
def linkBody (l : HostLink) : Bytes := le 8 l.rate ++ le 1 l.width ++ le 1 l.cause

/-- The origin code of a host port's PCIe link (R8). -/
def linkOrigin (s : State) (h : Nat) : Nat := origin s (17 + h) 0x7F 0 0

/-- HOST_PORT_RESET (R436): cause 1 link loss, 2 hot reset, 3 Function Level Reset. -/
def execHostPortReset (host : HostNo) (cause : Fin 4) (s : State) : Host.Outcome State Fault Refusal :=
  if hostPresent s host.val = false ∨ cause.val = 0 then .next s
  else
    let s := resetRings s host.val 7 184
    let l : HostLink := getAt {} s.host.links host.val
    let l := { l with up := false, cause := cause.val }
    let s := s.withHost { s.host with links := setAt {} s.host.links host.val l }
    .next (postEvent (pathLoss s host.val) 0x0B 4 (linkOrigin s host.val) (linkBody l))

/-- HOST_LINK_UP (R436): the link is in L0 again, or the function is ready again; host-link-up carries
the cause of the host-link-down that it ends. -/
def execHostLinkUp (host : HostNo) (rate width : BitVec 8) (s : State) :
    Host.Outcome State Fault Refusal :=
  if hostPresent s host.val = false then .next s
  else
    let l : HostLink := getAt {} s.host.links host.val
    let l := { l with up := true, rate := rate.toNat, width := width.toNat }
    let s := s.withHost { s.host with links := setAt {} s.host.links host.val { l with cause := 0 } }
    .next (if l.cause = 0 then s else postEvent s 0x0B 5 (linkOrigin s host.val) (linkBody l))

/-- I3C_BUS_RESET (R472): the management master's path is lost. -/
def execI3cBusReset (s : State) : Host.Outcome State Fault Refusal := .next (pathLoss s 2)

/-- What OWN_STATUS reads (R470): the lease left in units of 100 µs, rounded up. -/
def ownStatusView (s : State) : Nat :=
  match s.own.owner with
  | some m => m + 4 + 8 * flag s.own.window + 16 * s.own.ownerPrio + standing s.own.bids +
      65536 * max 1 ((s.own.leaseEnd - s.clk.cc + 149999) / 150000)
  | none => 8 * flag s.own.window + standing s.own.bids
where
  /-- STANDING: one bit for each master with a standing bid. -/
  standing (bs : List Bid) : Nat := bs.foldl (fun n b => n ||| 2 ^ (8 + b.master)) 0

end Sys2Proof.Machine
end

