-- ==== Sys2Proof/Machine/Dma.lean ====
section
/-! DEFINITION. The DMA channels (R477-R494) and their commands (R511). -/

namespace Sys2Proof.Machine

/-- A DMA channel. -/
def dmaAt (s : State) (n : Nat) : DmaCh := getAt {} s.dma.ch n

/-- Writes a DMA channel. -/
def setDma (s : State) (n : Nat) (x : DmaCh) : State := s.withDma { s.dma with ch := setAt {} s.dma.ch n x }

/-- ENABLE of a channel. -/
def dmaEnabled (s : State) (n : Nat) : Bool := regField s .dmaChCfg n 0 1 == 1

/-! Fields of the descriptor in progress (R480). -/

/-- The operation: 1 COPY, 2 FILL, 3 COMPARE. -/
def DmaCh.op (x : DmaCh) : Nat := (byteAt x.desc 0).toNat
/-- The source space. -/
def DmaCh.srcSpace (x : DmaCh) : Nat := (byteAt x.desc 2).toNat
/-- The destination space. -/
def DmaCh.dstSpace (x : DmaCh) : Nat := (byteAt x.desc 3).toNat
/-- The length in bytes. -/
def DmaCh.len (x : DmaCh) : Nat := leAt x.desc 4 4
/-- The chain word. -/
def DmaCh.word (x : DmaCh) : Nat := leAt x.desc 16 8
/-- The source address, or the constant of a FILL. -/
def DmaCh.src (x : DmaCh) : Nat := leAt x.desc 24 8
/-- The destination address. -/
def DmaCh.dst (x : DmaCh) : Nat := leAt x.desc 32 8

/-! Consumption and the chain (R481-R483, R454-R456). -/

/-- The descriptor in progress is consumed: status word, consumed count and interrupt, in that order (R481, R483). -/
def dmaConsume (s : State) (n status cause count : Nat) : State :=
  let x := dmaAt s n
  let h := regField s .dmaChCfg n 3 1
  let s := hostWrite s h (x.chain + 56) (le 8 (status + 256 * cause + 2 ^ 32 * count))
  let used := (x.consumed + 1) % 2 ^ 32
  let wb := regVal s .dmaChWb n
  let s := if wb = 0 then s else hostWrite s h wb (le 4 used)
  let s := if bit (byteAt x.desc 1).toNat 0 then sendMsix s h (regField s .dmaChCfg n 4 8) else s
  setDma s n { x with consumed := used, last := status, bursts := [] }

/-- The channel stops with a cause, and dma-error is posted (R493, R512). -/
def dmaStop (s : State) (n cause count : Nat) : State :=
  let x := dmaAt s n
  let s := setDma s n { x with st := .stopped, error := cause, reading := false, bursts := [] }
  postEvent s 0x0C 1 (origin s 26 n 0 0) (le 1 cause ++ le 8 x.chain ++ le 8 count)

/-- The descriptor in progress ends with an error, and the channel stops (R493). -/
def dmaFail (s : State) (n cause count : Nat) : State := dmaStop (dmaConsume s n 3 cause count) n cause count

/-- The fetch of the descriptor at an address is issued: if it turns out to be a tail, the issue has cleared the pending
bit (R455). -/
def dmaFetch (s : State) (n addr : Nat) : State :=
  let x := dmaAt s n
  setDma s n { x with st := .fetching, chain := addr, tail := false, reading := false, before := x.pending, pending := false }

/-- A chain word leads on, or the channel waits at its tail, whose word is read again at once when the pending bit is
set (R454, R455); an address off its 64-B boundary stops the channel (R457). -/
def dmaFollow (s : State) (n word : Nat) : State :=
  let x := dmaAt s n
  if bit word 0 then
    if x.pending then setDma s n { x with st := .waiting, tail := true, reading := true, pending := false }
    else setDma s n { x with st := .waiting, tail := true, reading := false }
  else if bits word 1 5 ≠ 0 then dmaStop s n 2 0
  else dmaFetch s n (word / 64 * 64)

/-- The first offset at which a COMPARE has found a difference gives its result and count (R486). -/
def dmaCompared (x : DmaCh) : Nat × Nat :=
  match x.diff with
  | some i => (i, i + 1)
  | none => (2 ^ 64 - 1, x.len)

/-- The descriptor in progress ends DONE, and the chain goes on. -/
def dmaDone (s : State) (n : Nat) : State :=
  let x := dmaAt s n
  let s := if x.op = 3 ∧ x.len ≠ 0 then hostWrite s (regField s .dmaChCfg n 3 1) (x.chain + 40) (le 8 (dmaCompared x).1) else s
  dmaFollow (dmaConsume s n 1 0 (if x.op = 3 then (dmaCompared x).2 else x.len)) n x.word

/-- The descriptor ends once nothing of it is in flight: with the first error, or when all its bursts are done (R490,
R493). -/
def dmaCheckEnd (s : State) (n : Nat) : State :=
  let x := dmaAt s n
  if !x.bursts.isEmpty then s
  else if x.error ≠ 0 then dmaFail s n x.error x.failAt
  else if x.granted = x.len then dmaDone s n
  else s

/-! Starting a descriptor (R479, R483, R485). -/

/-- The tier-B record and directory regions in force: first address and length (R189, R479). -/
def tierBRegion (s : State) : Nat × Nat := (2 ^ 30 * s.fs.tbBase, 2 ^ 27 * 9 * s.fs.tbSize)

/-- A range of a space is a range error (R479). -/
def rangeError (s : State) (space a n : Nat) : Bool :=
  if space = 2 then
    overlaps a n (tierBRegion s).1 (tierBRegion s).2 || overlaps a n (policyRegion s).1 (policyRegion s).2 ||
      decide (2 ^ 30 * usableGib s < a + n)
  else if space = 3 then decide (2 ^ 24 < a + n)
  else false

/-- The operation or a space is reserved, or a COPY overlaps itself (R485, R492). -/
def badOp (x : DmaCh) : Bool :=
  x.op == 0 || decide (3 < x.op) || (x.op != 2 && decide (3 < x.srcSpace)) || decide (3 < x.dstSpace) ||
    (x.op == 1 && x.srcSpace == x.dstSpace && overlaps x.src x.len x.dst x.len)

/-- A descriptor has been read whole: it starts, or ends at once (R480, R483, R492). -/
def dmaStart (s : State) (n : Nat) (desc : Bytes) : State :=
  let x := dmaAt s n
  let x := { x with
    desc := cut desc 0 64, st := .running, granted := 0, nextBurst := 0, written := 0, bursts := [], error := 0, failAt := 0
    diff := none, pending := x.pending || (x.before && !bit (leAt desc 16 8) 0) }
  let s := setDma s n x
  if badOp x then dmaFail s n 2 0
  else if x.len = 0 then dmaDone s n
  else if (x.op != 2 && rangeError s x.srcSpace x.src x.len) || rangeError s x.dstSpace x.dst x.len then dmaFail s n 1 0
  else s

/-- A chain read of a DMA channel returns: a descriptor, or the word of its tail; a failed read stops the channel (R455,
R482). -/
def dmaChainReturn (s : State) (n word : Nat) (desc : Bytes) (ok : Bool) : State :=
  let x := dmaAt s n
  match x.st with
  | .fetching => if ok then dmaStart s n desc else dmaStop s n 3 0
  | .waiting =>
    if x.reading then (if ok then dmaFollow (setDma s n { x with reading := false }) n word else dmaStop s n 3 0) else s
  | _ => s

/-! Enable and disable (R482, R484, R491). -/

/-- Every destination byte of a dropped descriptor is open (R491; log 6); what a host memory then holds is outside the
model. -/
def dmaDropped (s : State) (x : DmaCh) : State :=
  if x.op = 3 ∨ x.dstSpace < 2 then s
  else match drawBytes s x.len with
    | (b, s) =>
      if x.dstSpace = 2 then s.withDdr { s.ddr with mem := Memory.writeN s.ddr.mem x.dst b }
      else s.withDma { s.dma with staging := Memory.writeN s.dma.staging x.dst b }

/-- A disable is sampled: bursts not yet written are dropped, and the descriptor in progress is consumed as DROPPED, or
with the error that it has met (R491, R494). -/
def dmaSample (s : State) (n : Nat) : State :=
  let x := dmaAt s n
  if !x.disable then s
  else
    let s := if x.st = .running then
        if x.error ≠ 0 then dmaFail s n x.error x.failAt
        else match draw s with
          | (v, s) => dmaConsume (dmaDropped s x) n 2 0 (v.toNat % 2 ^ 32)
      else s
    setDma s n { dmaAt s n with st := .idle, disable := false, reading := false, bursts := [] }

/-- ENABLE is set: the channel starts at the descriptor of DMA_CH_CHAIN (R482). -/
def dmaBegin (s : State) (n : Nat) : State :=
  let s := dmaSample s n
  let s := setDma s n { dmaAt s n with pending := true, consumed := 0, error := 0 }
  dmaFetch s n (regVal s .dmaChChain n)

/-- A write of DMA_CH_CFG by the owner: ENABLE starts the channel or asks for its disable (R482, R491). -/
def writeDmaCfg (s : State) (m n v : Nat) : State :=
  if s.own.owner ≠ some m then nonOwner s m (some (Reg.off .dmaChCfg n))
  else
    let was := dmaEnabled s n
    let s := setReg (countReservedBits s m .dmaChCfg v) .dmaChCfg n (v &&& Reg.named .dmaChCfg)
    if was = dmaEnabled s n then s
    else if was then setDma s n { dmaAt s n with disable := true }
    else dmaBegin s n

/-- DMA_ENABLE (R482). -/
def execDmaEnable (m : Master) (ch : Fin 32) (v : BitVec 32) (s : State) : Host.Outcome State Fault Refusal :=
  .next (regAccess s m.val (Reg.off .dmaChCfg ch.val) (fun s => writeDmaCfg s m.val ch.val (v ||| 1).toNat))

/-- DMA_DISABLE (R491). -/
def execDmaDisable (m : Master) (ch : Fin 32) (v : BitVec 32) (s : State) : Host.Outcome State Fault Refusal :=
  .next (regAccess s m.val (Reg.off .dmaChCfg ch.val) (fun s => writeDmaCfg s m.val ch.val (v &&& 0xfffffffe).toNat))

/-- DMA_DISABLE_SAMPLE (R491): a burst boundary of a channel. -/
def execDmaDisableSample (ch : Fin 32) (s : State) : Host.Outcome State Fault Refusal := .next (dmaSample s ch.val)

/-! Bursts (R487-R490, R493). -/

/-- A channel has a burst ready. -/
def burstReady (s : State) (n : Nat) : Bool :=
  let x := dmaAt s n
  x.st == .running && !x.disable && x.error == 0 && decide (x.granted < x.len)

/-- The priority level of a channel. -/
def dmaPrio (s : State) (n : Nat) : Nat := regField s .dmaChCfg n 1 2

/-- The level of each of the 15 grants of a cycle, the grants of a level spread evenly (R489). -/
def grantLevels : List Nat := [3, 2, 3, 1, 3, 2, 3, 0, 3, 2, 3, 1, 3, 2, 3]

/-- The channel of a level that is served next: those with a burst ready, in rotating order (R489). -/
def levelChannel (s : State) (l : Nat) : Option Nat :=
  let after := getAt 31 s.dma.served l + 1
  ((upFrom after 32).map (· % 32)).find? (fun n => dmaPrio s n == l && burstReady s n)

/-- The channel that the next grant serves: of its level, else of the highest other level that has one (R489). -/
def grantChannel (s : State) : Option (Nat × Nat) :=
  let l := grantLevels.getD s.dma.slot 0
  (l :: [3, 2, 1, 0]).findSome? (fun k => (levelChannel s k).map (fun n => (k, n)))

/-- The bursts in flight. -/
def burstsInFlight (s : State) : Nat := (s.dma.ch.map (fun e => e.2.bursts.length)).foldl (· + ·) 0

/-- The length of a channel's next burst: at most 512 B, and up to a 512-B boundary of the destination, or of the source of
a COMPARE (R488). -/
def burstLen (x : DmaCh) : Nat :=
  let a := (if x.op = 3 then x.src else x.dst) + x.granted
  min (512 - a % 512) (x.len - x.granted)

/-- DMA_BURST_GRANT (R488, R489): the next grant of the cycle. -/
def execDmaBurstGrant (s : State) : Host.Outcome State Fault Refusal :=
  if 256 ≤ burstsInFlight s then .next s
  else match grantChannel s with
    | none => .next s
    | some (l, n) =>
      let x := dmaAt s n
      let b : Burst := { idx := x.nextBurst, off := x.granted, len := burstLen x }
      let s := s.withDma { s.dma with slot := (s.dma.slot + 1) % 15, served := setAt 31 s.dma.served l n }
      .next (setDma s n { x with bursts := x.bursts ++ [b], nextBurst := x.nextBurst + 1, granted := x.granted + b.len })

/-- The read of a burst's part of a range: the data, and the cause of an error or 0.  Host data is `host`; `ok` is false
for a failed host read, `poison` is a poisoned TLP; `r` is how a read of memory ended (R487, R492). -/
def dmaRead (s : State) (space a len : Nat) (host : Bytes) (ok poison : Bool) (r : ReadOutcome) : State × Bytes × Nat :=
  if space < 2 then (s, cut host 0 len, if !ok then 3 else if poison then 4 else 0)
  else if space = 2 then
    let lo := a / 64 * 64
    let n := (a + len + 63) / 64 * 64 - lo
    (ddrRead s lo n r 5, Memory.readN s.ddr.mem a len,
      if r = .uncorrectable then 3 else if poisonedIn s.ddr.poison lo n then 4 else 0)
  else (s, Memory.readN s.dma.staging a len,
    if r = .uncorrectable then 3 else if poisonedIn s.ddr.stagingPoison (a / 64 * 64) ((a + len + 63) / 64 * 64 - a / 64 * 64) then 4
    else 0)

/-- The bytes of a FILL from a destination address on (R485). -/
def fillBytes (c a n : Nat) : Bytes := (upFrom a n).map (fun i => byteAt (le 8 c) (i % 8))

/-- The first offset at which two strings of some length differ. -/
def firstDiff (a b : Bytes) (n : Nat) : Option Nat := (List.range n).find? (fun i => byteAt a i != byteAt b i)

/-- The first failing burst gives the descriptor its cause and count (R493). -/
def dmaError (x : DmaCh) (cause off : Nat) : DmaCh :=
  if x.error ≠ 0 ∧ x.failAt ≤ off then x else { x with error := cause, failAt := off }

/-- A burst of a channel changed. -/
def modBurst (x : DmaCh) (i : Nat) (f : Burst → Burst) : DmaCh :=
  { x with bursts := x.bursts.map (fun b => if b.idx = i then f b else b) }

/-- A burst of a channel done. -/
def endBurst (x : DmaCh) (i : Nat) : DmaCh := { x with bursts := x.bursts.filter (fun b => b.idx != i) }

/-- DMA_READ_DATA (R488, R493): a burst's data is back; its write is issued, poisoned after an error, and a COMPARE looks
for its first difference.  `src` and `dst` are what host memories hold. -/
def execDmaReadData (ch : Fin 32) (burst : Nat) (src dst : Bytes) (ok poison : Bool) (r r2 : ReadOutcome) (s : State) :
    Host.Outcome State Fault Refusal :=
  let n := ch.val
  let x := dmaAt s n
  match x.bursts.find? (fun b => b.idx == burst && b.data.isNone) with
  | none => .next s
  | some b =>
    if x.op = 2 then
      .next (setDma s n (modBurst x burst (fun b => { b with data := some (fillBytes x.src (x.dst + b.off) b.len) })))
    else match dmaRead s x.srcSpace (x.src + b.off) b.len src ok poison r with
      | (s, d, c) =>
        if x.op = 1 then
          let x := if c = 0 then x else dmaError x c b.off
          .next (setDma s n (modBurst x burst (fun b => { b with data := some d, bad := c != 0 })))
        else match dmaRead s x.dstSpace (x.dst + b.off) b.len dst ok poison r2 with
          | (s, e, c2) =>
            let c := if c = 0 then c2 else c
            let x := if c ≠ 0 then dmaError x c b.off
              else match firstDiff d e b.len with
                | some i => { x with diff := some (min (b.off + i) (x.diff.getD (b.off + i))) }
                | none => x
            .next (dmaCheckEnd (setDma s n (endBurst { x with written := x.written + b.len } burst)) n)

/-- A burst's write lands at its destination (R487, R493, R502). -/
def dmaLand (s : State) (n space a len : Nat) (d : Bytes) (bad : Bool) : State :=
  let s := countPmc s { code := 0x10, block := 26, unit := some n, addr := some a } len
  if space < 2 then (if bad then emit s (.hostPoison space a len) else hostWrite s space a d)
  else if space = 2 then
    let lo := a / 64 * 64
    let s := ddrCommandsBy s 1 lo ((a + len + 63) / 64 * 64 - lo)
    if bad then s.withDdr { s.ddr with poison := poisonSet s.ddr.poison a len }
    else s.withDdr { s.ddr with mem := Memory.writeN s.ddr.mem a d, poison := poisonClear s.ddr.poison a len }
  else if bad then s.withDdr { s.ddr with stagingPoison := poisonSet s.ddr.stagingPoison a len }
  else (s.withDma { s.dma with staging := Memory.writeN s.dma.staging a d }).withDdr { s.ddr with
    stagingPoison := poisonClear s.ddr.stagingPoison a len }

/-- DMA_WRITE_RESPONSE (R490, R493): a burst's write has landed, or has failed with `ok` false. -/
def execDmaWriteResponse (ch : Fin 32) (burst : Nat) (ok : Bool) (s : State) : Host.Outcome State Fault Refusal :=
  let n := ch.val
  let x := dmaAt s n
  match x.bursts.find? (fun b => b.idx == burst) with
  | none => .next s
  | some b =>
    match b.data with
    | none => .next s
    | some d =>
      if ok then
        let s := dmaLand s n x.dstSpace (x.dst + b.off) b.len d b.bad
        .next (dmaCheckEnd (setDma s n (endBurst { x with written := x.written + b.len } burst)) n)
      else .next (dmaCheckEnd (setDma s n (endBurst (dmaError x 5 b.off) burst)) n)

/-! Status and commands (R510, R511). -/

/-- What DMA_CH_STATUS reads (R510). -/
def dmaStatusView (s : State) (n : Nat) : Nat :=
  let x := dmaAt s n
  match x.st with
  | .idle => 4 * x.last
  | .fetching => 1 + 4 * x.last
  | .running => 1 + 4 * x.last
  | .waiting => 2 + 4 * x.last
  | .stopped => 3 + 4 * x.last + 2 ^ 10 * x.error

/-- DMA_KICK sets the pending bit; the word of a tail at which the channel waits is then read again (R455, R482). -/
def dmaKick (s : State) (n : Nat) : State :=
  let x := dmaAt s n
  if x.st = .waiting ∧ x.reading = false then setDma s n { x with pending := false, reading := true }
  else setDma s n { x with pending := true }

/-- DMA_KICK (R482, R511). -/
def execDmaKick (c : Cmd) (ch : BitVec 16) (s : State) : Host.Outcome State Fault Refusal :=
  runCommand c 0x0C01 (fun _ s =>
    if 32 ≤ ch.toNat then .done (err 2) s
    else if dmaEnabled s ch.toNat then .done {} (dmaKick s ch.toNat) else .done (err 5) s) s

/-- DMA_STATUS (R511): DMA_CH_STATUS, consumed count, descriptor address, bytes done. -/
def execDmaStatus (c : Cmd) (ch : BitVec 16) (s : State) : Host.Outcome State Fault Refusal :=
  runCommand c 0x0C02 (fun _ s =>
    if 32 ≤ ch.toNat then .done (err 2) s
    else
      let x := dmaAt s ch.toNat
      .done { block := le 4 (dmaStatusView s ch.toNat) ++ le 8 x.consumed ++ le 8 x.chain ++ le 4 x.written } s) s

/-- CHAIN_WORD_RETURN (R455, R482): a chain read returns, of a ring or of a DMA channel; `desc` is the descriptor that a
DMA channel fetches. -/
def execChainWordReturn (chain : ChainNo) (word : BitVec 64) (desc : Bytes) (ok : Bool) (s : State) :
    Host.Outcome State Fault Refusal :=
  match chain with
  | .ring host page => .next (ringChainReturn s host.val page.val word.toNat ok)
  | .dma ch => .next (dmaChainReturn s ch.val word.toNat desc ok)

end Sys2Proof.Machine
end

