-- ==== Sys2Proof/Machine/PmcRun.lean ====
section
/-! DEFINITION. The start of performance counters (R616). -/

namespace Sys2Proof.Machine

/-- A counter is stopped: neither running nor waiting for its start time. -/
def pmcStopped (p : Pmc) : Bool := !p.running && p.startAt.isNone

/-- Every counter whose start time has come begins to count (R616). -/
def pmcStart (s : State) : State :=
  let now := timeNs s
  (s.pmc.filter (fun e => e.2.startAt.any (fun t => decide (t ≤ now)))).foldl (fun s e =>
    setPmc s e.1 { pmcAt s e.1 with running := true, startAt := none }) s

end Sys2Proof.Machine
end

