-- ==== Sys2Proof/Machine/Regfile.lean ====
section
/-! DEFINITION. The register file: who may write a register and when, halves, shadows, reads (R11-R16, R22, R435, R633,
R640, R644), and the rate grid (R666). -/

namespace Sys2Proof.Machine

/-! The boot registers (R640). -/

/-- STATE of BOOT_STATUS in a phase of the boot (R640). -/
def phaseState : BootPhase → Nat
  | .reset => 0
  | .tripped => 0
  | .pushWait => 1
  | .pushing => 2
  | .hotHold => 2
  | .rails => 2
  | .training => 2
  | .ready => 3
  | .failed => 4

/-- The boot enters a phase, and BOOT_STATUS shows its STATE (R640). -/
def setPhase (s : State) (p : BootPhase) : State :=
  setRegField (s.withBoot { s.boot with phase := p }) .bootStatus 0 0 3 (phaseState p)

/-- The host port that a push comes through: H1 where the strap names it and it is there, else H0 (R631). -/
def pushHost (s : State) : Nat := if s.boot.bootSrc = 2 ∧ hostPresent s 1 then 1 else 0

/-- A master writes the push registers: not through the host port that the strap does not name, and only in PUSH_WAIT
(R636, R640). -/
def pushOpen (s : State) (m : Nat) : Bool :=
  s.boot.phase == .pushWait && (m == pushHost s || m == 2)

/-- A write of BOOT_PUSH_CTRL (R636, R640): it sets CERT_LEN, and GO through the host port of the push starts reading and
checking the pushed image. -/
def writePushCtrl (s : State) (m v : Nat) : State :=
  if pushOpen s m = false then countReserved s m 1
  else
    let s := setReg (countReservedBits s m .bootPushCtrl v) .bootPushCtrl 0 (65536 * bits v 16 14)
    if bit v 0 then
      if m = pushHost s then setPhase s .pushing else countReserved s m 1
    else s

/-! The judgement of a write (R469, R440, R484, R594, R616, R640). -/

/-- A register has a field that only the owner writes. -/
def Reg.ownerOnly (r : Reg) : Bool := decide (r.mask .rwo + r.mask .wo ≠ 0)

/-- What refuses a write of a register, as the effect of the refusal: the counts of a non-owner write or of a reserved
write.  `none` where the write stands. -/
def writeRefused (s : State) (m : Nat) (r : Reg) (i : Nat) : Option State :=
  match r with
  | .bootPushAddr | .bootPushLen | .bootCertAddr =>
    if pushOpen s m then none else some (countReserved s m 1)
  | .ringBase | .ringWb =>
    if m ≠ i / 184 ∨ ringEnabled s (i / 184) (i % 184) then some (countReserved s m 1) else none
  | _ =>
    if r.ownerOnly && s.own.owner != some m then some (nonOwner s m (some (Reg.off r i)))
    else match r with
      | .dmaChChain | .dmaChWb => if dmaEnabled s i then some (countReserved s m 1) else none
      | .pmcSel | .pmcFilt | .pmcAddrBase | .pmcAddrMask =>
        if pmcStopped (pmcAt s i) then none else some (countReserved s m 1)
      | _ => none

/-- The value a half-written register is combined with: the pending one, else the applied one (R644). -/
def combineVal (s : State) (r : Reg) (i : Nat) : Nat :=
  match getAt none s.regs.shadow (Reg.off r i) with
  | some v => v.toNat
  | none => appliedVal s r i

/-- The data plane is carrying traffic (R22): some slice is open. -/
def carrying (s : State) : Bool := (List.range 16).any (fun n => (sliceAt s n).opened != 0)

/-- A register takes a whole value: held in its shadow while its block carries traffic, else at once (R22). -/
def storeReg (s : State) (r : Reg) (i v : Nat) : State :=
  if r.shadowed && carrying s then
    s.withRegs { s.regs with shadow := setAt none s.regs.shadow (Reg.off r i) (some (BitVec.ofNat 64 v)) }
  else applyReg s r i v

/-- A write of a word of HASH_KEY by the owner (R104, R599): the commitment changes, and a seed-draw entry is logged. -/
def writeHashKey (s : State) (m i v : Nat) : State :=
  match writeRefused s m .hashKey i with
  | some s => s
  | none => logSeeds (storeReg s .hashKey i (v % 2 ^ 32))

/-- A write of a register of its whole size by a master.  DESIGN CHOICE: a write that is refused counts only as what refused
it, whatever it carries in reserved bits (R15; log 91). -/
def writeReg (s : State) (m : Nat) (r : Reg) (i v : Nat) : State :=
  match r with
  | .ringCfg => writeRingCfg s m (i / 184) (i % 184) v
  | .ringBase | .ringWb =>
    writeRingAddr (if (writeRefused s m r i).isNone then countReservedBits s m r v else s) m r (i / 184) (i % 184) v
  | .ownBid => writeOwnBid s m v
  | .ownNonce => writeOwnNonce s m v
  | .ownCtrl => writeOwnCtrl s m v
  | .dmaChCfg => writeDmaCfg s m i v
  | .bootPushCtrl => writePushCtrl s m v
  | .hashKey => writeHashKey s m i v
  | r =>
    match writeRefused s m r i with
    | some s => s
    | none =>
      let s := countReservedBits s m r v
      if r.written = 0 then s
      else if r = .imgSvnFloor ∧ v < regVal s r i then countReserved s m 1
      else storeReg s r i (mergedValue r (combineVal s r i) v)

/-! Halves (R644). -/

/-- A 4-B write into an 8-B register (R644).  Each half counts its own 1s in reserved bits (R15). -/
def writeHalf (s : State) (m : Nat) (r : Reg) (i : Nat) (high : Bool) (v : Nat) : State :=
  match writeRefused s m r i with
  | some t => setHeld t m none
  | none =>
    let o := Reg.off r i
    if high then
      let low := match heldHalf s m with
        | some (_, l) => l.toNat
        | none => combineVal s r i % 2 ^ 32
      writeReg (setHeld s m none) m r i (low + 2 ^ 32 * (v % 2 ^ 32))
    else setHeld (countReservedBits s m r (v % 2 ^ 32)) m (some (o, BitVec.ofNat 32 (v &&& r.named)))

/-- A write of an aligned 4-B word (R435, R643, R644). -/
def writeWord (s : State) (m off v : Nat) : State :=
  match regAt off with
  | none => countReserved s m 1
  | some (r, i) =>
    if r.size = 4 then writeReg s m r i (v % 2 ^ 32)
    else writeHalf s m r i (decide (off ≠ Reg.off r i)) v

/-- The registers that are served before READY (R633, R640). -/
def isBootReg : Reg → Bool
  | .bootStatus | .bootPushAddr | .bootPushLen | .bootCertAddr | .bootPushCtrl | .trafficStatus => true
  | _ => false

/-- A write reaches the register file at an offset: before READY only the boot registers are served (R633). -/
def fileAccess (s : State) (m off : Nat) (f : State → State) : State :=
  let boot := match regAt off with
    | some (r, _) => isBootReg r
    | none => false
  if boot && s.boot.phase != .ready then f (dropOther s m off) else regAccess s m off f

/-- An access of BAR0 that writes (R435, R644): aligned, of 4 B or 8 B; an 8-B access where no 8-B register lies acts as
two of 4 B, low word first. -/
def writeBar0 (s : State) (m off size v : Nat) : State :=
  if size = 4 ∧ off % 4 = 0 then fileAccess s m off (fun s => writeWord s m off v)
  else if size = 8 ∧ off % 8 = 0 then
    match regAt off with
    | some (r, i) =>
      if r.size = 8 then fileAccess s m off (fun s => writeReg (setHeld s m none) m r i v)
      else
        let s := fileAccess s m off (fun s => writeWord s m off (v % 2 ^ 32))
        fileAccess s m (off + 4) (fun s => writeWord s m (off + 4) (v / 2 ^ 32))
    | none =>
      let s := fileAccess s m off (fun s => writeWord s m off (v % 2 ^ 32))
      fileAccess s m (off + 4) (fun s => writeWord s m (off + 4) (v / 2 ^ 32))
  else countReserved (dropOther s m off) m 1

/-- A master's path to the register file is there: a host port that the straps leave present. -/
def masterPresent (s : State) (m : Nat) : Bool := decide (2 ≤ m) || hostPresent s m

/-- REGISTER_WRITE (R644). -/
def execRegisterWrite (m : Master) (off : BitVec 26) (size : Nat) (v : BitVec 64) (s : State) :
    Host.Outcome State Fault Refusal :=
  if masterPresent s m.val then .next (writeBar0 s m.val off.toNat size v.toNat) else .next s

/-- HASH_KEY_WRITE (R104, R599). -/
def execHashKeyWrite (m : Master) (k : Fin 64) (w : Fin 13) (v : BitVec 32) (s : State) :
    Host.Outcome State Fault Refusal :=
  if masterPresent s m.val then
    .next (writeBar0 s m.val (Reg.off .hashKey (13 * k.val + w.val)) 4 v.toNat)
  else .next s

/-! Reads (R435, R633, R644). -/

/-- What SLICE_SUB reads (R586). -/
def sliceSubView (s : State) : Nat :=
  let g := servedGroup s 16
  g.getD 0 % 16 + 16 * flag g.isSome +
    (List.range 17).foldl (fun m n => m + 32 * 2 ^ n * flag (sliceAt s n).retired) 0

/-- What TRAFFIC_STATUS reads (R640). -/
def trafficView (s : State) : Nat :=
  (List.range 16).foldl (fun m n =>
    m + 2 ^ n * flag ((sliceAt s n).opened != 0) + 2 ^ (16 + n) * flag ((sliceAt s n).opened == 2)) 0

/-- What a master reads of a register: banked registers by master, status registers as they are computed, write-only
fields as 0 (R11, R469, R470). -/
def readReg (s : State) (m : Nat) (r : Reg) (i : Nat) : Nat :=
  match r with
  | .ownBid => (getAt 0 s.regs.bankBid m).toNat
  | .ownNonce => (getAt 0 s.regs.bankNonce m).toNat
  | .ownStatus => ownStatusView s
  | .ownFence => s.own.fenceSeq
  | .ownDone => doneSeq s
  | .dmaChStatus => dmaStatusView s i
  | .sliceSub => sliceSubView s
  | .trafficStatus => trafficView s
  | .hashKey => 0
  | r => regVal s r i

/-- What a read of an aligned 4-B word of BAR0 returns. -/
def readWord (s : State) (m off : Nat) : Nat :=
  match regAt off with
  | none => 0
  | some (r, i) =>
    if s.boot.phase ≠ .ready ∧ isBootReg r = false then 0
    else if off = Reg.off r i then readReg s m r i % 2 ^ 32 else readReg s m r i / 2 ^ 32

/-! The rate grid (R666). -/

/-- Every token bucket takes its refill (R145, R204, R213). -/
def refillAll (s : State) : State := bucketsTick (bucketsTick (bucketsTick s 0 true) 1 true) 2 true

/-- Every per-interval limit counts from 0 again (R88, R146, R274). -/
def limitsRestart (s : State) : State :=
  (List.range 17).foldl (fun s n => setSlice s n { sliceAt s n with events := 0, punts := 0 })
    (s.withTbl { s.tbl with learnEvt := [] })

/-- REFILL_TICK (R666): the next refill tick of the grid falls. -/
def execRefillTick (s : State) : Host.Outcome State Fault Refusal :=
  .next (refillAll (s.withClk { s.clk with refills := s.clk.refills + 1 }))

/-- INTERVAL_START (R666): the next 1-ms interval of the grid begins. -/
def execIntervalStart (s : State) : Host.Outcome State Fault Refusal :=
  .next (limitsRestart (s.withClk { s.clk with intervals := s.clk.intervals + 1 }))

/-- A cycle of the grid (R666): a count that is a multiple of 1,500 is a refill tick, one of 1,500,000 begins an interval; a
tick that a command has asserted ahead of its count does not fall again (log 3). -/
def gridTick (s : State) : State :=
  let s := s.withClk { s.clk with grid := s.clk.grid + 1 }
  let s := if 1500 * (s.clk.refills + 1) ≤ s.clk.grid then
    refillAll (s.withClk { s.clk with refills := s.clk.refills + 1 }) else s
  if 1500000 * (s.clk.intervals + 1) ≤ s.clk.grid then
    limitsRestart (s.withClk { s.clk with intervals := s.clk.intervals + 1 })
  else s

end Sys2Proof.Machine
end

