-- ==== Sys2Proof/Machine/SeqCmds.lean ====
section
/-! DEFINITION. Microcode words and banks (R123-R127, R132, R133, R150, R151) and the slice commands (R152). -/

namespace Sys2Proof.Machine

/-- Writes a bank of the microcode store. -/
def setBank (s : State) (b : Nat) (x : Bank) : State :=
  s.withSeq (if b = 0 then { s.seq with bank0 := x } else { s.seq with bank1 := x })

/-- A bank is valid on every slice. -/
def bankValid (x : Bank) : Bool := x.loaded && x.badSlices == 0

/-- SEQ_WORD_EXECUTE (R122-R125, R150): the next word of a frame that has a context and whose awaited results are there;
`err` are the bits of the word that the store has lost, and a parity error is a machine check. -/
def execSeqWordExecute (fid : Nat) (err : BitVec 320) (s : State) : Host.Outcome State Fault Refusal :=
  match frameAt s fid with
  | none => .next s
  | some f =>
    let word := bankWord s f.bank f.pc ^^^ err
    if noVerdict f && f.context && waitMet f word.toNat then
      let p := wordParity word
      if p ≠ 0 then .next (machineCheck s f.slice (flag (f.bank != s.seq.live)) f.pc p)
      else .next (runWord s fid word)
    else .next s

/-- STANDBY_BANK_PARITY (R151): a parity error in a standby word of a slice makes that bank invalid. -/
def execStandbyBankParity (slice : SliceNo) (addr : BitVec 12) (bad : BitVec 8) (s : State) :
    Host.Outcome State Fault Refusal :=
  let b := 1 - s.seq.live
  let x := bankOf s b
  let s := setBank s b { x with badSlices := x.badSlices ||| 2 ^ slice.val }
  .next (postEvent s 0x02 4 (origin s slice.val 0x14 0 0) (le 1 1 ++ le 2 addr.toNat ++ le 1 bad.toNat))

/-- SEQ_SWAP (R133): the standby banks are live from the next epoch boundary on; the command completes once the frames of
earlier epochs have left the sequencers. -/
def execSeqSwap (c : Cmd) (s : State) : Host.Outcome State Fault Refusal :=
  runCommand c 0x0202 (fun aseq s =>
    let x := bankOf s (1 - s.seq.live)
    if s.seq.swap.isSome || s.seq.loading || !bankValid x then .done (err 5) s
    else
      let s := advanceEpoch s
      let s := s.withSeq { s.seq with live := 1 - s.seq.live, swap := some { boundary := s.tbl.epoch, aseq := aseq } }
      .later (imageActivated s 0xFFFF { kind := 2, version := x.version, svn := x.svn, digest := x.digest })) s

/-- SEQ_SWAP_DRAINED (R133): the last frame of an earlier epoch has left every sequencer; the completion gives the boundary
epoch. -/
def execSeqSwapDrained (s : State) : Host.Outcome State Fault Refusal :=
  match s.seq.swap with
  | none => .next s
  | some w =>
    if epochDrained s w.boundary then
      .next (finish (s.withSeq { s.seq with swap := none }) w.aseq { result := w.boundary })
    else .next s

/-- The state of a slice as SLICE_STATUS codes it (R152). -/
def sliceCode (s : State) (n : Nat) : Nat :=
  let x := sliceAt s n
  let g := servedGroup s n
  if x.retired then 5
  else if n = 16 ∧ g = none then (if x.stopped then 3 else 1)
  else if (sliceAt s (if n = 16 then g.getD 16 else n)).opened = 0 then 4
  else if x.stopped then 3
  else if isAwake s .slice n then 0
  else 2

/-- SLICE_STATUS (R152): state, live bank, image versions of both banks, head-queue depths, contexts in use. -/
def execSliceStatus (c : Cmd) (slice : BitVec 16) (s : State) : Host.Outcome State Fault Refusal :=
  runCommand c 0x0203 (fun _ s =>
    let n := slice.toNat
    if 16 < n then .done (err 2) s
    else
      let depths := (sliceAt s n).heads.flatMap (fun q => le 2 q.length)
      .done { block := le 1 (sliceCode s n) ++ le 1 s.seq.live ++ le 4 s.seq.bank0.version ++ le 4 s.seq.bank1.version ++
        depths ++ le 2 (contextsUsed s n) } s) s

end Sys2Proof.Machine
end

