-- ==== Sys2Proof/Machine/Fault.lean ====
section
/-! DEFINITION. Planned switches of slices (R569-R571), CLUSTER_REMAP (R572), lane recalibration (R580), SerDes firmware
(R581), reclaiming leaked cells (R585) and FAULT_STATUS (R587). -/

namespace Sys2Proof.Machine

/-! Slices. -/

/-- A group goes to a slice, which admits heads again: it is stopped no more (R152), and forms the release verdicts that have
waited (R568). -/
def returnGroup (s : State) (g dst : Nat) : State :=
  releaseHeld (joinGroup (setSlice s dst { sliceAt s dst with stopped := false }) g (some dst)) dst

/-- The switch cycle: the crossbar sends the group's new heads to the target (R570 step 1). -/
def beginSwitch (s : State) : State :=
  match s.ft.switch with
  | some m =>
    if m.begun || !isAwake s .slice m.dst then s
    else returnGroup (s.withFt { s.ft with switch := some { m with begun := true } }) m.grp m.dst
  | none => s

/-- A planned switch is set up: the target wakes first if it sleeps (R570). -/
def planSwitch (s : State) (g src dst aseq : Nat) : State :=
  let s := s.withFt { s.ft with switch := some { grp := g, src := src, dst := dst, aseq := aseq, begun := false } }
  if isAwake s .slice dst then beginSwitch s else wakeRequest s .slice [dst] false

/-- A slice is ready after a wake: S16 serves the group that waits for it, and a switch that waited for its target begins. -/
def sliceReady (s : State) (n : Nat) : State := beginSwitch (if n = 16 then spareReady s else s)

/-- A slice holds a frame of its group without a verdict that is not parked for a setup (R570 step 3). -/
def holdsUnjudged (s : State) (n : Nat) : Bool :=
  s.slices.frames.any (fun p => match p.2 with
    | some f => f.slice == n && (f.stage == .head || f.stage == .slice || f.stage == .tierB) && f.copyOf.isNone
    | none => false)

/-- A slice holds any frame. -/
def holdsFrame (s : State) (n : Nat) : Bool :=
  s.slices.frames.any (fun p => match p.2 with
    | some f => f.slice == n && f.stage != .queued && f.copyOf.isNone
    | none => false)

/-- S16 rests when it serves no group and holds no frame (R570 step 5). -/
def restSpare (s : State) : State :=
  if (servedGroup s 16).isNone && !holdsFrame s 16 && isAwake s .slice 16 then putBlk s .slice 16 .retention else s

/-- A switch ends: the target admits heads, and the command completes (R570, R587). -/
def endSwitch (s : State) (m : SliceMove) : State :=
  let s := s.withFt { s.ft with switch := none }
  let s := if m.src = 16 then restSpare (postReturned s m.dst) else s
  finish s m.aseq {}

/-- SLICE_SWITCH_ADMIT (R570 step 3). -/
def execSliceSwitchAdmit (s : State) : Host.Outcome State Fault Refusal :=
  match s.ft.switch with
  | some m => if m.begun && !holdsUnjudged s m.src then .next (endSwitch s m) else .next s
  | none => .next s

/-- A bank of a slice is rewritten from S16's (R569 step 1). -/
def copyBank (n : Nat) (x : Bank) : Bank := { x with badSlices := putBits x.badSlices n 1 (bits x.badSlices 16 1) }

/-- SLICE_SWITCH (R569, R570, R587): 0 to spare, 1 return (log 19).  An unjoined group is joined to S16 (R567). -/
def execSliceSwitch (c : Cmd) (slice dir : BitVec 8) (s : State) : Host.Outcome State Fault Refusal :=
  runCommand c 0x0F02 (fun aseq s =>
    let n := slice.toNat
    if 16 ≤ n ∨ 1 < dir.toNat then .done (err 2) s
    else if (sliceAt s n).retired || s.ft.switch.isSome || s.ft.selfTest.isSome || s.ft.waitAseq.isSome then .done (err 5) s
    else if dir = 0 then
      if !spareFree s then .done (err 5) s
      else match servingSlice s n with
        | none => .later (joinSpare s n (some aseq))
        | some _ => .later (planSwitch s n n 16 aseq)
    else if servingSlice s n = some n then .done (err 5) s
    else
      let s := setBank (setBank s 0 (copyBank n (bankOf s 0))) 1 (copyBank n (bankOf s 1))
      .later (s.withFt { s.ft with selfTest := some (n, aseq) })) s

/-- SLICE_SELF_TEST_DONE (R569): a slice that passes takes its group back from S16, or at once where none serves it; one
that fails is retired. -/
def execSliceSelfTestDone (pass : Bool) (s : State) : Host.Outcome State Fault Refusal :=
  match s.ft.selfTest with
  | none => .next s
  | some (n, aseq) =>
    let s := s.withFt { s.ft with selfTest := none }
    if pass then
      if servingSlice s n = some 16 then .next (planSwitch s n 16 n aseq)
      else .next (finish (postReturned (returnGroup s n n) n) aseq {})
    else .next (finish (setSlice s n { sliceAt s n with retired := true }) aseq (err 5))

/-! Clusters (R572). -/

/-- The logical engines of other clusters that engines of cluster 16 serve. -/
def lentSpares (s : State) (c : Nat) : List Nat :=
  (List.range 128).filter (fun n => n / 8 != c && (match physOf s n with
    | some p => p / 8 == 16
    | none => false))

/-- Cluster 16 has an engine that works. -/
def spareWorks (s : State) : Bool :=
  !(clAt s 16).failed && (upFrom 128 8).any (fun p => physAt s p == .spare || physAt s p == .inUse || physAt s p == .loading)

/-- A lent spare engine goes back: its logical engine has none (R572 step 1). -/
def unlend (s : State) (n : Nat) : State :=
  match physOf s n with
  | none => s
  | some p =>
    let s := setPhys (unmapEngine s n) p .spare
    postSubstituted (setEng s n { engAt s n with drained := false, draining := none }) none n p

/-- Spare engines are drained for a remap (R572 step 1); the number of no command stands for one that waits here. -/
def drainLent (s : State) (n : Nat) : State :=
  let e := engAt s n
  if engDrained e || e.draining.isSome || allIdle s n then s else setEng s n { e with draining := some (2 ^ 32) }

/-- The logical engines of a cluster take the free engines of cluster 16 in ascending order (R572 step 2). -/
def takeSpares : List Nat → List Nat → State → State
  | n :: ns, p :: ps, s => takeSpares ns ps (restartEngine s n p)
  | _, _, s => s

/-- A remap goes on once the lent spares are idle (R572). -/
def advanceRemap (s : State) : State :=
  match s.ft.remap with
  | none => s
  | some (c, aseq) =>
    let ns := lentSpares s c
    if ns.all (fun n => engDrained (engAt s n) || allIdle s n) then
      let s := ns.foldl unlend (s.withFt { s.ft with remap := none })
      let free := (upFrom 128 8).filter (fun p => physAt s p == .spare)
      let s := setReg s .clusterMap c (16 + 32)
      let s := takeSpares (clusterEngines c) free s
      let mapped := (List.range 8).foldl (fun m e => m + 2 ^ e * flag (physOf s (8 * c + e)).isSome) 0
      finish (postEvent s 0x0F 3 (origin s 16 0x48 0 0) (le 1 c ++ le 1 mapped)) aseq {}
    else s

/-- CLUSTER_REMAP (R572). -/
def execClusterRemap (c : Cmd) (cl : BitVec 8) (s : State) : Host.Outcome State Fault Refusal :=
  runCommand c 0x0F03 (fun aseq s =>
    let k := cl.toNat
    if 16 ≤ k then .done (err 2) s
    else if (clusterPhys s k).isSome || !spareWorks s || s.ft.remap.isSome ||
        (List.range 16).any (fun d => clusterPhys s d == some 16) then .done (err 5) s
    else
      let s := (lentSpares s k).foldl drainLent s
      .later (advanceRemap (s.withFt { s.ft with remap := some (k, aseq) }))) s

/-- ENG_DRAINED (R356); a remap that waited for the engine goes on (R572). -/
def execEngDrained (en : Fin 128) (s : State) : Host.Outcome State Fault Refusal := .next (advanceRemap (engineDrained s en.val))

/-! Lanes (R580). -/

/-- A recalibration of a lane begins. -/
def startRecal (s : State) (port lane path aseq : Nat) : State :=
  s.withFt { s.ft with recals := s.ft.recals ++ [{ port := port, lane := lane, path := path, aseq := aseq }] }

/-- A lane in use can be freed by a narrowing step (R580). -/
def recalNarrows (s : State) (sub lane : Nat) : Bool :=
  let x := subAt s sub
  x.answering == some true && decide (2 ≤ x.width) && decide (ownFloor s sub ≤ x.width / 2) &&
    !(logicalLanes s sub 0 (x.width / 2)).contains lane

/-- LANE_RECAL (R580). -/
def execLaneRecal (c : Cmd) (port : BitVec 16) (lane force : BitVec 8) (s : State) : Host.Outcome State Fault Refusal :=
  runCommand c 0x0F05 (fun aseq s =>
    let p := port.toNat
    let l := p * 8 + lane.toNat
    if 96 ≤ p ∨ 8 ≤ lane.toNat then .done (err 2) s
    else if s.ft.recals.any (fun r => r.port == p) then .wait
    else match (laneSub s l).filter (fun n => (subAt s n).up && (usedLanes s n).contains l) with
      | none => .later (wakeRequest (startRecal s p lane.toNat 0 aseq) .lane [l] false)
      | some sub =>
        if recalNarrows s sub l then
          if mayStep s sub then .later (startRecal (requestStep s sub ((subAt s sub).width / 2)) p lane.toNat 1 aseq) else .wait
        else if force = 0 then .done (err 5) s
        else .later (startRecal (failLane s l none) p lane.toNat 2 aseq)) s

/-- RECALIBRATION_DONE (R580): the lane goes back to where it came from, lane-recalibrated is posted, and the command
completes with 0 pass or 1 fail (log 19).  A lane that its narrowing step has not freed cannot have been recalibrated. -/
def execRecalibrationDone (lane : LaneNo) (pass : Bool) (s : State) : Host.Outcome State Fault Refusal :=
  let l := lane.val
  match takeFirst (fun (r : Recal) => r.port * 8 + r.lane == l) s.ft.recals with
  | none => .next s
  | some (r, rest) =>
    let s := s.withFt { s.ft with recals := rest }
    let sub := laneSub s l
    let used := sub.any (fun n => (subAt s n).up && (usedLanes s n).contains l)
    if used then .next (finish s r.aseq (err 5))
    else
      let s := if r.path = 2 && pass then restoreLane s l else sleepLanes s [l]
      let s := postEvent s 0x0F 8 (laneOrigin s l) (le 1 (flag (!pass)) ++ le 1 r.path)
      let s := finish s r.aseq { result := flag (!pass) }
      match r.path, sub with
      | 1, some n => .next (widenStep s n)
      | _, _ => .next s

/-- SERDES_APPLY (R581, R599): the port's subports go down and retrain on the checked image. -/
def execSerdesApply (c : Cmd) (port : BitVec 16) (s : State) : Host.Outcome State Fault Refusal :=
  runCommand c 0x0F06 (fun _ s =>
    let p := port.toNat
    if 96 ≤ p then .done (err 2) s
    else match s.img.staged with
      | none => .done (err 6) s
      | some i =>
        let s := (upFrom (4 * p) 4).foldl linkDown s
        let s := s.withImg { s.img with serdesPort := setAt none s.img.serdesPort p (some i) }
        .done {} (imageActivated (wakePort s p (portWakes s p)) p i)) s

/-! Leaked cells (R585). -/

/-- A task gives up the copy of its frame. -/
def loseCopy (fid : Nat) (s : State) (e : Nat × Option Task) : State :=
  match e.2 with
  | some t => match t.copy with
    | some c => if c.fid = fid then releaseCopy (setTask s e.1 (some { t with copy := none })) 0x20 c else s
    | none => s
  | none => s

/-- A frame that references a cell whose header is lost is dropped, wherever it stands; one in transmission ends with an
inverted FCS (R41, R359). -/
def headerDrop (s : State) (fid : Nat) : State :=
  match frameAt s fid with
  | none => s
  | some f =>
    match f.stage with
    | .queued => (abandonFrame (s.eng.tasks.foldl (loseCopy fid) s) fid).1
    | .setup | .pending => dropParked s fid
    | _ => settleFetches (loseFrame s fid)

/-- The header of an allocated cell has an uncorrectable error (R359): the frames that reference the cell are dropped, and
the cell stays allocated. -/
def headerLost (s : State) (c : Nat) : State :=
  if (cellAt s c).alloc then
    let s := setCell s c { cellAt s c with bad := true }
    (s.slices.frames.filterMap (fun p => match p.2 with
      | some f => if f.cells.contains c then some p.1 else none
      | none => none)).foldl headerDrop s
  else s

/-- CELL_RELEASE (R359, R368): the allocator reads the header of the cell as its SECDED code gives it. -/
def execCellRelease (cell : CellName) (party : BitVec 8) (s : State) : Host.Outcome State Fault Refusal :=
  let loc := cell.loc.toNat
  if cell.header = .uncorrectable ∧ loc % 256 = 0 ∧ loc / 256 < cellCount then .next (headerLost s (loc / 256))
  else .next (releaseCell s loc party.toNat)

/-- The unit that allocates under a tag is quiescent; `none` where no unit allocates under it (R363, R585). -/
def tagQuiet (s : State) (t : Nat) : Option Bool :=
  if t < 17 then some ((sliceAt s t).stopped || (blkAt s .slice t).st == .retention)
  else if 0x20 ≤ t ∧ t ≤ 0xA7 then
    let p := t - 0x20
    some (match (List.range 128).find? (fun n => physOf s n == some p) with
      | some n => engDrained (engAt s n)
      | none => true)
  else if t = 0xC0 ∨ t = 0xC1 then some (!(upFrom (typePage 4) (typeCount 4)).any (fun page => ringEnabled s (t - 0xC0) page))
  else none

/-- CELL_RECLAIM (R585). -/
def execCellReclaim (c : Cmd) (tag : BitVec 8) (s : State) : Host.Outcome State Fault Refusal :=
  runCommand c 0x0F07 (fun aseq s =>
    match tagQuiet s tag.toNat with
    | none => .done (err 2) s
    | some quiet =>
      if s.ft.reclaim.isSome then .wait
      else if quiet then .later (s.withFt { s.ft with reclaim := some (tag.toNat, aseq) })
      else .done (err 5) s) s

/-- The references to a frame that cover cell i of its chain: the owner's before it is enqueued, else those of its copies. -/
def frameCovers (s : State) (fid i : Nat) (f : Frame) : Nat :=
  let n := fun (c : Copy) => if c.fid = fid ∧ i < coverage f c.trunc then 1 else 0
  if f.stage ≠ .queued then 1
  else
    (s.buf.queues.foldl (fun m e => m + ((e.2.copies.map n).foldl (· + ·) 0)) 0) +
    (s.buf.tx.foldl (fun m e => match e.2 with
      | some x => m + n x.copy
      | none => m) 0) +
    (s.eng.tasks.foldl (fun m e => match e.2 with
      | some x => m + ((x.copy.map n).getD 0)
      | none => m) 0)

/-- The copies that cover a cell. -/
def cellCovers (s : State) (c : Nat) : Nat :=
  s.slices.frames.foldl (fun m p => match p.2 with
    | some f => match f.cells.idxOf? c with
      | some i => m + frameCovers s p.1 i f
      | none => m
    | none => m) 0

/-- One cell of the tag: REFS becomes its count, and a cell of count 0 is freed. -/
def reclaimCell (a : State × Nat) (c : Nat) : State × Nat :=
  match cellCovers a.1 c with
  | 0 => (freeCell a.1 c, a.2 + 1)
  | n => (setCell a.1 c { cellAt a.1 c with refs := n, bad := false }, a.2)

/-- RECLAIM_WALK_END (R585). -/
def execReclaimWalkEnd (s : State) : Host.Outcome State Fault Refusal :=
  match s.ft.reclaim with
  | none => .next s
  | some (t, aseq) =>
    let cs := (s.buf.cells.filter (fun e => e.2.alloc && e.2.owner == t)).map (·.1)
    match cs.foldl reclaimCell (s.withFt { s.ft with reclaim := none }, 0) with
    | (s, n) =>
      let s := postEvent s 0x0F 9 (origin s 25 1 0 0) (le 1 t ++ le 4 n)
      .next (finish s aseq { result := n })

/-! FAULT_STATUS (R587). -/

/-- The state of a course as FAULT_STATUS codes it (log 43): 0 in service, 1 being rebuilt, 2 retired, 3 free spare, 4 spare
standing for another. -/
def courseCode (k : Nat) (x : Course) : Nat :=
  if x.retired then 2 else if x.rebuilding then 1 else if k = 6 then (if x.standing.isSome then 4 else 3) else 0

/-- The block of FAULT_STATUS (R587; log 43). -/
def faultBlock (s : State) : Bytes :=
  (List.range 17).flatMap (fun n => le 1 (sliceCode s n)) ++ le 4 (sliceSubView s) ++
    (upFrom 128 8).flatMap (fun p => le 2 (((List.range 128).find? (fun n => physOf s n == some p)).getD 0xFFFF)) ++
    (List.range 28).flatMap (fun i =>
      let x := courseOf s (i / 7) (i % 7)
      le 1 (courseCode (i % 7) x) ++ le 4 x.copied) ++
    le 4 s.fs.lost.length ++ s.fs.lost.flatMap (le 4) ++
    le 4 (s.ddr.ch.foldl (fun m e => if e.2.st == .retired then m + 2 ^ e.1 else m) 0) ++
    le 1 (regField s .bootStatus 0 8 8)

/-- FAULT_STATUS (R587). -/
def execFaultStatus (c : Cmd) (addr : BitVec 64) (s : State) : Host.Outcome State Fault Refusal :=
  runCommand c 0x0F01 (fun _ s => .done { block := faultBlock s, addr := some addr.toNat } s) s

end Sys2Proof.Machine
end

