-- ==== Sys2Proof/Machine/Images.lean ====
section
/-! DEFINITION. Signed images, their check and store, footing firmware, and attestation (R589-R607). -/

namespace Sys2Proof.Machine

/-! The format of an image (R589-R591). -/

/-- The bytes from `a` to before `b` are all 0. -/
def zeroIn (i : Bytes) (a b : Nat) : Bool := (cut i a (b - a)).all (fun x => x == 0)

/-- The payload length that a header gives. -/
def payloadLen (i : Bytes) : Nat := leAt i 16 4

/-- The payload of an image. -/
def payloadOf (i : Bytes) : Bytes := cut i 384 (payloadLen i)

/-- The key slot of an image. -/
def keySlot (i : Bytes) : Nat := (byteAt i 24).toNat

/-- The digest of header bytes 0 to 255, which the signature covers. -/
def headerDigest (i : Bytes) : Bytes := sha384 (cut i 0 256)

/-- What is kept of an image. -/
def infoOf (i : Bytes) : ImgInfo :=
  { kind := (byteAt i 6).toNat, version := leAt i 8 4, svn := leAt i 12 4, digest := headerDigest i, payDigest := cut i 32 48 }

/-- The fuses of a key slot. -/
def fuseDigest (k : Nat) : Bytes := (List.range 48).map (Config.keyDigestByte k)

/-- A key slot is enabled unless its fuses are all 0 (R591). -/
def keyEnabled (k : Nat) : Bool := decide (k < 4) && !(fuseDigest k).all (fun b => b == 0)

/-- Entry k of the entry table of an engine image (R590). -/
def entryWord (i : Bytes) (k : Nat) : Nat := leAt i (200 + 2 * k) 2

/-- The payload length and the kind-specific fields of an image are within the bounds of its kind; its payload is there
whole (R590). -/
def fieldsOk (kind : Nat) (i : Bytes) : Bool :=
  let n := payloadLen i
  decide (384 + n ≤ i.length) &&
    (match kind with
    | 1 => decide (n ≤ 4194304) && zeroIn i 208 256
    | 2 => decide (leAt i 192 2 ≤ 4096) && n == 40 * leAt i 192 2 && zeroIn i 194 256
    | 3 => decide (1 ≤ leAt i 192 2) && decide (leAt i 192 2 ≤ 8192) && decide (leAt i 196 4 ≤ 188416) &&
        n == 8 * leAt i 192 2 + leAt i 196 4 && entryWord i 0 == 0 && entryWord i 6 == 0 && entryWord i 7 == 0 &&
        (List.range 8).all (fun k => decide (entryWord i k < 8192)) && zeroIn i 194 196 && zeroIn i 216 256
    | _ => decide (n ≤ 1048576) && zeroIn i 192 256)

/-- Word k of a microcode image. -/
def imageWord (i : Bytes) (k : Nat) : BitVec 320 := BitVec.ofNat 320 (leAt i (384 + 40 * k) 40)

/-- The floor in force for a kind (R594). -/
def svnFloor (s : State) (kind : Nat) : Nat := regVal s .imgSvnFloor (kind - 1)

/-! The image check (R592). -/

/-- The number of the first check that an image fails, 0 for none; `floors` is false where check 5 is skipped (R592, R596,
R636). -/
def checkImage (s : State) (kind : Nat) (i : Bytes) (floors : Bool) : Nat :=
  if !(decide (384 ≤ i.length) && leAt i 0 4 == 0x494C4143 && leAt i 4 2 == 1 && leAt i 7 1 == 0xB0 && zeroIn i 20 24 &&
      zeroIn i 25 32 && zeroIn i 177 192 && zeroIn i 352 384) then 1
  else if leAt i 6 1 ≠ kind then 2
  else if !(keyEnabled (keySlot i) && sha384 (cut i 80 97) == fuseDigest (keySlot i)) then 3
  else if !Config.ecdsaVerify (cut i 80 97) (headerDigest i) (cut i 256 96) then 4
  else if floors ∧ leAt i 12 4 < svnFloor s kind then 5
  else if !fieldsOk kind i then 6
  else if sha384 (payloadOf i) ≠ cut i 32 48 then 7
  else if kind = 2 ∧ !(List.range (leAt i 192 2)).all (fun k => wordParity (imageWord i k) == 0) then 8
  else 0

/-- Posts image-rejected: kind that was to be loaded, check, version, key slot (R607). -/
def imageRejected (s : State) (kind check : Nat) (i : Bytes) : State :=
  postEvent s 0x10 1 (origin s 19 5 0 0) (le 1 kind ++ le 1 check ++ le 4 (leAt i 8 4) ++ le 1 (keySlot i))

/-- IMG_KEY_STATUS shows what is in force (R605). -/
def showKeyStatus (s : State) : State :=
  setReg s .imgKeyStatus 0 (((List.range 4).map (fun k => flag (keyEnabled k) * 2 ^ k)).foldl (· + ·) 0 +
    16 * (s.img.runSlot % 2) + 32 * flag s.img.pushed + 64 * flag (!s.img.cert.isEmpty))

/-! Copying (R478, R592). -/

/-- The bytes at a location as they stand in device memory or were read from host memory. -/
def locBytes (s : State) (l : ImageLoc) (n : Nat) : Bytes :=
  if l.space.toNat < 2 then cut l.host 0 n
  else if l.space = 2 then Memory.readN s.ddr.mem l.addr.toNat n
  else Memory.readN s.dma.staging l.addr.toNat n

/-- The length of the image at a location: header and payload, at most that of the longest image (R590). -/
def locLen (s : State) (l : ImageLoc) : Nat := 384 + min (payloadLen (locBytes s l 384)) 4194304

/-- The copy of an image into footing SRAM: the state, the image, and a detail of R450 or 0. -/
def copyImage (s : State) (src : Source) (l : ImageLoc) : State × Bytes × Nat :=
  if 4 ≤ l.space.toNat ∨ (l.space.toNat < 2 ∧ src = .relay) ∨ rangeError s l.space.toNat l.addr.toNat 384 then (s, [], 2)
  else if rangeError s l.space.toNat l.addr.toNat (locLen s l) then (s, [], 2)
  else match dmaRead s l.space.toNat l.addr.toNat (locLen s l) l.host l.hostOk false l.outcome with
    | (s', i, cause) => (s', i, if cause = 0 then 0 else 3)

/-- A load command passes its image to the footing controller, where it waits its turn (R592, R593). -/
def queueCheck (s : State) (aseq kind target : Nat) (src : Source) (l : ImageLoc) : Effect :=
  match copyImage s src l with
  | (s', i, 0) =>
    .later (s'.withImg { s'.img with
      checks := s'.img.checks ++ [{ aseq := aseq, kind := kind, target := target, image := i }] })
  | (s', _, d) => .done (err d) s'

/-- SEQ_LOAD (R132, R133). -/
def execSeqLoad (c : Cmd) (image : ImageLoc) (s : State) : Host.Outcome State Fault Refusal :=
  runCommand c 0x0201 (fun aseq s =>
    if s.seq.swap.isSome then .done (err 5) s
    else match queueCheck s aseq 2 0xFFFF c.src image with
      | .later t => .later (t.withSeq { t.seq with loading := true })
      | e => e) s

/-- ENG_LOAD (R356, R595): the engine must be drained. -/
def execEngLoad (c : Cmd) (en : BitVec 16) (image : ImageLoc) (s : State) : Host.Outcome State Fault Refusal :=
  runCommand c 0x0802 (fun aseq s => onEngine s en (fun n =>
    if engDrained (engAt s n) then queueCheck s aseq 3 n c.src image else .done (err 5) s)) s

/-- SERDES_LOAD (R606). -/
def execSerdesLoad (c : Cmd) (image : ImageLoc) (s : State) : Host.Outcome State Fault Refusal :=
  runCommand c 0x1001 (fun aseq s => queueCheck s aseq 4 0xFFFF c.src image) s

/-- FW_FLASH (R597): the slot is chosen when the image has passed its check. -/
def execFwFlash (c : Cmd) (image : ImageLoc) (s : State) : Host.Outcome State Fault Refusal :=
  runCommand c 0x1002 (fun aseq s => queueCheck s aseq 1 0 c.src image) s

/-! What becomes of a checked image (R132, R595, R597). -/

/-- A microcode bank with the words of an image written from word 0 on. -/
def loadedBank (x : Bank) (i : Bytes) : Bank :=
  { words := (List.range (leAt i 192 2)).foldl (fun m k => setAt 0 m k (imageWord i k)) x.words, loaded := true, badSlices := 0
    version := leAt i 8 4, svn := leAt i 12 4, digest := headerDigest i }

/-- An engine image as it is stored. -/
def engineImage (i : Bytes) : EngImg :=
  { info := infoOf i, table := cut i 200 16, imem := cut i 384 (8 * leAt i 192 2)
    dmem := cut i (384 + 8 * leAt i 192 2) (leAt i 196 4) }

/-- The place of a stored image with a payload digest. -/
def storedAs (s : State) (payDigest : Bytes) : Option Nat :=
  (List.range 16).find? (fun k => match getAt none s.img.store k with
    | some g => g.info.payDigest == payDigest
    | none => false)

/-- Where an image is or would be stored: with its equal, else in the first free place (R595). -/
def storePlace (s : State) (payDigest : Bytes) : Option Nat :=
  (storedAs s payDigest).or ((List.range 16).find? (fun k => (getAt none s.img.store k).isNone))

/-- A stored image that no logical engine maps is freed (R595). -/
def freeImages (s : State) : State :=
  s.withImg { s.img with
    store := s.img.store.filter (fun p => (List.range 128).any (fun n => (engAt s n).image == some p.1)) }

/-- Stores an image unless its equal is stored. -/
def storeImage (s : State) (k : Nat) (i : Bytes) : State :=
  if (getAt none s.img.store k).isSome then s
  else s.withImg { s.img with store := setAt none s.img.store k (some (engineImage i)) }

/-- ERROR of a rejected image: detail 6, and the check number (R592). -/
def rejectedReply (check : Nat) : Reply := { status := stError, result := 6 + 65536 * check }

/-- An engine image that has passed: it is stored, mapped to its engine and loaded; a 17th distinct image is ERROR detail 5
(R595). The engine stays drained until ENG_RESUME. -/
def loadEngine (s : State) (aseq n : Nat) (i : Bytes) : State :=
  let e := engAt s n
  match storePlace s (infoOf i).payDigest with
  | some k =>
    if engDrained e then
      let s := storeImage s k i
      let s := loadImage (setEng s n { e with image := some k, firstTask := true, drained := true }) n
      finish (freeImages s) aseq {}
    else finish s aseq (err 5)
  | none => finish s aseq (err 5)

/-- The flash slot that a footing image is written to: the one not running; after a push neither runs, and the device
chooses (R597; log 6). -/
def idleSlot (s : State) : State × Nat :=
  if s.img.pushed then ((draw s).2, (draw s).1.toNat % 2) else (s, 1 - s.img.runSlot)

/-- A footing image that has passed is written to the idle slot (R597). -/
def beginFlash (s : State) (aseq slot : Nat) (i : Bytes) : State :=
  emit (s.withImg { s.img with checked := some (infoOf i, slot), flashing := some (aseq, slot) }) (.flash slot i)

/-- The check of a command's image ends: the image is logged and loaded, or rejected; a microcode image that fails leaves the
standby bank invalid (R132, R592, R599). -/
def endCheck (s : State) (x : ImgCheck) : State :=
  let n := checkImage s x.kind x.image true
  let b := 1 - s.seq.live
  if n ≠ 0 then
    let s := if x.kind = 2 then setBank s b { bankOf s b with loaded := false } else s
    finish (imageRejected s x.kind n x.image) x.aseq (rejectedReply n)
  else match x.kind with
    | 1 => match idleSlot s with
      | (s, slot) => beginFlash (logImage s 1 slot (infoOf x.image)) x.aseq slot x.image
    | 2 =>
      let s := logImage s 1 x.target (infoOf x.image)
      finish (setBank s b (loadedBank (bankOf s b) x.image)) x.aseq {}
    | 3 => loadEngine (logImage s 1 x.target (infoOf x.image)) x.aseq x.target x.image
    | _ =>
      let s := logImage s 1 x.target (infoOf x.image)
      finish (s.withImg { s.img with staged := some (infoOf x.image) }) x.aseq {}

/-- The check at the head of the footing controller's queue ends (R593); none does while a slot is written or the
controller restarts. -/
def endFirstCheck (s : State) : State :=
  match s.img.checks with
  | [] => s
  | x :: xs =>
    if s.img.flashing.isSome || s.img.restart.isSome then s
    else
      let s := s.withImg { s.img with checks := xs }
      endCheck (s.withSeq { s.seq with loading := xs.any (fun y => y.kind == 2) }) x

/-! Footing firmware (R596-R598). -/

/-- Writes a flash slot's record. -/
def setSlot (s : State) (k : Nat) (x : FlashSlot) : State :=
  s.withImg (if k = 0 then { s.img with slotA := x } else { s.img with slotB := x })

/-- A flash slot's record. -/
def slotAt (s : State) (k : Nat) : FlashSlot := if k = 0 then s.img.slotA else s.img.slotB

/-- FLASH_WRITE_COMPLETE (R597). -/
def execFlashWriteComplete (ok : Bool) (s : State) : Host.Outcome State Fault Refusal :=
  match s.img.flashing with
  | none => .next s
  | some (aseq, slot) =>
    let s := setSlot (s.withImg { s.img with flashing := none }) slot { slotAt s slot with bad := !ok }
    .next (finish s aseq (if ok then { result := slot } else err 4))

/-- FW_ACTIVATE (R582, R598): it waits while a check is running. -/
def execFwActivate (c : Cmd) (s : State) : Host.Outcome State Fault Refusal :=
  runCommand c 0x1003 (fun aseq s =>
    if !s.img.checks.isEmpty || s.img.flashing.isSome then .wait
    else match s.img.checked with
      | none => .done (err 5) s
      | some (i, slot) => .later (s.withImg { s.img with restart := some (aseq, i, slot) })) s

/-- FOOTING_RESTART_READY (R598): the new image is in force. -/
def execFootingRestartReady (s : State) : Host.Outcome State Fault Refusal :=
  match s.img.restart with
  | none => .next s
  | some (aseq, i, slot) =>
    let s := s.withImg { s.img with
      restart := none, running := i, pushed := slot == 2, runSlot := if slot = 2 then s.img.runSlot else slot }
    .next (finish (showKeyStatus (imageActivated s (if slot = 2 then 0xFFFF else slot) i)) aseq {})

/-- FOOTING_FALLBACK (R598): the previous image runs again, and footing-fallback names both versions. -/
def execFootingFallback (s : State) : Host.Outcome State Fault Refusal :=
  match s.img.restart with
  | none => .next s
  | some (aseq, i, _) =>
    let s := s.withImg { s.img with restart := none }
    let s := postEvent s 0x10 3 (origin s 19 5 0 0) (le 4 s.img.running.version ++ le 4 i.version)
    .next (finish s aseq (err 5))

/-! The log, identity and quotes (R599-R606). -/

/-- The index of the oldest entry held. -/
def oldestIndex (s : State) : Nat := (s.img.nextIndex + 2 ^ 32 - s.img.log.length) % 2 ^ 32

/-- The identity public key as an uncompressed point (R601). -/
def identityKey : Bytes := 4 :: (List.range 96).map Config.identityKeyByte

/-- Bytes 0 to 255 of a quote (R603). -/
def quoteBody (s : State) (nonce : Bytes) : Bytes :=
  le 4 0x544F5551 ++ le 2 1 ++ le 2 0 ++ cut nonce 0 32 ++ le 6 (deviceOrigin s) ++ le 2 0 ++
    le 8 Config.serialNumber.toNat ++ le 8 (timeNs s) ++ le 4 s.tbl.epoch ++ le 4 s.img.nextIndex ++ le 4 (oldestIndex s) ++
    le 4 0 ++ cut s.img.base 0 48 ++ cut s.img.m 0 48 ++ be 16 (deviceDigest (instDigests s) (regDigest s)) ++
    seedCommitment s ++ List.replicate 16 0

/-- ATTEST_QUOTE (R603, R604): bytes 0 to 255 are sampled, and the quote waits for its signature. -/
def execAttestQuote (c : Cmd) (nonce : Bytes) (addr : BitVec 64) (s : State) : Host.Outcome State Fault Refusal :=
  runCommand c 0x1004 (fun aseq s =>
    if s.img.quote.isSome then .wait
    else
      let q : Quote := { aseq := aseq, body := quoteBody s nonce, addr := addr.toNat, draw := s.free }
      .later ((draw s).2.withImg { s.img with quote := some q })) s

/-- QUOTE_SIGNED (R603): the signature is that of the identity key over the digest of bytes 0 to 255. -/
def execQuoteSigned (s : State) : Host.Outcome State Fault Refusal :=
  match s.img.quote with
  | none => .next s
  | some q =>
    if s.img.restart.isSome then .next s
    else
      let sig := (List.range 96).map (Config.ecdsaSignByte (sha384 q.body) q.draw)
      .next (finish (s.withImg { s.img with quote := none }) q.aseq { block := q.body ++ sig, addr := some q.addr })

/-- LOG_READ (R606): the entries held from the first index on, at most `count`, and B after them when the first index is the
oldest held. -/
def execLogRead (c : Cmd) (first : BitVec 32) (count : BitVec 8) (addr : BitVec 64) (s : State) :
    Host.Outcome State Fault Refusal :=
  runCommand c 0x1005 (fun _ s =>
    if count.toNat = 0 ∨ 50 < count.toNat then .done (err 2) s
    else
      let es := s.img.log.filter (fun e => decide (wrapSub 32 (leAt e 0 4) first.toNat < count.toNat))
      let b := if first.toNat = oldestIndex s ∧ !s.img.log.isEmpty then cut s.img.base 0 48 else []
      .done { block := es.flatten ++ b, addr := some addr.toNat } s) s

/-- ID_READ (R602, R606): serial number, identity public key, and the certificate if one is held. -/
def execIdRead (c : Cmd) (addr : BitVec 64) (s : State) : Host.Outcome State Fault Refusal :=
  runCommand c 0x1006 (fun _ s =>
    .done { block := le 8 Config.serialNumber.toNat ++ identityKey ++ s.img.cert, addr := some addr.toNat } s) s

/-- Version, SVN and digest of an image, zeros for none. -/
def infoBytes : Option ImgInfo → Bytes
  | some i => le 4 i.version ++ le 4 i.svn ++ cut i.digest 0 48
  | none => List.replicate 56 0

/-- The image of a bank. -/
def bankInfo (x : Bank) : Option ImgInfo :=
  if x.loaded then some { kind := 2, version := x.version, svn := x.svn, digest := x.digest } else none

/-- The SerDes image that a port runs (R581, R635). -/
def portImage (s : State) (p : Nat) : Option ImgInfo := (getAt none s.img.serdesPort p).or s.img.serdes

/-- IMG_STATUS (R606; log 44): footing image running and last checked, live and standby bank, staged SerDes image, that of
each port, stored engine images 0 to 15, the image of each logical engine, and the check each slot failed at boot. -/
def execImgStatus (c : Cmd) (addr : BitVec 64) (s : State) : Host.Outcome State Fault Refusal :=
  runCommand c 0x1007 (fun _ s =>
    let stored := (List.range 16).flatMap (fun k => infoBytes ((getAt none s.img.store k).map (·.info)))
    let map := (List.range 128).flatMap (fun n => le 1 ((engAt s n).image.getD 255))
    .done { addr := some addr.toNat
            block := infoBytes (some s.img.running) ++ infoBytes (s.img.checked.map (·.1)) ++
              infoBytes (bankInfo (bankOf s s.seq.live)) ++ infoBytes (bankInfo (bankOf s (1 - s.seq.live))) ++
              infoBytes s.img.staged ++ (List.range 96).flatMap (fun p => infoBytes (portImage s p)) ++ stored ++ map ++
              le 1 s.img.slotA.failed ++ le 1 s.img.slotB.failed } s) s

end Sys2Proof.Machine
end

