-- ==== Sys2Proof/Machine/Boot.lean ====
section
/-! DEFINITION. Resets, straps, the boot sequence and the traffic gate (R505, R565, R627-R641, R657-R661). -/

namespace Sys2Proof.Machine

/-! Straps (R5, R37, R295, R470, R630). -/

/-- MODE and ENABLE that a port profile gives a port (R37). -/
def profileMode (profile port : Nat) : Nat × Nat :=
  match profile with
  | 0 => (0, 1)
  | 1 => (3, 1)
  | 2 => (4, 1)
  | 3 => (5, 1)
  | 4 => (6, 1)
  | 5 => (if port < 48 then 0 else 4, 1)
  | 6 => (2, 1)
  | _ => (0, 0)

/-- The registers that reset to a strap take what the latched straps give them; a non-zero STRAP_OWN_PRIO is a standing bid
of the management master (R470). -/
def applyStraps (s : State) : State :=
  let s := setRegField (setRegField s .originStack 0 8 2 s.boot.stackId) .learnCfg 0 0 1 s.boot.learnMode
  let s := (List.range 96).foldl (fun s p =>
    let m := profileMode s.boot.portProfile p
    setRegField (setRegField s .portCfg p 0 3 m.1) .portCfg p 3 1 m.2) s
  if s.boot.ownPrio = 0 then s else writeOwnBid s 2 (5 * s.boot.ownPrio + 16)

/-- The latched straps. -/
def latchStraps (b : BootSt) (x : Straps) : BootSt :=
  { b with
    bootSrc := x.bootSrc.toNat, hostMode := x.hostMode.toNat, stackId := x.stackId.toNat, quoin := x.quoin
    ownPrio := x.ownPrio.toNat, learnMode := x.learnMode.toNat, portProfile := x.portProfile.toNat
    refclkSel := x.refclkSel.toNat }

/-! Footing reset (R565, R627-R629, R660, R661). -/

/-- What goes low on the pins, and the frames that are cut off, when everything outside the footing domain stops. -/
def cutFrames (s : State) : State :=
  s.buf.tx.foldl (fun s t => if t.2.isSome then emit s (.cutOff t.1) else s) s

/-- The pins of the footing domain at a footing reset: enables and ALIVE low, THERMTRIP_N released, pulses low. -/
def dropPins (s : State) : State :=
  let s := driveAlive (lowerRails s) false
  let s := if s.pwr.trip then emit s (.pin .thermtripN true) else s
  let s := if s.time.pps then emit s (.pin .pps false) else s
  s.time.pulses.foldl (fun s p => if p.2.level then emit s (.pin (.tp p.1) false) else s) s

/-- The footing reset: the whole device but fuses, the sticky record, the flash, and the levels of its inputs (R627). -/
def resetDevice (s : State) (cause code : Nat) : State :=
  let s := dropPins (cutFrames s)
  { State.reset with
    pending := s.pending
    out := s.out
    free := s.free
    stk := { State.reset.stk with aliveIn := s.stk.aliveIn }
    img := { State.reset.img with
      slotA := { State.reset.img.slotA with bad := s.img.slotA.bad }
      slotB := { State.reset.img.slotB with bad := s.img.slotB.bad } }
    boot := { State.reset.boot with stickyCause := cause, stickyCode := code } }

/-- The cause that a reset by FOOT_RST_N records: a thermal trip that it ends, and what a reset still held has recorded
already, stand (R628, R629). -/
def pinCause (s : State) : Nat × Nat :=
  if s.boot.phase = .reset then (s.boot.stickyCause, s.boot.stickyCode)
  else if s.boot.phase = .tripped then (2, 0)
  else (1, 0)

/-- FOOTING_RESET (R627, R628): VDD_FOOT rising loses the sticky record. -/
def execFootingReset (powerOn : Bool) (s : State) : Host.Outcome State Fault Refusal :=
  if powerOn then .next (resetDevice s 0 0) else .next (resetDevice s (pinCause s).1 (pinCause s).2)

/-- FOOTCLK_LOSS (R661): as FOOT_RST_N low. -/
def execFootclkLoss (s : State) : Host.Outcome State Fault Refusal :=
  .next (resetDevice s (pinCause s).1 (pinCause s).2)

/-- DEVICE_FATAL (R565, R629, R661): the cause, numbered from 1, is recorded and the footing reset follows; in a reset already
held the fatal cause is recorded; a reference that is absent at step 3 fails the boot. -/
def execDeviceFatal (code : Fin 4) (s : State) : Host.Outcome State Fault Refusal :=
  match s.boot.phase with
  | .ready | .training => .next (resetDevice s 3 (code.val + 1))
  | .reset => .next (s.withBoot { s.boot with stickyCause := 3, stickyCode := code.val + 1 })
  | .rails => if code.val = 3 then .next (setPhase (lowerRails s) .failed) else .next s
  | _ => .next s

/-! Rails (R657-R659). -/

/-- Notes the end of a step of R632, in cycles since the release. -/
def stepEnds (s : State) (k : Nat) : State :=
  s.withBoot { s.boot with stepTimes := setAt 0 s.boot.stepTimes k s.clk.cc }

/-- Raises the enables of a step (R659): both of step 1, or the one of a later step. -/
def raiseStep (s : State) (k : Nat) : State :=
  let s := s.withBoot { s.boot with railStep := k, nextRails := none }
  if k = 1 then emit (emit s (.pin (.railEn 0) true)) (.pin (.railEn 1) true) else emit s (.pin (.railEn k) true)

/-- Step 3 of R632 begins, and with it the rail enables. -/
def beginRails (s : State) : State := raiseStep (setPhase s .rails) 1

/-- The rails of a step, in the numbering of R657 from VDD_FOOT = 0. -/
def stepRails (k : Nat) : List Nat := if k = 1 then [2, 3] else [k + 2]

/-- The enable of a rail has been raised. -/
def railRaised (s : State) (rail : Nat) : Bool := (upFrom 1 s.boot.railStep).any (fun k => (stepRails k).contains rail)

/-- Ends the hold of R629. -/
def execThermalBootHoldEnd (s : State) : Host.Outcome State Fault Refusal :=
  let t := s.withBoot { s.boot with hot := false }
  if s.boot.phase = .hotHold then .next (beginRails t) else .next t

/-! Step 4 (R505, R632, R634, R637). -/

/-- Seeds and spreading keys are drawn and logged (R637, R599). -/
def drawSeeds (s : State) : State :=
  let (a, s) := draw s
  let (b, s) := draw s
  let (c, s) := draw s
  let (ea, s) := draw s
  let (eb, s) := draw s
  let s := s.withFs { s.fs with seedA := a, seedB := b, seedC := c, seedEA := ea, seedEB := eb }
  let s := s.withRegs { s.regs with hashDraw := s.free, hashKey := [] }
  logSeeds (s.withFree (s.free + 832))

/-- The address that footing firmware gives a subport (R649), its first byte at [7:0]. -/
def subportAddress (n : Nat) : Nat :=
  let x := Config.serialNumber.toNat
  leAt ([2, byteAt (le 3 x) 2, byteAt (le 3 x) 1, byteAt (le 3 x) 0] ++ be 2 n) 0 6

/-- The latencies that footing firmware writes into table 0x48: every valid mode and width code of every port, ASYM 0
(R416). -/
def latencyEntries : Store Ent :=
  (List.range 96).flatMap (fun p => (List.range 7).flatMap (fun m => (List.range 3).map (fun w =>
    let i := p * 32 + m * 4 + w
    (tableKey 0x48 0 i,
      { st := .valid 0, settled := true
        bytes := le 4 (Config.timeLatency i 0).toNat ++ le 4 (Config.timeLatency i 1).toNat ++ le 8 0 }))))

/-- Every block that the self-test checks, and every LPDDR6 channel, is asked to wake (R632). -/
def wakeAll (s : State) : State :=
  let ask (k : BlockKind) (n : Nat) (s : State) : State :=
    (List.range n).foldl (fun s i => wakeRequest s k [i] false) s
  ask .channel 32 (ask .course 28 (ask .engine 136 (ask .cluster 17 (ask .slice 17 s))))

/-- Step 4 of R632 begins. -/
def beginStepFour (s : State) : State :=
  let s := drawSeeds (setPhase s .training)
  let s := (List.range 384).foldl (fun s n => setReg s .subportMac n (subportAddress n)) s
  wakeAll (s.withTbl { s.tbl with ents := latencyEntries })

/-- RAIL_IN_RANGE (R659): the next step begins 100 µs after the last rail of a step is in range; after step 4 the boot goes
on. -/
def execRailInRange (rail : Fin 7) (s : State) : Host.Outcome State Fault Refusal :=
  if s.boot.phase ≠ .rails ∨ railRaised s rail.val = false then .next s
  else
    let ok := if s.boot.railsOk.contains rail.val then s.boot.railsOk else s.boot.railsOk ++ [rail.val]
    let s := s.withBoot { s.boot with railsOk := ok }
    if (stepRails s.boot.railStep).all (fun r => ok.contains r) ∧ s.boot.nextRails.isNone then
      if s.boot.railStep = 4 then .next (beginStepFour (stepEnds s 3))
      else .next (s.withBoot { s.boot with nextRails := some (s.clk.cc + 150000) })
    else .next s

/-- RAIL_TIMEOUT (R659): every enable falls, and the boot has failed. -/
def execRailTimeout (rail : Fin 7) (s : State) : Host.Outcome State Fault Refusal :=
  if s.boot.phase ≠ .rails ∨ railRaised s rail.val = false ∨ s.boot.railsOk.contains rail.val = true then .next s
  else .next (setPhase (lowerRails s) .failed)

/-- The next step of enables, once its 100 µs have passed (R659). -/
def railTick (s : State) : State :=
  match s.boot.nextRails with
  | some c => if c ≤ s.clk.cc ∧ s.boot.phase = .rails then raiseStep s (s.boot.railStep + 1) else s
  | none => s

/-- A channel that has failed boot training is retired, its band at the top of usable memory (R505, R507). -/
def retireAtBoot (s : State) (c : Nat) : State :=
  let s := s.withDdr { s.ddr with bootBands := s.ddr.bootBands + 1 }
  let base := 2 ^ 30 * usableGib s
  let s := retireBlk (setDdrCh s c { ddrCh s c with st := .retired, band := base }) .channel c
  postEvent s 0x0C 3 (ddrOrigin s c 0) (le 8 base ++ le 8 0 ++ le 1 (retiredChannels s))

/-- BOOT_TRAINING_DONE (R505): DENSITY and RANKS are those of the devices found; more than four failed channels fail the
boot. -/
def execBootTrainingDone (density : Fin 5) (twoRanks : Bool) (failed : List (Fin 32)) (s : State) :
    Host.Outcome State Fault Refusal :=
  if s.boot.phase ≠ .training ∨ s.boot.trained = true then .next s
  else
    let bad := (List.range 32).filter (fun c => failed.any (fun f => f.val == c))
    let s := setRegField (setRegField s .ddrCfg 0 0 3 density.val) .ddrCfg 0 3 1 (flag twoRanks)
    if 4 < bad.length then .next (setPhase s .failed)
    else
      let good := (List.range 32).filter (fun c => !bad.contains c)
      let s := good.foldl (fun s c => setDdrCh s c { ddrCh s c with st := .inService, trainedAt := timeNs s }) s
      let s := bad.foldl retireAtBoot s
      .next (stepEnds (s.withBoot { s.boot with trained := true }) 4)

/-- A unit of the self-test by number: kind × 256 + unit, kinds 0 slice, 1 engine, 2 cluster, 3 course. -/
def testCode : TestUnit → Nat
  | .slice n => n.val
  | .engine n => 256 + n.val
  | .cluster n => 512 + n.val
  | .course p n => 768 + 7 * p.val + n.val

/-- BOOT_SELF_TEST_DONE (R634): the failed unit's spare takes its place before READY. -/
def execBootSelfTestDone (unit : TestUnit) (pass : Bool) (s : State) : Host.Outcome State Fault Refusal :=
  let u := testCode unit
  if s.boot.phase ≠ .training ∨ s.boot.tested.contains u = true ∨ s.boot.heldOut.contains u = true then .next s
  else .next (stepEnds (s.withBoot { s.boot with
    tested := s.boot.tested ++ [u], failed := if pass then s.boot.failed else s.boot.failed ++ [u] }) 4)

/-! Substitution at boot (R634). -/

/-- Notes that the spare of a failed unit took its place. -/
def noteSpared (s : State) (u : Nat) : State := s.withBoot { s.boot with spared := s.boot.spared ++ [u] }

/-- A failed slice: S16 takes its group, unless it has failed too or serves another; then the group is dark. -/
def bootSlice (s : State) (n : Nat) : State :=
  let s := retireBlk (setSlice s n { sliceAt s n with retired := true }) .slice n
  if n = 16 then s
  else if s.boot.failed.contains 16 || (servedGroup s 16).isSome then darken s n
  else noteSpared (joinGroup s n (some 16)) n

/-- A failed engine is retired; the logical engine that it served gets the lowest free spare, if there is one. -/
def bootEngine (s : State) (p : Nat) : State :=
  let n := (List.range 128).find? (fun n => physOf s n == some p)
  let s := retireBlk (setPhys s p .retired) .engine p
  match n with
  | none => s
  | some n =>
    match freeSpare s with
    | some q => noteSpared (mapEngine (setPhys s q .inUse) n q) (256 + p)
    | none => unmapEngine s n

/-- Failed units of a cluster: its engines are retired, and cluster 16 serves its logical cluster if no spare has failed. -/
def bootCluster (s : State) (p : Nat) : State :=
  let s := retireBlk (setCl s p { clAt s p with failed := true }) .cluster p
  let s := (upFrom (8 * p) 8).foldl (fun s e => setPhys s e .retired) s
  if p = 16 then s
  else if s.boot.failed.any (fun u => u == 528 || (decide (384 ≤ u) && decide (u < 392))) || !sparesFree s then
    setReg ((clusterEngines p).foldl unmapEngine s) .clusterMap p p
  else
    let s := setReg s .clusterMap p (16 + 32)
    noteSpared ((List.range 8).foldl (fun s e => mapEngine (setPhys s (128 + e) .inUse) (8 * p + e) (128 + e)) s) (512 + p)

/-- A failed course: course 6 of its pier serves its banks, unless it has failed too or serves another's. -/
def bootCourse (s : State) (u : Nat) : State :=
  let p := u / 7
  let k := u % 7
  let s := putBlk (setCourse s p k { courseOf s p k with retired := true }) .course u .retention
  if k = 6 ∨ (courseOf s p 6).standing.isSome ∨ s.boot.failed.contains (768 + 7 * p + 6) then s
  else noteSpared (setCourse s p 6 { courseOf s p 6 with standing := some k }) (768 + u)

/-- Every unit that has failed its self-test, or is not tested again, is retired and substituted, clusters first. -/
def bootSubstitute (s : State) : State :=
  let s := s.withBoot { s.boot with failed := s.boot.heldOut ++ s.boot.failed }
  let of (k : Nat) : List Nat := (s.boot.failed.filter (fun u => u / 256 == k)).map (· % 256)
  (of 3).foldl bootCourse ((of 0).foldl bootSlice ((of 1).foldl bootEngine ((of 2).foldl bootCluster s)))

/-! Step 2 and step 3 (R596, R602, R631, R636). -/

/-- The footing firmware starts from a slot, or from a push, 2 (R594, R596, R599, R602). -/
def startFooting (s : State) (image : Bytes) (slot : Nat) (cert : Bytes) : State :=
  let i := infoOf image
  let (v, s) := if slot = 2 then draw s else (BitVec.ofNat 64 slot, s)
  let s := stepEnds s 2
  let s := s.withImg { s.img with
    running := i, runSlot := v.toNat % 2, pushed := slot == 2, checked := if slot = 2 then some (i, 2) else none
    cert := if Config.certKey cert = identityKey then cert else [] }
  let s := (List.range 4).foldl (fun s k => setReg s .imgSvnFloor k (leAt image (192 + 4 * k) 4)) s
  let s := logImage s 2 (if slot = 2 then 0xFFFF else slot) i
  let failed (s : State) (k : Nat) : State :=
    if (slotAt s k).failed = 0 then s
    else postEvent s 0x10 4 (origin s 19 5 0 0) (le 1 k ++ le 1 (slotAt s k).failed)
  let s := showKeyStatus (failed (failed s 0) 1)
  if s.boot.hot then setPhase s .hotHold else beginRails s

/-- The boot check of a flash slot, check 5 skipped; a slot whose last write failed does not pass it, at a check that the
spec leaves open (R596, R597; log 6). -/
def checkSlot (s : State) (k : Nat) (image : Bytes) : State :=
  let n := checkImage s 1 image false
  let (n, s) := if n = 0 ∧ (slotAt s k).bad then ((draw s).1.toNat % 8 + 1, (draw s).2) else (n, s)
  setRegField (setSlot s k { slotAt s k with failed := n, ok := n == 0 }) .bootStatus 0 (20 + k) 1 (flag (n == 0))

/-- The slot that starts: of those that passed the one with the higher SVN, then the higher version, then A (R596). -/
def bestSlot (s : State) (a b : ImgInfo) : Option Nat :=
  if s.img.slotA.ok ∧ s.img.slotB.ok then
    some (if a.svn < b.svn ∨ (a.svn = b.svn ∧ a.version < b.version) then 1 else 0)
  else if s.img.slotA.ok then some 0
  else if s.img.slotB.ok then some 1
  else none

/-- The boot from flash (R596, R631). -/
def bootFlash (s : State) (slotA slotB cert : Bytes) : State :=
  let s := checkSlot (checkSlot s 0 slotA) 1 slotB
  match bestSlot s (infoOf slotA) (infoOf slotB) with
  | some k => startFooting s (if k = 0 then slotA else slotB) k cert
  | none => setPhase s (if s.boot.bootSrc = 3 then .failed else .pushWait)

/-- FOOTING_RESET_RELEASE (R628-R632): straps latched, the sticky record copied and cleared, and the boot source taken. -/
def execFootingResetRelease (straps : Straps) (slotA slotB cert : Bytes) (hot : Bool) (s : State) :
    Host.Outcome State Fault Refusal :=
  if s.boot.phase ≠ .reset then .next s
  else
    let s := setRegField (setRegField s .bootStatus 0 4 4 s.boot.stickyCause) .bootStatus 0 8 8 s.boot.stickyCode
    let b := { latchStraps s.boot straps with hot := hot, stickyCause := 0, stickyCode := 0 }
    let s := stepEnds (applyStraps (s.withBoot b)) 1
    if b.bootSrc = 1 ∨ b.bootSrc = 2 then .next (setPhase s .pushWait) else .next (bootFlash s slotA slotB cert)

/-- BOOT_PUSH_GO (R636, R640): a write of BOOT_PUSH_CTRL with GO. -/
def execBootPushGo (m : Master) (certLen : BitVec 14) (s : State) : Host.Outcome State Fault Refusal :=
  if masterPresent s m.val then
    .next (fileAccess s m.val (Reg.off .bootPushCtrl 0) (fun s => writePushCtrl s m.val (65536 * certLen.toNat + 1)))
  else .next s

/-- The check of a push ends (R636). -/
def endPush (s : State) (image cert : Bytes) : State :=
  let i := image.take (regField s .bootPushLen 0 0 23)
  let c := cert.take (regField s .bootPushCtrl 0 16 14)
  let n := checkImage s 1 i false
  let s := setRegField s .bootStatus 0 16 4 n
  if n = 0 then startFooting (setRegField s .bootStatus 0 3 1 1) i 2 c else setPhase s .pushWait

/-- IMAGE_CHECK_DONE (R592, R593, R636): of the pushed image, which the operands give with its certificate, or else of the
image at the head of the footing controller's queue. -/
def execImageCheckDone (image cert : Bytes) (s : State) : Host.Outcome State Fault Refusal :=
  if s.boot.phase = .pushing then .next (endPush s image cert) else .next (endFirstCheck s)

/-! Step 5 (R635). -/

/-- The first image of a kind in the boot directory, whose end is kind 0. -/
def directoryImage (d : List (BitVec 8 × Bytes)) (kind : Nat) : Option Bytes :=
  ((d.takeWhile (fun e => e.1 != 0)).find? (fun e => e.1.toNat == kind)).map (·.2)

/-- A checked image of the directory is loaded: microcode into the live bank, the engine image for every logical engine, the
SerDes image for every port. -/
def loadKind (s : State) (kind : Nat) (i : Bytes) : State :=
  match kind with
  | 2 => setBank s s.seq.live (loadedBank {} i)
  | 3 =>
    let s := storeImage s 0 i
    (List.range 128).foldl (fun s n => loadImage (setEng s n { engAt s n with image := some 0 }) n) s
  | _ => s.withImg { s.img with serdes := some (infoOf i) }

/-- One kind of the boot directory: checked, logged and loaded, or rejected; BOOT_INFO tells which. -/
def bootKind (d : List (BitVec 8 × Bytes)) (s : State) (kind : Nat) : State :=
  match directoryImage d kind with
  | none => s
  | some i =>
    let n := checkImage s kind i true
    let s := s.withBoot { s.boot with dirResult := setAt 0 s.boot.dirResult kind (if n = 0 then 1 else 2 + 4 * n) }
    if n = 0 then loadKind (logImage s 1 0xFFFF (infoOf i)) kind i else imageRejected s kind n i

/-- The enabled ports with a SerDes image begin training: they are asked to wake, with the lanes that their subports use (R632,
R635). -/
def trainPorts (s : State) : State :=
  (List.range 96).foldl (fun s p => if (portWakes s p).isEmpty then s else wakePort s p (portWakes s p)) s

/-- BOOT_READY (R634, R635): spares take their places, the directory is loaded unless the boot was a push, and ports train. -/
def execBootReady (directory : List (BitVec 8 × Bytes)) (s : State) : Host.Outcome State Fault Refusal :=
  if s.boot.phase ≠ .training ∨ s.boot.trained = false then .next s
  else
    let s := bootSubstitute s
    let s := if s.img.pushed then s else [4, 2, 3].foldl (bootKind directory) s
    .next (trainPorts (setPhase (stepEnds s 5) .ready))

/-! Commands of group 0x12 (R638, R639, R641). -/

/-- BOOT_INFO (R641; log 46): straps, BOOT_STATUS, the end of each step in ns, the failed units with whether a spare took
their place, and the result of the directory kinds 2, 3 and 4. -/
def execBootInfo (c : Cmd) (addr : BitVec 64) (s : State) : Host.Outcome State Fault Refusal :=
  runCommand c 0x1201 (fun _ s =>
    let b := s.boot
    let straps := [b.bootSrc, b.hostMode, b.stackId, flag b.quoin, b.ownPrio, b.learnMode, b.portProfile, b.refclkSel]
    let units := b.failed.flatMap (fun u => le 1 (u / 256) ++ le 1 u ++ le 1 (flag (b.spared.contains u)))
    let images := [2, 3, 4].flatMap (fun k => le 1 (getAt 0 b.dirResult k % 4) ++ le 1 (getAt 0 b.dirResult k / 4))
    .done { addr := some addr.toNat
            block := straps.flatMap (le 1) ++ le 4 (regVal s .bootStatus 0) ++
              (upFrom 1 5).flatMap (fun k => le 8 (ccNs (getAt 0 b.stepTimes k))) ++ le 2 b.failed.length ++ units ++
              images } s) s

/-- The group of a home slice is served by a slice with a valid live bank (R634, R639). -/
def bankReady (s : State) (n : Nat) : Bool :=
  match servingSlice s n with
  | some k => (bankOf s s.seq.live).loaded && !bit (bankOf s s.seq.live).badSlices k
  | none => false

/-- What a full opening needs besides (R411, R639). -/
def fullReady (s : State) : Bool :=
  s.fs.formatted && (domainOf s.time (primaryDom s)).st != .acquire &&
    (List.range 128).all (fun n => (physOf s n).isNone || (engAt s n).image.isSome)

/-- TRAFFIC_OPEN (R638, R639): form 0 stateless, 1 full. -/
def execTrafficOpen (c : Cmd) (mask : BitVec 16) (form : BitVec 8) (s : State) : Host.Outcome State Fault Refusal :=
  runCommand c 0x1202 (fun _ s =>
    let ns := (List.range 16).filter (fun n => bit mask.toNat n)
    if 1 < form.toNat then .done (err 2) s
    else if !ns.all (bankReady s) || (form == 1 && !fullReady s) then .done (err 5) s
    else .done {} (ns.foldl (fun s n => setSlice s n { sliceAt s n with opened := form.toNat + 1 }) s)) s

/-- CORE_RESET (R551, R641): it begins 10 µs after acceptance. -/
def execCoreReset (c : Cmd) (s : State) : Host.Outcome State Fault Refusal :=
  runCommand c 0x1203 (fun _ s =>
    if s.stk.alive then .done (err 5) s
    else .done {} (s.withBoot { s.boot with coreReset := some (s.clk.cc + 15000) })) s

/-! Core reset (R627). -/

/-- The slices and courses that no core reset tests again: those retired in service, and those already held out (R634). -/
def heldUnits (s : State) : List Nat :=
  let ss := (List.range 17).filter (fun n => (sliceAt s n).retired && !s.boot.failed.contains n)
  let cs := (List.range 28).filter (fun u => (courseOf s (u / 7) (u % 7)).retired && !s.boot.failed.contains (768 + u))
  s.boot.heldOut ++ ss ++ cs.map (768 + ·)

/-- The registers of the footing domain: time, power and images, and the boot registers. -/
def keptRegs (s : State) : Store (BitVec 64) :=
  s.regs.applied.filter (fun p => p.1 / 2 ^ 20 == 0xB || p.1 / 2 ^ 20 == 0xD || p.1 / 2 ^ 20 == 0xF ||
    (match regAt p.1 with
      | some (r, _) => isBootReg r && r != .trafficStatus
      | none => false))

/-- What a core reset keeps: the footing domain, PCIe links and their masks (R627); the rate grid starts again (R666).  Checks and quotes under way end with
the commands that they serve. -/
def coreKept (s : State) : State :=
  { State.reset with
    pending := s.pending
    out := s.out
    free := s.free
    clk := { s.clk with grid := 0, refills := 0, intervals := 0 }
    time := s.time
    regs := { State.reset.regs with applied := keptRegs s }
    host := { State.reset.host with links := s.host.links, masked := s.host.masked }
    pwr := { State.reset.pwr with
      maxWait := s.pwr.maxWait, sensors := s.pwr.sensors, rails := s.pwr.rails, warned := s.pwr.warned
      critical := s.pwr.critical, railBad := s.pwr.railBad, highest := s.pwr.highest, trip := s.pwr.trip }
    stk := { State.reset.stk with aliveIn := s.stk.aliveIn }
    img := { s.img with
      store := [], serdes := none, serdesPort := [], checks := [], quote := none
      restart := s.img.restart.map (fun r => (0, r.2)), flashing := s.img.flashing.map (fun f => (0, f.2)) }
    boot := { s.boot with
      tested := [], failed := [], spared := [], heldOut := heldUnits s, dirResult := [], trained := false
      coreReset := none } }

/-- CORE_RESET_BEGIN (R627, R628, R637): everything outside the footing domain is reset, and the boot goes on at step 4;
the cause shown is 4. -/
def execCoreResetBegin (s : State) : Host.Outcome State Fault Refusal :=
  match s.boot.coreReset with
  | none => .next s
  | some _ =>
    let s := coreKept (cutFrames s)
    let s := setRegField (setRegField s .bootStatus 0 4 4 4) .bootStatus 0 8 8 0
    .next (beginStepFour (applyStraps s))

end Sys2Proof.Machine
end

