-- ==== Sys2Proof/Machine/Counters.lean ====
section
/-! DEFINITION. Samples of the fixed counters and of the performance counters, and PMC_CONTROL (R608-R617, R625). -/

namespace Sys2Proof.Machine

/-- One value of a counter group: a counter, or a gauge with its level and the index by which its changes are noted. -/
inductive GroupVal where
  | ctr (idx : Nat)
  | gauge (level touchNum touchIdx : Nat)
  deriving DecidableEq, Repr

/-- Counters of a range of indexes. -/
def ctrs (a n : Nat) : List GroupVal := (upFrom a n).map .ctr

/-- The values of the CLUSTER group of a logical cluster. -/
def clusterVals (s : State) (c : Nat) : List GroupVal :=
  let u := storeOccupancy s c
  let gauges := (List.range 4).map (readyDepth s c) ++ (List.range 17).map (laneDepth s c) ++ [u.1, u.2, waitingGroups s c]
  gauges.map (fun g => .gauge g 0 255) ++ ctrs 24 22

/-- An owner tag that allocates (R363). -/
def allocTag (t : Nat) : Bool := decide (t ≤ 0x10) || (decide (0x20 ≤ t) && decide (t ≤ 0xA7)) || t == 0xC0 || t == 0xC1

/-- An instance code of R263 that counters are kept for. -/
def tableInstance (i : Nat) : Bool := i == 0 || (decide (0x10 ≤ i) && decide (i < 0x18)) || (decide (0x20 ≤ i) && decide (i < 0x28))

/-- The values of a group in index order; `none` for an unknown kind or an instance out of range (R610, R625). -/
def groupVals (s : State) (kind num : Nat) : Option (List GroupVal) :=
  let upTo (n : Nat) (vs : List GroupVal) : Option (List GroupVal) := if num < n then some vs else none
  match kind with
  | 1 => upTo 384 (ctrs 0 40)
  | 2 => upTo 768 (ctrs 0 1)
  | 3 => upTo 96 (ctrs 0 3)
  | 4 => upTo 17 (ctrs 0 42)
  | 5 => upTo 65536 (ctrs 0 16)
  | 6 =>
    let d := (queueAt s num).depth
    upTo 6400 (ctrs 0 17 ++ [.gauge d num 17, .gauge (max d (getAt 0 s.ctr.peak num)) num 17])
  | 7 => if allocTag num then some (ctrs 0 2 ++ [.gauge (classUsed s (allocClass num)) (allocClass num) 2]) else none
  | 8 => upTo 128 (ctrs 0 10)
  | 9 => upTo 16 (clusterVals s num)
  | 10 => upTo 4 (ctrs 0 20)
  | 11 => if tableInstance num then some (ctrs 0 (if num = 0 then 5 else 2)) else none
  | 12 => upTo 1 (ctrs 0 4 ++ [.gauge (freeCells s) 0 4, .gauge (sharedCells s) 0 4] ++ ctrs 6 5)
  | 13 => upTo 2 (ctrs 0 1)
  | 14 => upTo 1 (ctrs 0 49)
  | 15 => upTo 32 (ctrs 0 5)
  | 16 => upTo 1 (ctrs 0 6 ++ [.gauge s.stk.copies 0 6])
  | _ => none

/-- Samples of the values of a group, in order. -/
def sampleVals (s : State) (kind num : Nat) : List GroupVal → State × List Nat
  | [] => (s, [])
  | v :: vs =>
    match (match v with
      | .ctr i => sampleCounter s kind num i
      | .gauge g m i => sampleGauge s kind m i g) with
    | (s, x) =>
      match sampleVals s kind num vs with
      | (s, xs) => (s, x :: xs)

/-- The WRAP bitmap of a group (R611). -/
def wrapMap (s : State) (kind num : Nat) (vs : List GroupVal) : Nat :=
  (List.range vs.length).foldl (fun m i => match vs.getD i (.gauge 0 0 0) with
    | .ctr k => if getAt false s.ctr.wrap (ctrKey kind num k) then m + 2 ^ i else m
    | .gauge _ _ _ => m) 0

/-- Clears the WRAP bits of a group (R611). -/
def clearWraps (s : State) (kind num : Nat) (vs : List GroupVal) : State :=
  vs.foldl (fun s v => match v with
    | .ctr k => s.withCtr { s.ctr with wrap := setAt false s.ctr.wrap (ctrKey kind num k) false }
    | .gauge _ _ _ => s) s

/-- One sample of a group: its block of R611; a QUEUE sample resets the peak to the present depth. -/
def sampleGroup (s : State) (kind num : Nat) (clear : Bool) (vs : List GroupVal) : State × Bytes :=
  let map := wrapMap s kind num vs
  match sampleVals s kind num vs with
  | (s, xs) =>
    let s := if clear then clearWraps s kind num vs else s
    let s := if kind = 6 then s.withCtr { s.ctr with peak := setAt 0 s.ctr.peak num (queueAt s num).depth } else s
    (s, le 2 kind ++ [0, 0] ++ le 4 num ++ le 8 (timeNs s) ++ le 4 s.tbl.epoch ++ le 2 xs.length ++ [0, 0] ++ le 8 map ++
      xs.flatMap (le 8))

/-- COUNTER_READ (R611, R625). -/
def execCounterRead (c : Cmd) (kind : BitVec 8) (num : BitVec 32) (clearWrap : BitVec 8) (addr : BitVec 64) (s : State) :
    Host.Outcome State Fault Refusal :=
  runCommand c 0x1101 (fun _ s =>
    match groupVals s kind.toNat num.toNat with
    | none => .done (err 2) s
    | some vs =>
      match sampleGroup s kind.toNat num.toNat (clearWrap != 0) vs with
      | (s, b) => .done { block := b, addr := some addr.toNat } s) s

/-- The groups of a scan list: kind and instance of each 8-B entry. -/
def scanList (b : Bytes) (n : Nat) : List (Nat × Nat) := (List.range n).map (fun i => (leAt b (8 * i) 2, leAt b (8 * i + 4) 4))

/-- The groups of a scan sampled in order, with their blocks (R613). -/
def scanGroups (s : State) (clear : Bool) : List (Nat × Nat) → State × Bytes
  | [] => (s, [])
  | g :: gs =>
    match sampleGroup s g.1 g.2 clear ((groupVals s g.1 g.2).getD []) with
    | (s, b) =>
      match scanGroups s clear gs with
      | (s, bs) => (s, b ++ bs)

/-- COUNTER_SCAN (R613, R625): `list` is what host memory holds at the list address. -/
def execCounterScan (c : Cmd) (list : Bytes) (count clearWrap : BitVec 8) (addr : BitVec 64) (s : State) :
    Host.Outcome State Fault Refusal :=
  runCommand c 0x1102 (fun _ s =>
    let gs := scanList list count.toNat
    if count = 0 ∨ 64 < count.toNat ∨ gs.any (fun g => (groupVals s g.1 g.2).isNone) then .done (err 2) s
    else match scanGroups s (clearWrap != 0) gs with
      | (s, b) => .done { block := b, addr := some addr.toNat } s) s

/-! Performance counters (R614-R617). -/

/-- The filters that the Filters column names for an event: privilege, master, address, class (R614). -/
def eventFilters (code : Nat) : Bool × Bool × Bool × Bool :=
  match code with
  | 0x02 | 0x03 | 0x04 | 0x05 | 0x06 | 0x11 | 0x12 => (false, false, false, true)
  | 0x07 | 0x09 | 0x0B => (true, false, true, false)
  | 0x08 => (false, false, true, true)
  | 0x0A => (true, false, true, true)
  | 0x0C => (true, true, false, true)
  | 0x0D => (false, true, false, false)
  | 0x0E | 0x0F => (false, true, true, false)
  | 0x10 => (false, false, true, false)
  | _ => (false, false, false, false)

/-- A counter has a filter enabled that its event does not name (R615). -/
def badFilter (s : State) (j : Nat) : Bool :=
  let fl := regVal s .pmcFilt j
  let have_ := eventFilters (regField s .pmcSel j 0 8)
  let cls := bits fl 8 8 != 0 || bits fl 16 8 != 0 || bit fl 24 || bits fl 32 16 != 0
  let adr := bit fl 7 || regVal s .pmcAddrBase j != 0 || regVal s .pmcAddrMask j != 0
  (bits fl 0 3 != 7 && !have_.1) || (bits fl 3 4 != 15 && !have_.2.1) || (adr && !have_.2.2.1) || (cls && !have_.2.2.2)

/-- The counters of a mask. -/
def maskPmcs (m : BitVec 64) : List Nat := (List.range 64).filter (fun j => m.getLsbD j)

/-- One action on a counter: 0 START, 1 STOP, 2 ZERO (R616; log 19). -/
def pmcAct (action start : Nat) (s : State) (j : Nat) : State :=
  let p := pmcAt s j
  match action with
  | 0 => setPmc s j { p with startAt := some start }
  | 1 => setPmc s j { p with running := false, startAt := none }
  | _ =>
    if pmcStopped p then
      let s := s.withCtr { s.ctr with recent := s.ctr.recent.filter (fun e => e.key != ctrKey 255 j 0) }
      setPmc s j { p with value := 0, wrap := false }
    else s

/-- PMC_CONTROL (R615, R616). -/
def execPmcControl (c : Cmd) (mask : BitVec 64) (action : BitVec 8) (start : BitVec 64) (s : State) :
    Host.Outcome State Fault Refusal :=
  runCommand c 0x1103 (fun _ s =>
    let js := maskPmcs mask
    if 2 < action.toNat ∨ (action = 0 ∧ js.any (badFilter s) = true) then .done (err 2) s
    else .done {} (js.foldl (pmcAct action.toNat start.toNat) s)) s

/-- PMC_START_TIME (R616): counters whose start time has come begin. -/
def execPmcStartTime (s : State) : Host.Outcome State Fault Refusal := .next (pmcStart s)

/-- Samples of performance counters in order: value, WRAP, running (R617). -/
def pmcEntries (s : State) : List Nat → State × Bytes
  | [] => (s, [])
  | j :: js =>
    let p := pmcAt s j
    match sampleCount s (ctrKey 255 j 0) p.value (2 ^ 48) with
    | (s, v) =>
      match pmcEntries s js with
      | (s, b) => (s, le 8 (v + 2 ^ 48 * flag p.wrap + 2 ^ 49 * flag p.running) ++ b)

/-- PMC_READ (R617, R625): completes with the sample time. -/
def execPmcRead (c : Cmd) (addr : BitVec 64) (s : State) : Host.Outcome State Fault Refusal :=
  runCommand c 0x1104 (fun _ s =>
    match pmcEntries s (List.range 64) with
    | (s, b) => .done { result := timeNs s, block := b, addr := some addr.toNat } s) s

end Sys2Proof.Machine
end

