-- ==== Sys2Proof/Machine/Issue.lean ====
section
/-! DEFINITION. How a thread issues an instruction (R303-R308, R345, R352): fetch, counters, faults, the boundary after
it, and what the instructions share. -/

namespace Sys2Proof.Machine

/-- An instruction (R307). -/
structure Ins where
  op : Nat
  rd : Nat
  ra : Nat
  rb : Nat
  useImm : Bool
  imm : Nat
  deriving DecidableEq, Repr

/-- The fields of an instruction word (R307). -/
def insOf (w : BitVec 64) : Ins :=
  let v := w.toNat
  { op := bits v 0 8, rd := bits v 8 5, ra := bits v 13 5, rb := bits v 18 5, useImm := bit v 23, imm := bits v 32 32 }

/-- The immediate sign-extended to 64 bits (R307). -/
def immVal (i : Ins) : Nat := if i.imm < 2 ^ 31 then i.imm else i.imm + 2 ^ 64 - 2 ^ 32

/-- Operand B: the immediate when I is set, else RB (R308). -/
def opB (x : Thread) (i : Ins) : Nat := if i.useImm then immVal i else regOf x i.rb

/-- The opcodes of R308. -/
def opKnown (op : Nat) : Bool :=
  op ≤ 0x13 || (0x20 ≤ op && op ≤ 0x26) || (0x30 ≤ op && op ≤ 0x37) || (0x40 ≤ op && op ≤ 0x44) ||
    (0x50 ≤ op && op ≤ 0x52) || (0x60 ≤ op && op ≤ 0x67) || op == 0x70 || (0x72 ≤ op && op ≤ 0x74) ||
    op == 0x7E || op == 0x7F

/-- The instruction word at a program counter. -/
def insAt (s : State) (n pc : Nat) : Ins := insOf (getAt 0 (engAt s n).imem pc)

/-- The task that a thread serves. -/
def servedTask (s : State) (n t : Nat) : Option (Nat × Task) :=
  match (threadAt s n t).task with
  | some id => (taskAt s id).map (fun x => (id, x))
  | none => none

/-- A performance event of a thread (R614, R615). -/
def threadEvent (s : State) (n t code addr : Nat) : PmcEvent :=
  let p := lastPhys s n
  let e : PmcEvent := { code := code, block := p / 8, unit := some (0x40 + p % 8), addr := some addr }
  match servedTask s n t with
  | some (_, x) => { e with plane := taskPlane x, master := taskMaster x, who := taskWho x }
  | none => e

/-- After an instruction: a step halts again, at once or, if the instruction blocks, when it completes (R352). -/
def afterStep (s : State) (n t : Nat) (stepping : Bool) : State :=
  if !stepping then s
  else
    let y := { threadAt s n t with stepping := false }
    match y.st with
    | .ready => setThread s n t { y with st := .halted, resume := .ready }
    | .idle => setThread s n t { y with st := .halted, resume := .idle }
    | .halted => setThread s n t y
    | _ => setThread s n t { y with haltReq := true }

/-- A thread may issue: READY on a mapped engine, with no halt to take effect first (R303, R347, R352). -/
def mayIssue (s : State) (n t : Nat) : Bool :=
  let x := threadAt s n t
  x.st == .ready && !x.haltReq && (physOf s n).isSome && x.task.isSome

/-- A thread issues the instruction at its program counter if the test holds for its opcode: it is counted, and takes
effect (R304, R350, R614).  A program counter outside instruction memory faults with IMEM_RANGE (R308). -/
def issue (s : State) (n t : Nat) (is : Nat → Bool) (eff : State → Thread → Ins → State) : State :=
  let x := threadAt s n t
  if !mayIssue s n t then s
  else if 8192 ≤ x.pc then afterStep (faultThread s n t 3) n t x.stepping
  else
    let i := insAt s n x.pc
    if !is i.op then s
    else
      let s := countPmc (count s 8 n 0 1) (threadEvent s n t 0x0A x.pc) 1
      afterStep (eff s x i) n t x.stepping

/-- A meaning whose row is one opcode. -/
def issueOp (s : State) (n : Fin 128) (t : Fin 8) (op : Nat) (eff : State → Thread → Ins → State) :
    Host.Outcome State Fault Refusal := .next (issue s n.val t.val (· == op) eff)

/-- The thread goes on to the next instruction with a register written. -/
def advance (x : Thread) (rd v : Nat) : Thread := { x.put rd v with pc := (x.pc + 1) % 2 ^ 64 }

/-- An ALU instruction (R306, R308): RD takes the result. -/
def alu (n t : Nat) (f : Thread → Ins → Nat) (s : State) (x : Thread) (i : Ins) : State :=
  setThread s n t (advance x i.rd (f x i))

/-- A branch (R308): where its condition holds the program counter moves by IMM. -/
def branch (n t : Nat) (cond : Nat → Nat → Bool) (s : State) (x : Thread) (i : Ins) : State :=
  setThread s n t { x with pc := (x.pc + if cond (regOf x i.ra) (regOf x i.rb) then immVal i else 1) % 2 ^ 64 }

/-- The bytes at a data address lie in data memory (R308). -/
def inDmem (a len : Nat) : Bool := decide (a + len ≤ 0x30000)

/-- Bytes of an engine's data memory. -/
def dmemBytes (s : State) (n a len : Nat) : Bytes := Memory.readN (engAt s n).dmem a len

/-- The data address RA + IMM (R308). -/
def dataAddr (x : Thread) (i : Ins) : Nat := (regOf x i.ra + immVal i) % 2 ^ 64

/-- A data-memory access of a size, which must lie in range and be aligned to it, or else faults with MEM_RANGE (R308,
R614). -/
def access (n t size : Nat) (eff : State → Thread → Ins → Nat → State) (s : State) (x : Thread) (i : Ins) : State :=
  let a := dataAddr x i
  if !inDmem a size || a % size != 0 then faultThread s n t 2
  else eff (countPmc s (threadEvent s n t 0x0B a) 1) x i a

/-- A load (R306, R308): the thread waits for its value. -/
def load (n t size : Nat) : State → Thread → Ins → State :=
  access n t size (fun s x i a =>
    setThread s n t { x with
      st := .waitMemory
      mem := some { rd := i.rd, value := BitVec.ofNat 64 (leVal (dmemBytes s n a size)), addr := 0, data := [], load := true } })

/-- A store (R308). -/
def store (n t size : Nat) : State → Thread → Ins → State :=
  access n t size (fun s x i a =>
    writeDmem (setThread s n t (advance x 0 0)) n a (le size (regOf x i.rb)))

/-- A data-memory error that the SECDED code corrects is written back and counted (R299). -/
def dmemCorrected (s : State) (n : Nat) (corrected : Bool) : State := count s 8 n 9 (flag corrected)

/-- An operation that leaves its thread in WAIT_MEMORY (R310): the register that its result goes to is noted. -/
def waitMemory (s : State) (n t : Nat) (i : Ins) : State :=
  setThread s n t { threadAt s n t with st := .waitMemory, rdWait := i.rd, mem := none }

/-- A flow-store or memory operation with its result known: value, and bytes to be written at a data address (R310). -/
def memOp (s : State) (n t : Nat) (i : Ins) (value addr : Nat) (data : Bytes) : State :=
  memResult (waitMemory s n t i) n t value addr data

/-- An operation of R310 with the task it serves: one of a kind not allowed faults with FS_DENIED. -/
def flowOp (n t : Nat) (kinds : List Nat) (eff : State → Thread → Ins → Nat → Task → State)
    (s : State) (x : Thread) (i : Ins) : State :=
  match servedTask s n t with
  | none => s
  | some (id, y) => if kinds.contains (taskKind y) then eff s x i id y else faultThread s n t 10

/-- The same, for an operation whose operands at data addresses lie in data memory, or else fault with MEM_RANGE: pairs
of address and length. -/
def flowOpIn (n t : Nat) (kinds : List Nat) (ranges : Thread → Ins → List (Nat × Nat))
    (eff : State → Thread → Ins → Nat → Task → State) : State → Thread → Ins → State :=
  flowOp n t kinds (fun s x i id y =>
    if (ranges x i).all (fun r => inDmem r.1 r.2) then eff s x i id y else faultThread s n t 2)

/-- Every kind of task. -/
def anyKind : List Nat := [1, 2, 3, 4, 5]

end Sys2Proof.Machine
end

