-- ==== Sys2Proof/Machine/FlowIsa.lean ====
section
/-! DEFINITION. The flow-store, table and policy operations and FRAME_SEND (R310, R311). -/

namespace Sys2Proof.Machine

/-- What FS_PROBE finds of a key: 0 absent, 1 tier A, 2 tier B, 3 pending insertion, with the record. -/
def probe (s : State) (key : Bytes) : Nat × Bytes :=
  match placeOfKey s key with
  | some (.hot n) => (if slotPend s n then 3 else 1, recAt s n)
  | some (.cold c) => (2, coldRec (coldAt s c))
  | none => (0, [])

/-- FS_PROBE. -/
def execFsProbe (en : Fin 128) (t : Fin 8) (s : State) : Host.Outcome State Fault Refusal :=
  issueOp s en t 0x60 (flowOpIn en.val t.val anyKind (fun x i => [(regOf x i.ra, 40), (regOf x i.rb, 128)])
    (fun s x i _ y =>
      let r := probe s (dmemBytes s en.val (regOf x i.ra) 40)
      memOp (touchRecord s (taskPlane y) (placeOfKey s (dmemBytes s en.val (regOf x i.ra) 40))) en.val t.val i r.1 (regOf x i.rb) r.2))

/-- FS_INSERT: the insertion's end gives the result. -/
def execFsInsert (en : Fin 128) (t : Fin 8) (s : State) : Host.Outcome State Fault Refusal :=
  issueOp s en t 0x61 (flowOpIn en.val t.val [1, 2, 5] (fun x i => [(regOf x i.ra, 128)])
    (fun s x i id _ =>
      startInsert (waitMemory s en.val t.val i) (dmemBytes s en.val (regOf x i.ra) 128) [] (.thread en.val t.val id)))

/-- The record that a task has inserted or names may have been promoted or demoted since: it is the one its key finds, with its
cold slot or its generation (R200, R310). -/
def writtenPlace (s : State) (w : RecRef) : Option RecPlace :=
  let r := if w.cold then coldRec (coldAt s w.slot) else recAt s w.slot
  if recGen r ≠ w.gen then none
  else match placeOfKey s (recKey r 0) with
    | some (.hot n) =>
      if (if w.cold then extCold (extAt s n) == some w.slot else n == w.slot) then some (.hot n) else none
    | some (.cold c) => if (if w.cold then c == w.slot else recGen (coldRec (coldAt s c)) == w.gen) then some (.cold c) else none
    | none => none

/-- A management task rewrites a record: its quarantine and its BAD mark end (R177, R194). -/
def rewritten (s : State) (kind : Nat) (at_ : RecPlace) : State :=
  if kind ≠ 5 then s
  else match at_ with
    | .hot n => modEntries s n (fun e => ixBit e 58 false)
    | .cold c => markBad s c (coldRec (coldAt s c)) false

/-- FS_WRITE: bytes 80 to 109 of the record. -/
def execFsWrite (en : Fin 128) (t : Fin 8) (s : State) : Host.Outcome State Fault Refusal :=
  issueOp s en t 0x62 (flowOpIn en.val t.val [1, 2, 4, 5] (fun x i => [(regOf x i.ra, 30)])
    (fun s x i _ y =>
      let b := dmemBytes s en.val (regOf x i.ra) 30
      let s := touchRecord s (taskPlane y) (y.written.bind (writtenPlace s))
      match y.written.bind (writtenPlace s) with
      | some (.hot n) =>
        memOp (rewritten (mirrorChange (setRec s n (paste (recAt s n) 80 b)) n 2) (taskKind y) (.hot n)) en.val t.val i 0 0 []
      | some (.cold c) =>
        memOp (rewritten (mirrorCold (modCold s c (fun r x => (paste r 80 b, x))) c 2) (taskKind y) (.cold c))
          en.val t.val i 0 0 []
      | none => memOp s en.val t.val i 1 0 []))

/-- What FS_DELETE does with the record of its key: it waits while the record is being promoted (R245, R247, R310). -/
def programDelete (s : State) (n t : Nat) (x : Thread) (i : Ins) (y : Task) : State :=
  let reason := if taskKind y = 5 then 2 else 4
  match delTarget s (dmemBytes s n (regOf x i.ra) 40) with
  | .missing => memOp s n t i 1 0 []
  | .busy => memOp s n t i 2 0 []
  | .promoted => waitMemory s n t i
  | .hot k => memOp (deleteSlot s k reason .none) n t i 0 0 []
  | .cold c => memOp (deleteCold s c reason .none) n t i 0 0 []

/-- FS_DELETE: returns when step 2 of R245 is complete. -/
def execFsDelete (en : Fin 128) (t : Fin 8) (s : State) : Host.Outcome State Fault Refusal :=
  issueOp s en t 0x63 (flowOpIn en.val t.val [1, 4, 5] (fun x i => [(regOf x i.ra, 40)])
    (fun s x i _ y => programDelete s en.val t.val x i y))

/-- A thread whose FS_DELETE waits for the end of a promotion tries again (R247). -/
def retryDelete (s : State) (n t : Nat) : State :=
  let x := threadAt s n t
  let i := insAt s n x.pc
  if x.st == .waitMemory && i.op == 0x63 then
    match servedTask s n t with
    | some (_, y) => programDelete s n t x i y
    | none => s
  else s

/-- The key bytes of the table that TBL_READ names; 0 for an indexed one. -/
def tblKeyLen (i : Ins) : Nat :=
  match tableInfo (bits i.imm 0 8) with
  | some t => t.keyLen
  | none => 0

/-- The entry that TBL_READ reads under the current epoch. -/
def tblEntry (s : State) (n : Nat) (x : Thread) (i : Ins) : Option Bytes :=
  let id := bits i.imm 0 8
  if tblKeyLen i = 0 then anyEntry s id (regOf x i.ra)
  else (hashedRead s s.tbl.epoch id (dmemBytes s n (regOf x i.ra) (tblKeyLen i))).map (·.2)

/-- TBL_READ. -/
def execTblRead (en : Fin 128) (t : Fin 8) (s : State) : Host.Outcome State Fault Refusal :=
  issueOp s en t 0x64 (flowOpIn en.val t.val anyKind
    (fun x i => (regOf x i.rb, 128) :: (if tblKeyLen i = 0 then [] else [(regOf x i.ra, tblKeyLen i)]))
    (fun s x i _ _ =>
      match tblEntry s en.val x i with
      | some b => memOp s en.val t.val i 1 (regOf x i.rb) (cut b 0 128)
      | none => memOp s en.val t.val i 0 0 []))

/-- The slot and generation of a fold task (R323). -/
def foldName (x : Task) : Nat × Nat := (leAt x.desc 24 4 % 2 ^ 25, leAt x.desc 28 2)

/-- FS_COUNTS (R240 step 1); without an open fold the counts are open values (log 6). -/
def execFsCounts (en : Fin 128) (t : Fin 8) (s : State) : Host.Outcome State Fault Refusal :=
  issueOp s en t 0x65 (flowOpIn en.val t.val [3] (fun x i => [(regOf x i.ra, 16)])
    (fun s x i _ y =>
      if (foldOf s (foldName y).1 (foldName y).2).isNone then
        match drawBytes s 16 with
        | (b, s) => memOp s en.val t.val i 0 (regOf x i.ra) b
      else match takeCounts s (foldName y).1 (foldName y).2 with
        | (s, p, b) => memOp s en.val t.val i 0 (regOf x i.ra) (le 8 p ++ le 8 b)))

/-- FS_FOLD_ADD (R240 steps 2 and 3). -/
def execFsFoldAdd (en : Fin 128) (t : Fin 8) (s : State) : Host.Outcome State Fault Refusal :=
  issueOp s en t 0x66 (flowOpIn en.val t.val [3] (fun x i => [(regOf x i.ra, 16)])
    (fun s x i _ y =>
      let a := regOf x i.ra
      let s := if (foldOf s (foldName y).1 (foldName y).2).isSome then
          closeFold s (foldName y).1 (foldName y).2 (leVal (dmemBytes s en.val a 8)) (leVal (dmemBytes s en.val (a + 8) 8))
        else s
      memOp s en.val t.val i 0 0 []))

/-- The bytes that MEM_READ reads: at most 1,024. -/
def memReadLen (i : Ins) : Nat := min (bits i.imm 0 11) 1024

/-- MEM_READ. -/
def execMemRead (en : Fin 128) (t : Fin 8) (s : State) : Host.Outcome State Fault Refusal :=
  issueOp s en t 0x67 (flowOpIn en.val t.val anyKind (fun x i => [(regOf x i.rb, memReadLen i)])
    (fun s x i _ _ =>
      match policyBytes s (regOf x i.ra) (memReadLen i) with
      | (b, s') =>
        let s := memOp s' en.val t.val i 0 (regOf x i.rb) b
        let y := threadAt s en.val t.val
        let a := (policyRegion s).1 + regOf x i.ra
        setThread s en.val t.val { y with mem := y.mem.map (fun m => { m with ddr := some (a, memReadLen i) }) }))

/-- MEMORY_OP_COMPLETE (R310): the result is written and the thread goes on; a MEM_READ of LPDDR6 data that is
uncorrectable or poisoned faults with OPERAND_ERROR (R502), and an error of data memory that is corrected counts (R299). -/
def execMemoryOpComplete (en : Fin 128) (t : Fin 8) (r : ReadOutcome) (s : State) : Host.Outcome State Fault Refusal :=
  match (threadAt s en.val t.val).mem with
  | some m =>
    let s := match m.ddr with
      | some d => ddrReadTask s (((servedTask s en.val t.val).map (fun y => taskPlane y.2)).getD 0) d.1 d.2 r
      | none => if m.load then s else dmemCorrected s en.val (r == .corrected)
    if m.load then .next s
    else if m.ddr.any (fun d => readsBad s d.1 d.2 r) then .next (faultThread s en.val t.val 13)
    else .next (writeDmem (resumeThread s en.val t.val m.rd m.value.toNat) en.val m.addr m.data)
  | none => .next (retryDelete s en.val t.val)

/-- FRAME_SEND (R311, R322): a frame of 60 to 2,044 B. -/
def execFrameSend (en : Fin 128) (t : Fin 8) (s : State) : Host.Outcome State Fault Refusal :=
  issueOp s en t 0x70 (fun s x i =>
    let n := en.val
    let len := regOf x i.rb
    if len < 60 ∨ 2044 < len then faultThread s n t.val 11
    else if !inDmem (regOf x i.ra) len then faultThread s n t.val 2
    else match servedTask s n t.val with
      | none => s
      | some (id, _) =>
        let r := Release.frame (bits i.imm 0 12) (bits i.imm 12 4) (dmemBytes s n (regOf x i.ra) len) (0x20 + lastPhys s n)
        let s := release (count s 8 n 8 1) (engPhys s n) id r
        memOp s n t.val { i with rd := 0 } 0 0 [])

end Sys2Proof.Machine
end

