-- ==== Sys2Proof/Machine/Isa.lean ====
section
/-! DEFINITION. The arithmetic, branch and data-memory instructions (R306-R309). -/

namespace Sys2Proof.Machine

/-! Arithmetic (R308): RD = RA op B. -/

/-- A two-operand instruction. -/
def binary (n : Fin 128) (t : Fin 8) (op : Nat) (f : Nat → Nat → Nat) (s : State) : Host.Outcome State Fault Refusal :=
  issueOp s n t op (alu n.val t.val (fun x i => f (regOf x i.ra) (opB x i)))

/-- NOP. -/
def execInstrNop (en : Fin 128) (t : Fin 8) (s : State) : Host.Outcome State Fault Refusal :=
  issueOp s en t 0x00 (fun s x _ => setThread s en.val t.val (advance x 0 0))

/-- ADD. -/
def execAdd (en : Fin 128) (t : Fin 8) (s : State) : Host.Outcome State Fault Refusal :=
  binary en t 0x01 (fun a b => a + b) s

/-- SUB. -/
def execSub (en : Fin 128) (t : Fin 8) (s : State) : Host.Outcome State Fault Refusal :=
  binary en t 0x02 (fun a b => a + 2 ^ 64 - b) s

/-- AND. -/
def execAnd (en : Fin 128) (t : Fin 8) (s : State) : Host.Outcome State Fault Refusal :=
  binary en t 0x03 (fun a b => a &&& b) s

/-- OR. -/
def execOr (en : Fin 128) (t : Fin 8) (s : State) : Host.Outcome State Fault Refusal :=
  binary en t 0x04 (fun a b => a ||| b) s

/-- XOR. -/
def execXor (en : Fin 128) (t : Fin 8) (s : State) : Host.Outcome State Fault Refusal :=
  binary en t 0x05 (fun a b => a ^^^ b) s

/-- SHL: by B[5:0]. -/
def execShl (en : Fin 128) (t : Fin 8) (s : State) : Host.Outcome State Fault Refusal :=
  binary en t 0x06 (fun a b => a * 2 ^ (b % 64)) s

/-- SHR. -/
def execShr (en : Fin 128) (t : Fin 8) (s : State) : Host.Outcome State Fault Refusal :=
  binary en t 0x07 (fun a b => a / 2 ^ (b % 64)) s

/-- SAR: the sign bit fills in. -/
def execSar (en : Fin 128) (t : Fin 8) (s : State) : Host.Outcome State Fault Refusal :=
  binary en t 0x08 (fun a b => ofSigned 64 (toSigned 64 a / ((2 ^ (b % 64) : Nat) : Int))) s

/-- MUL: the low 64 bits. -/
def execMul (en : Fin 128) (t : Fin 8) (s : State) : Host.Outcome State Fault Refusal :=
  binary en t 0x09 (fun a b => a * b) s

/-- MULHU: the high 64 bits, unsigned. -/
def execMulhu (en : Fin 128) (t : Fin 8) (s : State) : Host.Outcome State Fault Refusal :=
  binary en t 0x0A (fun a b => a * b / 2 ^ 64) s

/-- MIN, as signed numbers (log 62). -/
def execMin (en : Fin 128) (t : Fin 8) (s : State) : Host.Outcome State Fault Refusal :=
  binary en t 0x0B (fun a b => if toSigned 64 a ≤ toSigned 64 b then a else b) s

/-- MAX, as signed numbers (log 62). -/
def execMax (en : Fin 128) (t : Fin 8) (s : State) : Host.Outcome State Fault Refusal :=
  binary en t 0x0C (fun a b => if toSigned 64 a ≤ toSigned 64 b then b else a) s

/-- SEQ. -/
def execSeq (en : Fin 128) (t : Fin 8) (s : State) : Host.Outcome State Fault Refusal :=
  binary en t 0x0D (fun a b => flag (a == b)) s

/-- SLT, signed. -/
def execSlt (en : Fin 128) (t : Fin 8) (s : State) : Host.Outcome State Fault Refusal :=
  binary en t 0x0E (fun a b => flag (decide (toSigned 64 a < toSigned 64 b))) s

/-- SLTU, unsigned. -/
def execSltu (en : Fin 128) (t : Fin 8) (s : State) : Host.Outcome State Fault Refusal :=
  binary en t 0x0F (fun a b => flag (decide (a < b))) s

/-- MOVI. -/
def execMovi (en : Fin 128) (t : Fin 8) (s : State) : Host.Outcome State Fault Refusal :=
  issueOp s en t 0x10 (alu en.val t.val (fun _ i => immVal i))

/-- MOVHI: RD[31:0] is unchanged. -/
def execMovhi (en : Fin 128) (t : Fin 8) (s : State) : Host.Outcome State Fault Refusal :=
  issueOp s en t 0x11 (alu en.val t.val (fun x i => 2 ^ 32 * i.imm + regOf x i.rd % 2 ^ 32))

/-- The seed that FHASH takes (R309). -/
def fhashSeed (s : State) (x : Thread) (i : Ins) : BitVec 64 :=
  match bits i.imm 1 2 with
  | 0 => s.fs.seedA
  | 1 => s.fs.seedB
  | 2 => BitVec.ofNat 64 (regOf x i.rb)
  | _ => s.fs.seedC ^^^ BitVec.ofNat 64 (regOf x i.rb)

/-- FHASH (R309). -/
def execFhash (en : Fin 128) (t : Fin 8) (s : State) : Host.Outcome State Fault Refusal :=
  issueOp s en t 0x12 (fun s x i =>
    let a := regOf x i.ra
    if inDmem a 40 then
      let h := flowHash (dmemBytes s en.val a 40) (if bit i.imm 0 then polyB else polyA) (fhashSeed s x i)
      alu en.val t.val (fun _ _ => h.toNat) s x i
    else faultThread s en.val t.val 2)

/-- The bytes of a value in reverse order in a width of some bytes; the bits above stay (log 62). -/
def bswap (v bytes : Nat) : Nat := v / 2 ^ (8 * bytes) * 2 ^ (8 * bytes) + beVal (le bytes v)

/-- BSWAP. -/
def execBswap (en : Fin 128) (t : Fin 8) (s : State) : Host.Outcome State Fault Refusal :=
  issueOp s en t 0x13 (alu en.val t.val (fun x i =>
    bswap (regOf x i.ra) (if i.imm % 4 = 0 then 2 else if i.imm % 4 = 1 then 4 else 8)))

/-! Branches (R308). -/

/-- BR. -/
def execBr (en : Fin 128) (t : Fin 8) (s : State) : Host.Outcome State Fault Refusal :=
  issueOp s en t 0x20 (branch en.val t.val (fun _ _ => true))

/-- BEQ. -/
def execBeq (en : Fin 128) (t : Fin 8) (s : State) : Host.Outcome State Fault Refusal :=
  issueOp s en t 0x21 (branch en.val t.val (fun a b => a == b))

/-- BNE. -/
def execBne (en : Fin 128) (t : Fin 8) (s : State) : Host.Outcome State Fault Refusal :=
  issueOp s en t 0x22 (branch en.val t.val (fun a b => a != b))

/-- BLT, signed. -/
def execBlt (en : Fin 128) (t : Fin 8) (s : State) : Host.Outcome State Fault Refusal :=
  issueOp s en t 0x23 (branch en.val t.val (fun a b => decide (toSigned 64 a < toSigned 64 b)))

/-- BLTU, unsigned. -/
def execBltu (en : Fin 128) (t : Fin 8) (s : State) : Host.Outcome State Fault Refusal :=
  issueOp s en t 0x24 (branch en.val t.val (fun a b => decide (a < b)))

/-- CALL. -/
def execCall (en : Fin 128) (t : Fin 8) (s : State) : Host.Outcome State Fault Refusal :=
  issueOp s en t 0x25 (fun s x i =>
    setThread s en.val t.val { x.put i.rd ((x.pc + 1) % 2 ^ 64) with pc := (x.pc + immVal i) % 2 ^ 64 })

/-- JMP. -/
def execJmp (en : Fin 128) (t : Fin 8) (s : State) : Host.Outcome State Fault Refusal :=
  issueOp s en t 0x26 (fun s x i => setThread s en.val t.val { x with pc := regOf x i.ra })

/-! Data memory (R306, R308). -/

/-- LD8. -/
def execLd8 (en : Fin 128) (t : Fin 8) (s : State) : Host.Outcome State Fault Refusal :=
  issueOp s en t 0x30 (load en.val t.val 1)

/-- LD16. -/
def execLd16 (en : Fin 128) (t : Fin 8) (s : State) : Host.Outcome State Fault Refusal :=
  issueOp s en t 0x31 (load en.val t.val 2)

/-- LD32. -/
def execLd32 (en : Fin 128) (t : Fin 8) (s : State) : Host.Outcome State Fault Refusal :=
  issueOp s en t 0x32 (load en.val t.val 4)

/-- LD64. -/
def execLd64 (en : Fin 128) (t : Fin 8) (s : State) : Host.Outcome State Fault Refusal :=
  issueOp s en t 0x33 (load en.val t.val 8)

/-- ST8. -/
def execSt8 (en : Fin 128) (t : Fin 8) (s : State) : Host.Outcome State Fault Refusal :=
  issueOp s en t 0x34 (store en.val t.val 1)

/-- ST16. -/
def execSt16 (en : Fin 128) (t : Fin 8) (s : State) : Host.Outcome State Fault Refusal :=
  issueOp s en t 0x35 (store en.val t.val 2)

/-- ST32. -/
def execSt32 (en : Fin 128) (t : Fin 8) (s : State) : Host.Outcome State Fault Refusal :=
  issueOp s en t 0x36 (store en.val t.val 4)

/-- ST64. -/
def execSt64 (en : Fin 128) (t : Fin 8) (s : State) : Host.Outcome State Fault Refusal :=
  issueOp s en t 0x37 (store en.val t.val 8)

/-- LOAD_COMPLETE (R299, R306): the loaded value is written. -/
def execLoadComplete (en : Fin 128) (load : LoadEnd) (s : State) : Host.Outcome State Fault Refusal :=
  let t := load.thread.val
  match (threadAt s en.val t).mem with
  | some m =>
    if m.load then .next (resumeThread (dmemCorrected s en.val load.corrected) en.val t m.rd m.value.toNat) else .next s
  | none => .next s

end Sys2Proof.Machine
end

