-- ==== Sys2Proof/Machine/Sleep.lean ====
section
/-! DEFINITION. Blocks becoming ready, missing their exit latency, and falling asleep (R504, R517, R518, R525, R564). -/

namespace Sys2Proof.Machine

/-- The logical engine that a physical engine serves. -/
def servedBy (s : State) (p : Nat) : Option Nat := (List.range 128).find? (fun n => physOf s n == some p)

/-! Readiness (R517). -/

/-- BLOCK_READY (R337, R517, R567, R570): a power-gated engine has reloaded its image; a slice takes the group that waits
for it. -/
def execBlockReady (kind : BlockKind) (num : Nat) (s : State) : Host.Outcome State Fault Refusal :=
  let b := blkAt s kind num
  if b.st ≠ .waking then .next s
  else
    let s := blockReady s kind num
    match kind with
    | .slice => .next (sliceReady s num)
    | .engine =>
      match servedBy s num with
      | some n => if b.left = .powerGated then .next (loadImage s n) else .next s
      | none => .next s
    | _ => .next s

/-! Wake failures (R525, R564). -/

/-- A slice that fails to wake: a machine check whose event names no word; what stands in place of its address and parity
bits is open (log 6). -/
def failSlice (s : State) (n : Nat) : State :=
  let back := (blkAt s .slice n).left
  let (v, s) := draw s
  machineCheck (putBlk s .slice n back) n 0 (v.toNat % 65536) (v.toNat / 65536 % 256)

/-- A course that fails to wake: its retirement begins at once; course 6 can serve no more. -/
def failCourse (s : State) (u : Nat) : State :=
  let s := retireBlk s .course u
  if u % 7 = 6 then postNoSpare (setCourse s (u / 7) 6 { courseOf s (u / 7) 6 with retired := true }) 3 u
  else (retireCourse s (u / 7) (u % 7) 2 none).1

/-- An engine that fails to wake: an engine fault of the logical engine that it serves, or of the one that it was being
loaded for; the address of the event is open (log 6). -/
def failEngine (s : State) (p : Nat) : State :=
  let s := retireBlk s .engine p
  match servedBy s p with
  | some n =>
    let (v, s) := draw s
    engineFault s n 2 (v.toNat % 2 ^ 32)
  | none =>
    let s := setPhys s p .retired
    match (List.range 128).find? (fun n => (engAt s n).spare == some p) with
    | some n => substitute (setEng s n { engAt s n with spare := none }) n
    | none => s

/-- A cluster that fails to wake: a cluster fault of the logical cluster that it serves. -/
def failCluster (s : State) (p : Nat) : State :=
  let s := retireBlk s .cluster p
  match (List.range 16).find? (fun c => clusterPhys s c == some p) with
  | some c => clusterFault s c 0
  | none => setCl s p { clAt s p with failed := true }

/-- A block that has missed its exit latency twice is taken out of service as R564 states. -/
def wakeFailure (s : State) (kind : BlockKind) (num : Nat) : State :=
  match kind with
  | .lane => failLane (putBlk s .lane num .laneSleep) num (some 0)
  | .port =>
    ((upFrom (8 * num) 8).filter (fun l => (blkAt s .lane l).st == .waking)).foldl (fun s l =>
      failLane (putBlk s .lane l .laneSleep) l (some 0)) (putBlk s .port num .portSleep)
  | .slice => failSlice s num
  | .course => failCourse s num
  | .channel => channelFault (retireBlk s .channel num) num 2
  | .cluster => failCluster s num
  | .engine => failEngine s num

/-- WAKE_LATE (R525, R530, R564): the first miss of the exit latency posts wake-late; the second is a wake failure, which
ends the POWER_WAKE commands that wait for the block with ERROR detail 5. -/
def execWakeLate (kind : BlockKind) (num : Nat) (s : State) : Host.Outcome State Fault Refusal :=
  let b := blkAt s kind num
  if b.st ≠ .waking then .next s
  else if b.late then
    let s := setBlk s kind num { b with wakers := [] }
    .next (finishAll (wakeFailure s kind num) (err 5) b.wakers)
  else .next (wakeLate s kind num)

/-! Entry conditions (R504, R517, R518). -/

/-- A lane is not in use: unused by the mode, failed, outside the width in force, or of a subport that may not come up. -/
def laneIdle (s : State) (l : Nat) : Bool :=
  match laneSub s l with
  | none => true
  | some n =>
    let x := subAt s n
    (laneAt s l).failed ||
      (!s.ft.recals.any (fun r => r.lane == l) &&
        (if x.up then !(usedLanes s n).contains l && x.stepTo.isNone && x.req.isNone
         else !linkWanted s n && !x.recUp && x.recovery.isNone))

/-- A port may sleep: all its lanes sleep, and it is disabled or every subport is administratively down. -/
def portIdle (s : State) (p : Nat) : Bool :=
  (upFrom (8 * p) 8).all (fun l => (blkAt s .lane l).st == .laneSleep) &&
    (regField s .portCfg p 3 1 == 0 || (upFrom (4 * p) 4).all (fun n => !subExists s n || (subAt s n).adminDown))

/-- A slice may rest: the ports of its group sleep or are down, and it holds no frame; S16 while it serves no group. -/
def sliceIdle (s : State) (n : Nat) : Bool :=
  !holdsFrame s n &&
    (match servedGroup s n with
    | some g => (upFrom (6 * g) 6).all (fun p => (blkAt s .port p).st == .portSleep ||
        (upFrom (4 * p) 4).all (fun k => !(subAt s k).up))
    | none => n == 16 && !s.ft.switch.any (fun m => m.dst == 16))

/-- A course holds no live region: course 6 while spare, courses 3 to 5 in half geometry, a retired one. -/
def courseIdle (s : State) (u : Nat) : Bool :=
  let x := courseOf s (u / 7) (u % 7)
  x.retired || (u % 7 == 6 && x.standing.isNone) || (s.fs.half && decide (3 ≤ u % 7) && decide (u % 7 < 6))

/-- An engine may be gated: every thread of it is IDLE, and it is not being loaded or tested. -/
def engineIdle (s : State) (p : Nat) (power : Bool) : Bool :=
  let g := regVal s .gateCfg 0
  (physAt s p == .inUse || physAt s p == .spare) &&
    (match servedBy s p with
    | some n => allIdle s n
    | none => true) &&
    (if power then bit g 31 && bits g 8 8 != 0 && decide (p < 128) else bits g 0 8 != 0)

/-- A cluster may be gated: every engine of it is, and its matching store is empty. -/
def clusterIdle (s : State) (p : Nat) (power : Bool) : Bool :=
  let g := regVal s .gateCfg 0
  (clAt s p).tasks.isEmpty &&
    (upFrom (8 * p) 8).all (fun e =>
      let b := (blkAt s .engine e).st
      b == .powerGated || b == .gone || (!power && b == .clockGated)) &&
    (if power then bit g 31 && bits g 24 7 != 0 else bits g 16 8 != 0)

/-- A channel may enter self-refresh: it is in service, and SR_IDLE_US is not 0 (R504). -/
def channelIdle (s : State) (c : Nat) : Bool :=
  (ddrCh s c).st == .inService && regField s .ddrPowerCfg 0 8 8 != 0

/-- The entry condition of a block's sleep state. -/
def blockIdle (s : State) (kind : BlockKind) (num : Nat) (power : Bool) : Bool :=
  match kind with
  | .lane => laneIdle s num
  | .port => portIdle s num
  | .slice => sliceIdle s num
  | .course => courseIdle s num
  | .channel => channelIdle s num
  | .cluster => clusterIdle s num power
  | .engine => engineIdle s num power

/-- Segment of self-refresh that an LPDDR6 address lies in (R497). -/
def segmentOf (s : State) (a : Nat) : Nat := a / (2 ^ 32 * channelGib s)

/-- A segment is refreshed: its LIVE bit is set, or it overlaps the tier-B regions or the policy region (R504). -/
def refreshed (s : State) (seg : Nat) : Bool :=
  let n := 2 ^ 32 * channelGib s
  bit (regField s .ddrPowerCfg 0 0 8) seg || overlaps (seg * n) n (tierBRegion s).1 (tierBRegion s).2 ||
    overlaps (seg * n) n (policyRegion s).1 (policyRegion s).2

/-- The bytes of a channel in segments that are not refreshed are lost: what they hold is open (R504; log 6). -/
def loseSegments (s : State) (c : Nat) : State :=
  (s.ddr.mem.filter (fun p =>
      let g := granulePlace s p.1 5 (ddrChannel p.1) p.1
      g.1 == c && !refreshed s (segmentOf s g.2))).foldl (fun s p =>
    let (v, s) := draw s
    s.withDdr { s.ddr with mem := Memory.writeN s.ddr.mem p.1 [v.truncate 8] }) s

/-- What a block loses on entry: an engine without power its memories, a cluster its scheduler, lock and channel state, a
channel the segments not refreshed (R517). -/
def sleepLoss (s : State) (kind : BlockKind) (num : Nat) (power : Bool) : State :=
  match kind with
  | .engine =>
    if power then match servedBy s num with
      | some n => setEng s n { engAt s n with imem := [], dmem := [] }
      | none => s
    else s
  | .cluster => if power then setCl s num { clAt s num with chans := [], locks := [] } else s
  | .channel => loseSegments s num
  | _ => s

/-- The state that a block enters. -/
def sleepTarget (kind : BlockKind) (power : Bool) : SleepSt :=
  if power && (kind == .cluster || kind == .engine) then .powerGated else kindSleep kind

/-- A block may pass from the lighter to the deeper state: it is clock-gated and not held or asked for. -/
def mayDeepen (s : State) (kind : BlockKind) (num : Nat) : Bool :=
  let b := blkAt s kind num
  b.st == .clockGated && !b.hold && !wakeQueued s kind num

/-- SLEEP_ENTRY (R504, R517, R518, R529): a block whose entry condition holds enters its sleep state, `power` the deeper one of
a cluster or engine; a queued wake request stands. -/
def execSleepEntry (kind : BlockKind) (num : Nat) (power : Bool) (s : State) : Host.Outcome State Fault Refusal :=
  let deep := sleepTarget kind power == .powerGated
  if kindCount kind ≤ num then .next s
  else if (maySleep s kind num || (deep && mayDeepen s kind num)) && blockIdle s kind num deep then
    .next (putBlk (sleepLoss s kind num deep) kind num (sleepTarget kind power))
  else .next s

end Sys2Proof.Machine
end

