-- ==== Sys2Proof/Machine/Stack.lean ====
section
/-! DEFINITION. Bond links and members of a stack (R531-R537, R551-R556): cells received, HELLO, credit, the choice of the
quoin, loss and isolation; and the mirror on the partner's side (R548-R550). -/

namespace Sys2Proof.Machine

/-! Credit (R536). -/

/-- Sends the cells that wait, in order, as far as credit reaches: a cell stays behind the cells of its class. -/
def drainWaiting (sub : Nat) : Nat → State → State
  | 0, s => s
  | n + 1, s =>
    let b := bondAt s sub
    match b.waiting.find? (fun w => 0 < b.credit.getD w.1 0) with
    | none => s
    | some w =>
      let rest := (takeFirst (fun x => x == w) b.waiting).map (·.2)
      drainWaiting sub n (sendCell (setBond s sub { b with waiting := (rest.getD []).filter (fun x => x.1 != w.1) }) sub w.1 w.2
        |> fun s => setBond s sub { bondAt s sub with waiting := rest.getD [] })

/-- Credit for each class arrives (R536). -/
def grantCredit (s : State) (sub : Nat) (gs : List Nat) : State :=
  let b := bondAt s sub
  let c := (List.range 4).map (fun k => satAdd 16 (b.credit.getD k 0) (gs.getD k 0))
  drainWaiting sub b.waiting.length (setBond s sub { b with credit := c })

/-- The four grants of 2 B each of a payload. -/
def grantsAt (pay : Bytes) (off : Nat) : List Nat := (List.range 4).map (fun k => leAt pay (off + 2 * k) 2)

/-- Returns the credit of cells that have been written or discarded; class 0 always holds credit (R536). -/
def returnCredit (s : State) (sub cls n : Nat) : State :=
  if cls = 0 ∨ n = 0 then s
  else
    let gs := (List.range 4).flatMap (fun k => le 2 (if k = cls then n else 0))
    sendCell s sub 0 (mkCell s 7 (bondAt s sub).peer 0 0 0 true true gs)

/-! Cells received (R533, R534, R537). -/

/-- The credit class of a cell's header. -/
def cellClass (cell : Bytes) : Nat := (byteAt cell 1).toNat / 64

/-- The payload of a cell, by the length of its header. -/
def cellPay (cell : Bytes) : Bytes := cut cell 16 (min 256 (leAt cell 2 2))

/-- A cell arrives on a bond link that is up: a bad CRC or an unknown kind is counted and its credit returned; a link that
is not in service takes only HELLO and LINK cells (R533, R534, R537). -/
def cellTaken (s : State) (sub : Nat) (cell : Bytes) (crcOk : Bool) : State × Bool :=
  let k := (byteAt cell 0).toNat
  if !(isBond s (sub / 4) && (subAt s sub).up) then (s, false)
  else if !crcOk then (returnCredit (count s 16 0 0 1) sub (cellClass cell) 1, false)
  else if k = 0 ∨ 8 < k then (returnCredit (count s 16 0 1 1) sub (cellClass cell) 1, false)
  else (s, (bondAt s sub).st == .service || k == 5 || k == 6)

/-- CREDIT (R536). -/
def execCredit (sub : SubNo) (cell : Bytes) (crcOk : Bool) (s : State) : Host.Outcome State Fault Refusal :=
  match cellTaken s sub.val cell crcOk with
  | (s, true) => .next (grantCredit s sub.val (grantsAt (cellPay cell) 0))
  | (s, false) => .next s

/-- LINK (R532): the payload is a shed handshake frame. -/
def execLink (sub : SubNo) (cell : Bytes) (crcOk : Bool) (s : State) : Host.Outcome State Fault Refusal :=
  match cellTaken s sub.val cell crcOk with
  | (s, true) => .next (receiveShed s sub.val (cellPay cell))
  | (s, false) => .next s

/-! The members and the quoin (R552-R556). -/

/-- A device can be reached: a bond link to it is in service (R553). -/
def reachable (s : State) (dev : Nat) : Bool := !(linksTo s dev).isEmpty

/-- The devices that this one reaches, itself included, as a bitmap. -/
def reachMap (s : State) : Nat :=
  (List.range 4).foldl (fun m d => m + 2 ^ d * flag (d == ownDev s || reachable s d)) 0

/-- The devices of a bitmap. -/
def devsOf (m : Nat) : List Nat := (List.range 4).filter (bit m)

/-- The origin code of a unit of the stack: 0 the Izral link, 1 mirror replication, 2 the quoin relay (R562). -/
def stackOrigin (s : State) (unit : Nat) : Nat := origin s 27 unit 0 0

/-- The relay's path is lost (R472, R556). -/
def relayLost (s : State) : State := pathLoss s 3

/-- The quoin of the stack and its term change (R552, R556): the relay's path is lost, and quoin-changed is posted where
another quoin was known. -/
def setQuoin (s : State) (q term : Nat) : State :=
  let former := s.stk.quoin
  let s := s.withStk { s.stk with quoin := some q, term := term }
  if former = some q then s
  else match former with
    | some f => postEvent (relayLost s) 0x0E 5 (stackOrigin s 2) (le 1 q ++ le 1 f ++ le 4 term)
    | none => s

/-- The relay of the quoin bids on this member as master 3, with RELAY_PRIO and the term as its nonce (R556). -/
def relayBids (s : State) : State :=
  match s.stk.quoin with
  | some q =>
    if s.stk.formed && q != ownDev s && !(s.own.owner == some 3) &&
        !s.own.bids.any (fun b => b.master == 3 && b.nonce == s.stk.term) then
      writeOwnBid (writeOwnNonce s 3 s.stk.term) 3 (regField s .stackCfg 0 4 4 + 16)
    else s
  | none => s

/-- A peer of the formed stack's quoin is a member; one that was not yet is announced (R561, R562). -/
def memberSeen (s : State) (dev : Nat) : State :=
  if bit s.stk.members dev then s
  else postEvent (s.withStk { s.stk with members := s.stk.members ||| 2 ^ dev }) 0x0E 2 (stackOrigin s 0)
    (le 1 dev ++ le 4 s.stk.term)

/-- Two quoins meet: the higher term stands, then the lower device number (R552).  Under one quoin a higher term is
taken over, and the relay's path is lost with the old one (R556). -/
def meetQuoin (s : State) (q term : Nat) : State :=
  match s.stk.quoin with
  | none => s
  | some own =>
    if own = q then
      if s.stk.term < term then relayLost (s.withStk { s.stk with term := term }) else s
    else if s.stk.term < term ∨ (s.stk.term = term ∧ q < own) then setQuoin s q term
    else s

/-- Posts bond-link: state 0 in service, 1 out of service, 2 MISMATCH; its cause code is a free value (R562; log 50). -/
def postBondLink (s : State) (sub code : Nat) : State :=
  match draw s with
  | (v, s) => postEvent s 0x0E 1 (subOrigin s sub) (le 1 code ++ le 1 (v.toNat % 256) ++ le 1 (bondAt s sub).peer)

/-- What HELLO says of the stack, for a link in service. -/
def helloStack (s : State) (sub : Nat) : State :=
  let b := bondAt s sub
  if s.stk.formed && bit b.peerQuoin 2 then
    let s := meetQuoin s (b.peerQuoin % 4) b.peerTerm
    let s := if s.stk.quoin = some (b.peerQuoin % 4) then memberSeen s b.peer else s
    if s.stk.quoin = some b.peer then relayBids s else s
  else s

/-- HELLO arrives (R537): the link is put in service, with the initial credit, or into MISMATCH. -/
def receiveBondHello (s : State) (sub : Nat) (pay : Bytes) : State :=
  let b := bondAt s sub
  let q := (byteAt pay 3).toNat
  let peer := (byteAt pay 1).toNat % 4
  let fits := (byteAt pay 0).toNat == regField s .originStack 0 0 8 && (byteAt pay 2).toNat == regField s .stackCfg 0 0 2 &&
    decide ((byteAt pay 1).toNat < 4) && peer != ownDev s
  let b' := { b with
    peer := peer, peerMode := (byteAt pay 2).toNat, peerQuoin := q % 4 + 4 * flag (bit q 7), peerStrap := bit q 6
    peerTerm := leAt pay 4 4 }
  if fits then
    if b.st = .service then helloStack (setBond s sub b') sub
    else
      let s := setBond s sub { b' with st := .service, credit := grantsAt pay 8, waiting := [] }
      helloStack (postBondLink s sub 0) sub
  else
    let s := setBond s sub { b' with st := .mismatch, waiting := [] }
    if b.st = .mismatch then s else postBondLink s sub 2

/-- BOND_HELLO (R537); a link that STACK_LEAVE has taken out stays out until its next link-up. -/
def execBondHello (sub : SubNo) (cell : Bytes) (crcOk : Bool) (s : State) : Host.Outcome State Fault Refusal :=
  match cellTaken s sub.val cell crcOk with
  | (s, true) =>
    if (bondAt s sub.val).left then .next s else .next (receiveBondHello s sub.val (cellPay cell))
  | (s, false) => .next s

/-- The payload of HELLO (R537). -/
def helloPayload (s : State) : Bytes :=
  let q := match s.stk.quoin with
    | some d => d + 128
    | none => 0
  le 1 (regField s .originStack 0 0 8) ++ le 1 (ownDev s) ++ le 1 (regField s .stackCfg 0 0 2) ++
    le 1 (q + 64 * flag s.boot.quoin) ++ le 4 s.stk.term ++
    (List.range 4).flatMap (fun k => le 2 (if k = 0 then max 16 (Config.bondGrant 0).toNat else (Config.bondGrant k).toNat))

/-- BOND_HELLO_SEND (R537). -/
def execBondHelloSend (sub : SubNo) (s : State) : Host.Outcome State Fault Refusal :=
  let b := bondAt s sub.val
  if isBond s (sub.val / 4) && (subAt s sub.val).up && !b.left then
    .next (sendCell s sub.val 0 (mkCell s 6 b.peer 0 0 0 true true (helloPayload s)))
  else .next s

/-- BOND_LINK_SILENCE (R537). -/
def execBondLinkSilence (sub : SubNo) (s : State) : Host.Outcome State Fault Refusal :=
  if isBond s (sub.val / 4) then .next (bondLeave s sub.val) else .next s

/-- The member joins the formed stack that a SEED cell's sender leads: SEED_S, the term, MODE and ALIVE (R542, R544, R551,
R561).  Payload: SEED_S, term, member bitmap (log 41). -/
def joinStack (s : State) (from_ : Nat) (pay : Bytes) : State :=
  let s := s.withStk { s.stk with
    formed := true, isolated := false, mode := regField s .stackCfg 0 0 2, quoin := some from_, term := leAt pay 8 4
    seedS := BitVec.ofNat 64 (leAt pay 0 8), members := (leAt pay 12 1) % 16 ||| 2 ^ ownDev s ||| 2 ^ from_ }
  relayBids (driveAlive s true)

/-- SEED (R544, R555): an isolated member joins only after FS_FORMAT. -/
def execSeed (sub : SubNo) (cell : Bytes) (crcOk : Bool) (s : State) : Host.Outcome State Fault Refusal :=
  match cellTaken s sub.val cell crcOk with
  | (s, true) =>
    if s.stk.isolated && s.stk.needFormat then .next s
    else .next (joinStack s (bondAt s sub.val).peer (cellPay cell))
  | (s, false) => .next s

/-- Sends SEED_S, the term and the members to a device (R544, R561; log 41). -/
def sendSeed (s : State) (dev : Nat) : State :=
  match linksTo s dev with
  | [] => s
  | l :: _ => sendCell s l 0 (mkCell s 8 dev 0 0 0 true true (le 8 s.stk.seedS.toNat ++ le 4 s.stk.term ++ le 1 s.stk.members))

/-! Frames held for the mirror (R549, R550). -/

/-- The frames of a hold are released. -/
def releaseHold (s : State) (h : MirrorHold) : State :=
  h.frames.foldl (fun s f => releaseParked s f (if h.cold then .cold h.slot else .hot h.slot)) s

/-- The holds that meet a test end, and their frames leave. -/
def endHolds (s : State) (p : MirrorHold → Bool) : State :=
  let hs := s.stk.holds.filter p
  hs.foldl releaseHold (s.withStk { s.stk with holds := s.stk.holds.filter (fun h => !p h) })

/-- MIRROR is cleared in the record of a forward key (R549). -/
def unmirror (s : State) (key : Bytes) : State :=
  match placeOfKey s key with
  | some (.hot n) => setRec s n (recSetMirror (recAt s n) false)
  | some (.cold c) => modCold s c (fun r x => (recSetMirror r false, x))
  | none => s

/-- A record stays unmirrored: cause 0 no acknowledgement, 1 NO_SPACE (R549, R562). -/
def recordUnmirrored (s : State) (w : MirrorWait) (cause : Nat) : State :=
  let key := cut w.payload 8 40
  postEvent (unmirror s key) 0x0E 7 (stackOrigin s 1) (cut w.payload 1 1 ++ key ++ le 1 cause)

/-! Loss of a member (R553-R555). -/

/-- Map entry e for the current epoch, where it is valid. -/
def mapNow (s : State) (e : Nat) : Option Nat :=
  let x := entAt s 0x51 0 e
  match x.st with
  | .valid _ => some (leAt x.bytes 0 4)
  | _ => none

/-- A map entry changes in the cycle, without the table joint (R554). -/
def mapChange (s : State) (e v : Nat) : State :=
  setEnt s 0x51 0 e { entAt s 0x51 0 e with bytes := le 4 v }

/-- Map entry e at the loss of m, and what became of it: 1 taken by its partner, 2 made LOCAL, 3 unmirrored (R554). -/
def mapLoss (m v : Nat) : Nat × Nat :=
  if mapOwner v = m then
    if mapMirrored v then (putBits (putBits v 0 2 (mapPartner v)) 4 1 0, 1)
    else if mapLocal v then (v, 0) else (putBits v 5 1 1, 2)
  else if mapPartner v = m ∧ mapMirrored v then (putBits v 4 1 0, 3)
  else (v, 0)

/-- The map entries at the loss of m, with how many fared each way (R554). -/
def mapLosses (m : Nat) : List Nat → State → State × List Nat
  | [], s => (s, [0, 0, 0, 0])
  | e :: es, s =>
    match mapLosses m es s with
    | (s, n) =>
      match mapNow s e with
      | none => (s, n)
      | some v =>
        let r := mapLoss m v
        if r.2 = 0 then (s, n) else (mapChange s e r.1, n.set r.2 (n.getD r.2 0 + 1))

/-- The bond subports toward a member. -/
def bondSubs (s : State) (m : Nat) : List Nat :=
  (s.stk.links.filter (fun e => isBond s (e.1 / 4) && e.2.peer == m)).map (·.1)

/-- The commands that wait for an answer of a lost member end with ERROR detail 5 (R557). -/
def endRelays (s : State) (m : Nat) : State :=
  let rs := s.stk.relays.filter (fun r => r.dev == m)
  let gone := fun (a : Nat) => rs.any (fun r => r.aseq == a)
  let moves := s.stk.moves.filter (fun x => x.src == m || x.dst == m || gone x.aseq)
  let s := s.withStk { s.stk with
    relays := s.stk.relays.filter (fun r => !gone r.aseq)
    moves := s.stk.moves.filter (fun x => !(x.src == m || x.dst == m || gone x.aseq))
    digests := s.stk.digests.filter (fun d => !gone d.aseq)
    serves := s.stk.serves.filter (fun v => v.dev != m) }
  ((rs.map (·.aseq)) ++ moves.map (·.aseq)).eraseDups.foldl (fun s a => finish s a (err 5)) s

/-- What was sent to a member and what came from it is forgotten: cells awaited from it, sequences, cells held (R549,
R554). -/
def forgetPeer (s : State) (m : Nat) : State :=
  s.withStk { s.stk with
    awaits := s.stk.awaits.filter (fun w => w.partner != m)
    txSeq := setAt 0 s.stk.txSeq m 0, rxSeq := setAt 0 s.stk.rxSeq m 0
    early := s.stk.early.filter (fun e => e.1 / 2 ^ 32 != m)
    relayIn := s.stk.relayIn.filter (fun e => e.1 / 2 ^ 32 != m) }

/-- The members left after a loss. -/
def without (members m : Nat) : Nat := members &&& (15 ^^^ 2 ^ m)

/-- A member is lost to this survivor (R552, R554, R556). -/
def loseMember (s : State) (m : Nat) : State :=
  match mapLosses m (List.range 64) s with
  | (s, n) =>
    let s := endHolds (forgetPeer s m) (fun h => h.partner == m)
    let s := (bondSubs s m).foldl (fun s sub => (flushSub s sub).1) s
    let s := s.withStk { s.stk with members := without s.stk.members m }
    let s := postEvent s 0x0E 3 (stackOrigin s 0) (le 1 m ++ le 4 s.stk.term)
    let s := postEvent s 0x0E 6 (stackOrigin s 1) (le 1 m ++ le 1 (n.getD 1 0) ++ le 1 (n.getD 2 0) ++ le 1 (n.getD 3 0))
    let s := if s.stk.quoin = some m then setQuoin s ((devsOf s.stk.members).headD (ownDev s)) ((s.stk.term + 1) % 2 ^ 32) else s
    endRelays s m

/-- A frame held for an acknowledgement is dropped by a member that has become isolated (R550, R555). -/
def dropHeld (s : State) (fid : Nat) : State := dropParked (count s 16 0 5 1) fid

/-- The member is isolated (R553, R555, R556). -/
def isolate (s : State) : State :=
  let s := postEvent s 0x0E 4 (stackOrigin s 0) (le 1 (reachMap s))
  let s := s.withStk { s.stk with formed := false, isolated := true, needFormat := true, quoin := none }
  let hs := s.stk.holds
  let s := hs.foldl (fun s h => h.frames.foldl dropHeld s) (s.withStk { s.stk with holds := [] })
  let ms := (devsOf s.stk.members).filter (fun m => m != ownDev s)
  let s := relayLost (ms.foldl (fun s m => endRelays (forgetPeer s m) m) s)
  s.withStk { s.stk with members := 0 }

/-- A partitioned member survives: its reachable set holds more than half of the membership, or half with the quoin
(R553). -/
def survives (s : State) : Bool :=
  let r := devsOf (reachMap s &&& s.stk.members)
  let n := (devsOf s.stk.members).length
  decide (n < 2 * r.length) || (2 * r.length == n && (match s.stk.quoin with
    | some q => r.contains q
    | none => false))

/-- MEMBER_LOSS (R553): LOSS_US after the last bond link to a member has left service. -/
def execMemberLoss (dev : Fin 4) (s : State) : Host.Outcome State Fault Refusal :=
  let m := dev.val
  if s.stk.formed && bit s.stk.members m && m != ownDev s && !reachable s m then
    if bit s.stk.aliveIn m then
      if survives s then
        .next (((devsOf s.stk.members).filter (fun d => d != ownDev s && !reachable s d)).foldl loseMember s)
      else .next (isolate s)
    else .next (loseMember s m)
  else .next s

/-- ALIVE_IN_CHANGE (R551). -/
def execAliveInChange (dev : Fin 4) (level : Bool) (s : State) : Host.Outcome State Fault Refusal :=
  .next (s.withStk { s.stk with aliveIn := putBits s.stk.aliveIn dev.val 1 (flag level) })

/-! The partner's side of the mirror (R548, R549). -/

/-- The forward key of an insertion in progress. -/
def insKey (s : State) (i : Insertion) : Bytes := recKey (if i.tierB then coldRec (coldAt s i.cold) else recAt s i.slot) 0

/-- A RECORD cell waits for its turn: an insertion of its key is in progress, or a deletion meets a promotion. -/
def recordBlocked (s : State) (pay : Bytes) : Bool :=
  let key := cut pay 8 40
  s.fs.ins.any (fun i => insKey s i == key) || (byteAt pay 0 == 3 && delTarget s key == .promoted)

/-- The copy that a changed record of its owner becomes: generation and owner device are this member's (R548). -/
def copyBytes (old new : Bytes) (dev : Nat) : Bytes :=
  paste (paste (cut new 0 128) 110 (cut old 110 2)) 123 (le 1 (putBits (recHits new) 4 2 dev))

/-- The copy's extension: its cold slot is this member's. -/
def copyExt (old new : Bytes) : Bytes := extSetCold (cut new 0 32) (extCold old)

/-- A record of this member's becomes the copy of an entry that has moved: it leaves its tenant's count for the copy count
(R548, R558). -/
def toCopy (s : State) (r : Bytes) : State :=
  if recOwner r = ownDev s then
    tenDown ((touch s 16 0 6).withStk { s.stk with copies := s.stk.copies + 1 }) (recTenant r)
  else s

/-- A change of a record by its owner is applied to the copy, in tier A and in tier B where it lies. -/
def updateCopy (s : State) (dev : Nat) (key r x : Bytes) : State :=
  let cold := coldOf s key
  let s := match placeOfKey s key with
    | some at_ => toCopy s (placeRec s at_)
    | none => s
  let s := match hotOf s key with
    | some n => setExt (setRec s n (copyBytes (recAt s n) r dev)) n (copyExt (extAt s n) x)
    | none => s
  match cold with
  | some c => modCold s c (fun r0 x0 => (copyBytes r0 r dev, copyExt x0 x))
  | none => s

/-- The copy of a key is marked as its owner's before it goes. -/
def markCopy (s : State) (dev : Nat) (key : Bytes) : State :=
  match delTarget s key with
  | .hot n => updateCopy s dev key (recAt s n) (extAt s n)
  | .cold c => updateCopy s dev key (coldRec (coldAt s c)) (coldExt (coldAt s c))
  | _ => s

/-- Applies a RECORD cell whose turn has come, and answers it; an INSERT is answered at the end of its insertion (R548,
R549).  A change of a record that has no copy has no effect. -/
def applyRecord (s : State) (link dev seq : Nat) (pay : Bytes) : State :=
  let r := cut pay 8 128
  let x := cut pay 136 32
  let key := recKey r 0
  let known := (placeOfKey s key).isSome
  match (byteAt pay 0).toNat with
  | 1 => if known then ackRecord (updateCopy s dev key r x) link dev seq 0 else startInsert s r x (.mirror link dev seq)
  | 2 => ackRecord (updateCopy s dev key r x) link dev seq 0
  | 3 =>
    let s := markCopy s dev key
    let s := match delTarget s key with
      | .hot n => deleteSlot s n 2 .none
      | .cold c => deleteCold s c 2 .none
      | _ => s
    ackRecord s link dev seq 0
  | _ => ackRecord s link dev seq 0

/-- The key of a held RECORD cell. -/
def earlyKey (dev seq : Nat) : Nat := 2 ^ 32 * dev + seq

/-- The cells of a member whose turn has come are applied in ascending sequence (R549). -/
def applyEarly (dev : Nat) : Nat → State → State
  | 0, s => s
  | n + 1, s =>
    let seq := getAt 0 s.stk.rxSeq dev
    match getAt [] s.stk.early (earlyKey dev seq) with
    | [] => s
    | b =>
      if recordBlocked s (b.drop 2) then s
      else
        let s := s.withStk { s.stk with
          early := setAt [] s.stk.early (earlyKey dev seq) [], rxSeq := setAt 0 s.stk.rxSeq dev ((seq + 1) % 2 ^ 32) }
        applyEarly dev n (applyRecord s (leAt b 0 2) dev seq (b.drop 2))

/-- The held cells of every member whose turn has come. -/
def applyAll (s : State) : State := (List.range 4).foldl (fun s d => applyEarly d (s.stk.early.length + 1) s) s

/-- A RECORD cell of a member (R549, R555): one already applied is acknowledged as a duplicate; up to 4,096 wait for an
earlier one. -/
def receiveRecord (s : State) (sub : Nat) (cell : Bytes) : State :=
  let dev := (bondAt s sub).peer
  let seq := leAt cell 4 4
  let s := returnCredit s sub (cellClass cell) 1
  let d := wrapSub 32 seq (getAt 0 s.stk.rxSeq dev)
  if s.stk.isolated then count s 16 0 5 1
  else if 2 ^ 31 ≤ d then ackRecord s sub dev seq 2
  else if getAt [] s.stk.early (earlyKey dev seq) ≠ [] then applyAll s
  else if d ≠ 0 ∧ 4096 ≤ (s.stk.early.filter (fun e => e.1 / 2 ^ 32 == dev)).length then s
  else
    applyAll (s.withStk { s.stk with
      early := setAt [] s.stk.early (earlyKey dev seq) (le 2 sub ++ cut (cellPay cell) 0 168) })

/-- RECORD (R549). -/
def execRecord (sub : SubNo) (cell : Bytes) (crcOk : Bool) (s : State) : Host.Outcome State Fault Refusal :=
  match cellTaken s sub.val cell crcOk with
  | (s, true) => .next (receiveRecord s sub.val cell)
  | (s, false) => .next s

/-- INSERTION_END (R175, R181); RECORD cells that waited for it are applied (R549). -/
def execInsertionEnd (id : Nat) (s : State) : Host.Outcome State Fault Refusal := .next (applyAll (insertionEnd s id))

end Sys2Proof.Machine
end

