-- ==== Sys2Proof/Machine/StackCmds.lean ====
section
/-! DEFINITION. Frames from other members (R535-R540, R545), relayed commands (R557), map moves (R558), the comparison of
digests (R559) and the stack commands (R561). -/

namespace Sys2Proof.Machine

/-! Frames (R535, R536, R538, R540, R545). -/

/-- The cells of a frame make a whole sequence: one number, FIRST on the first and LAST on the last only (R535). -/
def cellsWhole : List Bytes → Bool
  | [] => false
  | c :: cs =>
    let num := leAt c 4 4
    bit (byteAt c 1).toNat 4 && (c :: cs).all (fun x => byteAt x 0 == 1 && leAt x 4 4 == num) &&
      cs.all (fun x => !bit (byteAt x 1).toNat 4) &&
      ((c :: cs).dropLast.all (fun x => !bit (byteAt x 1).toNat 5)) &&
      bit (byteAt ((c :: cs).getLast?.getD []) 1).toNat 5

/-- A frame of another member meets the head queue of its bond port (R113, R540, R545). -/
def queueBond (s : State) (sub : Nat) (pfx bytes : Bytes) : State :=
  let port := sub / 4
  match servingSlice s (port / 6) with
  | none => count s 3 port 2 1
  | some n =>
    let x := sliceAt s n
    if n = 16 ∧ isAwake s .slice 16 = false then count s 3 port 2 1
    else if (sliceAt s (port / 6)).opened = 0 ∨ x.stopped = true ∨ portClosed s port = true then
      count s 3 port 1 1
    else if 256 ≤ (x.heads.getD (port % 6) []).length then count s 3 port 0 1
    else
      let f : Frame := { bytes := bytes, ingress := .bond sub, slice := n, arrival := timeNs s, tag := n, pfx := pfx }
      match bufferFrame s f with
      | (s, some fid) =>
        let x := sliceAt s n
        setSlice s n { x with heads := x.heads.set (port % 6) (x.heads.getD (port % 6) [] ++ [fid]) }
      | (s, none) => s

/-- A whole frame with its prefix (R538): an unknown purpose is misrouted; an isolated member drops what is steered to
it (R555). -/
def bondFrame (s : State) (sub : Nat) (d : Bytes) : State :=
  match (byteAt d 0).toNat with
  | 1 => if s.stk.isolated then count s 16 0 5 1 else queueBond s sub (cut d 0 16) (d.drop 16)
  | 2 => queueBond s sub (cut d 0 80) (d.drop 80)
  | _ => count s 16 0 3 1

/-- The FRAME cells of a frame arrive: cells with a bad CRC are discarded, a broken sequence is a torn frame, and the
credits go back when the frame is written or dropped (R533, R535, R536). -/
def frameCells (s : State) (sub : Nat) (cells : List (Bytes × Bool)) : State :=
  if (bondAt s sub).st ≠ .service ∨ (subAt s sub).up = false ∨ isBond s (sub / 4) = false then s
  else
    let good := (cells.filter (·.2)).map (·.1)
    let bad := cells.length - good.length
    let s := if bad = 0 then s else count s 16 0 0 bad
    let s := if cellsWhole good && bad == 0 then bondFrame s sub (good.flatMap cellPay) else count s 16 0 2 1
    returnCredit s sub (cellClass ((cells.map (·.1)).headD [])) cells.length

/-- DELIVER (R540). -/
def execDeliver (sub : SubNo) (cells : List (Bytes × Bool)) (s : State) : Host.Outcome State Fault Refusal :=
  .next (frameCells s sub.val cells)

/-- STEER (R545). -/
def execSteer (sub : SubNo) (cells : List (Bytes × Bool)) (s : State) : Host.Outcome State Fault Refusal :=
  .next (frameCells s sub.val cells)

/-! Messages to other members (R557; log 40, log 41). -/

/-- Sends a message to a member and waits for the answer under a new tag. -/
def askMember (s : State) (dev kind part aseq addr : Nat) (data : Bytes) : State :=
  let tag := s.stk.nextTag
  let s := s.withStk { s.stk with
    nextTag := (tag + 1) % 2 ^ 32
    relays := s.stk.relays ++ [{ tag := tag, dev := dev, aseq := aseq, kind := part, addr := addr }] }
  relayTo s dev kind tag 0 data

/-- A descriptor with an inline payload (R445). -/
def innerDesc (op seq : Nat) (pay : Bytes) : Bytes :=
  le 2 op ++ [1, 0, 0, 0] ++ le 2 pay.length ++ le 4 seq ++ List.replicate 20 0 ++ cut pay 0 32

/-- Asks a member to write a value into a map entry (R558). -/
def askMap (s : State) (aseq e v dev : Nat) : State :=
  askMember s dev 0 2 aseq 0 (innerDesc 0x0701 aseq (le 4 0x51 ++ le 4 e ++ le 4 v))

/-! Map moves (R558). -/

/-- The records of a map entry that this device owns: their bytes and extensions, and where they lie. -/
def entryRecords (s : State) (e : Nat) : List (RecPlace × Bytes × Bytes) :=
  let mine := fun (r : Bytes) => mapIndex s (recKey r 0) == e && recOwner r == ownDev s
  let hot := s.fs.recs.filterMap (fun p =>
    let r := recAt s p.1
    if mine r && slotLive s p.1 && !slotPend s p.1 then some (RecPlace.hot p.1, r, extAt s p.1) else none)
  let cold := s.fs.cold.filterMap (fun p =>
    let b := coldAt s p.1
    if coldLive b && mine (coldRec b) && !s.fs.dels.any (fun d => d.tierB && d.slot == p.1)
    then some (RecPlace.cold p.1, coldRec b, coldExt b) else none)
  hot ++ cold

/-- One record goes to the new owner of its entry, with MIRROR set so that its changes follow. -/
def sendMoved (e dst : Nat) (s : State) (p : RecPlace × Bytes × Bytes) : State :=
  let s := match p.1 with
    | .hot n => setRec s n (recSetMirror (recAt s n) true)
    | .cold c => modCold s c (fun r x => (recSetMirror r true, x))
  sendRecord s 1 e dst (recSetMirror p.2.1 true) p.2.2 true

/-- The former owner sends every record of an entry (R558 step 2). -/
def sendEntry (s : State) (e dst : Nat) : State := (entryRecords s e).foldl (sendMoved e dst) s

/-- Records of an entry are still on their way. -/
def entryMoving (s : State) (e : Nat) : Bool := s.stk.awaits.any (fun w => w.move && (byteAt w.payload 1).toNat == e)

/-- The entry's value at step 1, PARTNER the new owner and MIRRORED, and at step 3, OWNER the new owner with the former one
as its partner. -/
def moveValue (m : MoveWait) : Nat := if m.step = 1 then m.src + 4 * m.dst + 16 else m.dst + 4 * m.src + 16

/-- Writes a step's value on the given members, this one among them through its own table joint. -/
def beginStep (s : State) (m : MoveWait) (devs : List Nat) : State :=
  let others := devs.filter (· != ownDev s)
  let m := { m with left := others, localWrite := flag (devs.contains (ownDev s)) }
  let s := s.withStk { s.stk with moves := s.stk.moves.map (fun x => if x.aseq = m.aseq then m else x) }
  others.foldl (fun s d => askMap s m.aseq m.entry (moveValue m) d) s

/-- The own table write of a step starts once the instance is free (R258, R296). -/
def ownWrite (s : State) (m : MoveWait) : State :=
  if m.localWrite = 1 ∧ instBusy s 0 = false then
    let mark := fun (s : State) (k : Nat) =>
      s.withStk { s.stk with moves := s.stk.moves.map (fun x => if x.aseq = m.aseq then { x with localWrite := k } else x) }
    match updateEntry s m.aseq 0 0 0x51 m.entry (le 4 (moveValue m)) with
    | .done _ s => mark s 0
    | .later s => mark s 2
    | .wait => s
  else s

/-- A move goes on when its step is done: 1 PARTNER and MIRRORED everywhere, 2 the records, 3 OWNER on the new owner, 4
OWNER everywhere else (R558). -/
def advanceMove (aseq : Nat) : Nat → State → State
  | 0, s => s
  | n + 1, s =>
    match s.stk.moves.find? (fun m => m.aseq == aseq) with
    | none => s
    | some m =>
      let s := ownWrite s m
      let m := ((s.stk.moves.find? (fun x => x.aseq == aseq)).getD m)
      if m.left ≠ [] ∨ m.localWrite ≠ 0 then s
      else if m.step = 1 then
        let m := { m with step := 2 }
        if m.src = ownDev s then
          advanceMove aseq n (sendEntry (beginStep s m []) m.entry m.dst)
        else
          let s := s.withStk { s.stk with moves := s.stk.moves.map (fun x => if x.aseq = aseq then { m with left := [m.src] } else x) }
          askMember s m.src 4 2 aseq 0 (le 1 m.entry ++ le 1 m.dst)
      else if m.step = 2 then
        if m.src = ownDev s && entryMoving s m.entry then s
        else advanceMove aseq n (beginStep s { m with step := 3 } [m.dst])
      else if m.step = 3 then
        advanceMove aseq n (beginStep s { m with step := 4 } ((devsOf s.stk.members).filter (· != m.dst)))
      else finish (s.withStk { s.stk with moves := s.stk.moves.filter (fun x => x.aseq != aseq) }) aseq { result := m.count }

/-- Every move goes on as far as it can. -/
def advanceMoves (s : State) : State := s.stk.moves.foldl (fun s m => advanceMove m.aseq 8 s) s

/-- What this device sends for the quoin is acknowledged whole: it answers with the count (R558). -/
def endServes (s : State) : State :=
  let done := s.stk.serves.filter (fun v => !entryMoving s v.entry)
  let s := s.withStk { s.stk with serves := s.stk.serves.filter (fun v => entryMoving s v.entry) }
  done.foldl (fun s v => relayTo s v.dev 5 v.tag 0 (le 4 v.count)) s

/-- One more record of an entry has arrived at its new owner. -/
def countMoved (s : State) (e : Nat) : State :=
  s.withStk { s.stk with
    moves := s.stk.moves.map (fun m => if m.entry = e ∧ m.step = 2 then { m with count := m.count + 1 } else m)
    serves := s.stk.serves.map (fun v => if v.entry = e then { v with count := v.count + 1 } else v) }

/-- A move whose record is never acknowledged ends with ERROR detail 5. -/
def abandonMove (s : State) (e : Nat) : State :=
  let ms := s.stk.moves.filter (fun m => m.entry == e && m.step == 2)
  let s := s.withStk { s.stk with moves := s.stk.moves.filter (fun m => !(m.entry == e && m.step == 2)) }
  ms.foldl (fun s m => finish s m.aseq (err 5)) s

/-- RECORD_ACK (R549, R550, R558): NO_SPACE unmirrors the record; the frames held for it may go. -/
def receiveAckRecord (s : State) (dev : Nat) (cell : Bytes) : State :=
  let seq := leAt cell 4 4
  match takeFirst (fun w => w.partner == dev && w.seq == seq) s.stk.awaits with
  | none => s
  | some (w, rest) =>
    let s := s.withStk { s.stk with awaits := rest }
    let full := byteAt cell 8 == 1
    let s := if full then recordUnmirrored s w 1 else if w.move then countMoved s (byteAt w.payload 1).toNat else s
    advanceMoves (endServes (endHolds s (fun h => h.partner == dev && h.seq == seq)))

/-- RECORD_ACK (R549). -/
def execRecordAck (sub : SubNo) (cell : Bytes) (crcOk : Bool) (s : State) : Host.Outcome State Fault Refusal :=
  match cellTaken s sub.val cell crcOk with
  | (s, true) => .next (receiveAckRecord s (bondAt s sub.val).peer cell)
  | (s, false) => .next s

/-- A cell is sent again, on another link in service if there is one (R549). -/
def resendRecord (s : State) (w : MirrorWait) : State :=
  let links := linksTo s w.partner
  let link := ((links.filter (· != w.link)).head?.or links.head?).getD 384
  let s := s.withStk { s.stk with awaits := s.stk.awaits.map (fun x =>
    if x.partner = w.partner ∧ x.seq = w.seq then { x with tries := x.tries + 1, link := link } else x) }
  if link = 384 then s else sendCell s link 1 (mkCell s 2 w.partner 1 w.seq 0 true true w.payload)

/-- MIRROR_ACK_TIMEOUT (R549): three times the cell is sent again; then the record stays unmirrored and mirror-lost is
posted. -/
def execMirrorAckTimeout (dev : Fin 4) (seq : BitVec 32) (s : State) : Host.Outcome State Fault Refusal :=
  match takeFirst (fun w => w.partner == dev.val && w.seq == seq.toNat) s.stk.awaits with
  | none => .next s
  | some (w, rest) =>
    if w.tries ≤ 3 then .next (resendRecord s w)
    else
      let s := recordUnmirrored (s.withStk { s.stk with awaits := rest }) w 0
      let s := endHolds s (fun h => h.partner == dev.val && h.seq == seq.toNat)
      let s := if w.move then abandonMove s (byteAt w.payload 1).toNat else s
      .next (advanceMoves (endServes s))

/-- TABLE_FENCE_WAIT_END (R258); a map move that waited for its own write goes on (R558). -/
def execTableFenceWaitEnd (aseq : BitVec 32) (s : State) : Host.Outcome State Fault Refusal :=
  .next (advanceMoves (fenceWaitEnd s aseq.toNat false))

/-! STACK_DIGEST (R559). -/

/-- The digests of one table in a DIGEST_READ block: the offset after it, and its bytes (log 53). -/
def tableDigests (block : Bytes) : List Nat → Nat → List (Nat × Bytes)
  | [], _ => []
  | id :: ids, off =>
    let n := match tableInfo id with
      | some t => 16 * t.insts
      | none => 0
    (id, cut block off n) :: tableDigests block ids (off + n)

/-- The bitmap of the tables on which two blocks differ; table 0x48 is not compared (R559). -/
def differing (a b : Bytes) : Nat :=
  (((tableDigests a tableIds 36).zip (tableDigests b tableIds 36)).filter (fun p =>
    p.1.1 != 0x48 && p.1.2 != p.2.2)).foldl (fun n p => n ||| 2 ^ p.1.1) 0

/-- The result of STACK_DIGEST: the block of each member by ascending device number, then the bitmap (R451, R559; log 42). -/
def stackDigestBlock (answers : List (Nat × Bytes)) : Bytes :=
  let bs := (List.range 4).filterMap (fun d => (answers.find? (fun a => a.1 == d)).map (·.2))
  let d := bs.foldl (fun n a => bs.foldl (fun n b => n ||| differing a b) n) 0
  bs.flatten ++ le 32 d

/-- A member's answer to DIGEST_READ: with the last of them STACK_DIGEST completes. -/
def digestAnswer (s : State) (w : RelayWait) (block : Bytes) : State :=
  match s.stk.digests.find? (fun d => d.aseq == w.aseq) with
  | none => s
  | some d =>
    let d := { d with left := d.left.filter (· != w.dev), answers := d.answers ++ [(w.dev, block)] }
    if d.left = [] then
      finish (s.withStk { s.stk with digests := s.stk.digests.filter (fun x => x.aseq != d.aseq) }) d.aseq
        { block := stackDigestBlock d.answers, addr := some d.addr }
    else s.withStk { s.stk with digests := s.stk.digests.map (fun x => if x.aseq = d.aseq then d else x) }

/-- An answer of another kind than OK ends what waited for it with ERROR detail 5. -/
def partFails (s : State) (w : RelayWait) : State :=
  let s := s.withStk { s.stk with
    digests := s.stk.digests.filter (fun x => x.aseq != w.aseq), moves := s.stk.moves.filter (fun x => x.aseq != w.aseq) }
  finish s w.aseq (err 5)

/-- The answer to a relayed message: the inner completion and its result block, or the count of moved records (R557-R559). -/
def relayAnswer (s : State) (w : RelayWait) (kind : Nat) (d : Bytes) : State :=
  match w.kind with
  | 0 => finish s w.aseq { status := (byteAt d 6).toNat, result := leAt d 8 8, block := d, addr := some w.addr }
  | 1 => if byteAt d 6 == 0 then digestAnswer s w (d.drop 16) else partFails s w
  | _ =>
    if kind = 1 ∧ byteAt d 6 ≠ 0 then partFails s w
    else
      let n := if kind = 5 then leAt d 0 4 else 0
      advanceMoves (s.withStk { s.stk with moves := s.stk.moves.map (fun m =>
        if m.aseq = w.aseq then { m with left := m.left.filter (· != w.dev), count := m.count + n } else m) })

/-- A whole relayed message arrives (R557; log 40): 0 a command, which this device accepts as master 3, 1 a completion, 2 an
event, which is posted under the own EVT_ROUTE, 3 data for the staging SRAM, 4 a request to send the records of a map entry,
5 their count. -/
def relayMessage (s : State) (dev tag : Nat) (m : Bytes) : State :=
  let d := m.drop 1
  match (byteAt m 0).toNat with
  | 0 => (acceptDesc s .relay (cut d 0 64) tag).1
  | 2 => routeEvent s (byteAt d 0).toNat (byteAt d 1).toNat (leAt d 2 6) (leAt d 8 8) (d.drop 16)
  | 3 => s.withDma { s.dma with staging := Memory.writeN s.dma.staging (leAt d 0 8 % 2 ^ 24) (d.drop 8) }
  | 4 =>
    let e := (byteAt d 0).toNat % 64
    let s := s.withStk { s.stk with serves := s.stk.serves ++ [{ tag := tag, dev := dev, entry := e, count := 0 }] }
    endServes (sendEntry s e ((byteAt d 1).toNat % 4))
  | k =>
    match takeFirst (fun r => r.tag == tag && r.dev == dev) s.stk.relays with
    | some (w, rest) => relayAnswer (s.withStk { s.stk with relays := rest }) w k d
    | none => s

/-- RELAY (R535, R557): the cells of a message are put together, FIRST to LAST. -/
def receiveRelay (s : State) (sub : Nat) (cell : Bytes) : State :=
  let dev := (bondAt s sub).peer
  let tag := leAt cell 4 4
  let k := 2 ^ 32 * dev + tag
  let b := (byteAt cell 1).toNat
  let part := if bit b 4 then some [] else match getAt [] s.stk.relayIn k with
    | [] => none
    | p => some p
  match part with
  | none => s
  | some p =>
    let m := p ++ cellPay cell
    if bit b 5 then relayMessage (s.withStk { s.stk with relayIn := setAt [] s.stk.relayIn k [] }) dev tag m
    else s.withStk { s.stk with relayIn := setAt [] s.stk.relayIn k m }

/-- RELAY (R557). -/
def execRelay (sub : SubNo) (cell : Bytes) (crcOk : Bool) (s : State) : Host.Outcome State Fault Refusal :=
  match cellTaken s sub.val cell crcOk with
  | (s, true) => .next (receiveRelay s sub.val cell)
  | (s, false) => .next s

/-! Commands (R561). -/

/-- A device in reach has STRAP_QUOIN set, as its HELLO says. -/
def strapAt (s : State) (dev : Nat) : Bool :=
  if dev = ownDev s then s.boot.quoin else s.stk.links.any (fun e => e.2.st == .service && e.2.peer == dev && e.2.peerStrap)

/-- The quoin that R552 chooses among the devices in reach: the only one with STRAP_QUOIN, else the lowest number. -/
def chosenQuoin (s : State) : Nat :=
  let ds := devsOf (reachMap s)
  match ds.filter (strapAt s) with
  | [d] => d
  | _ => ds.headD (ownDev s)

/-- This device is the quoin of a formed stack. -/
def isQuoin (s : State) : Bool := s.stk.formed && s.stk.quoin == some (ownDev s)

/-- STACK_FORM (R542, R544, R551, R552, R561): SEED_S is drawn and sent, MODE is applied and ALIVE raised. -/
def execStackForm (c : Cmd) (s : State) : Host.Outcome State Fault Refusal :=
  runCommand c 0x0E01 (fun _ s =>
    if chosenQuoin s ≠ ownDev s then .done (err 5) s
    else match draw s with
      | (v, s) =>
        let ms := reachMap s
        let s := setQuoin s (ownDev s) ((s.stk.term + 1) % 2 ^ 32)
        let s := s.withStk { s.stk with
          formed := true, isolated := false, mode := regField s .stackCfg 0 0 2, seedS := v, members := ms }
        let s := ((devsOf ms).filter (· != ownDev s)).foldl sendSeed (logSeeds s)
        .done { result := ms } (driveAlive s true)) s

/-- STACK_JOIN (R555, R561). -/
def execStackJoin (c : Cmd) (dev : BitVec 8) (s : State) : Host.Outcome State Fault Refusal :=
  runCommand c 0x0E02 (fun _ s =>
    let d := dev.toNat
    if !isQuoin s then .done (err 5) s
    else if 4 ≤ d ∨ d = ownDev s then .done (err 2) s
    else if !reachable s d then .done (err 5) s
    else
      let s := memberSeen s d
      .done {} (sendSeed s d)) s

/-- STACK_LEAVE (R551, R561): ALIVE falls, and the bond links leave service until their next link-up. -/
def execStackLeave (c : Cmd) (s : State) : Host.Outcome State Fault Refusal :=
  runCommand c 0x0E03 (fun _ s =>
    let s := driveAlive s false
    let subs := (List.range 384).filter (fun n => isBond s (n / 4))
    let s := subs.foldl (fun s n =>
      let s := bondLeave s n
      setBond s n { bondAt s n with left := true }) s
    let ms := (devsOf s.stk.members).filter (· != ownDev s)
    let s := s.withStk { s.stk with formed := false, quoin := none, mode := 0, seedS := 0, members := 0 }
    let s := ms.foldl (fun s m => endRelays (endHolds (forgetPeer s m) (fun h => h.partner == m)) m) s
    .done {} (relayLost s)) s

/-- STACK_RELAY (R557). -/
def execStackRelay (c : Cmd) (dev : BitVec 8) (_descAddr resAddr : BitVec 64) (desc payload : Bytes) (readOk : Bool) (s : State) :
    Host.Outcome State Fault Refusal :=
  runCommand c 0x0E04 (fun aseq s =>
    let d := dev.toNat
    if !isQuoin s then .done (err 5) s
    else if 4 ≤ d ∨ d = ownDev s then .done (err 2) s
    else if !bit s.stk.members d || !reachable s d then .done (err 5) s
    else if !readOk then .done (err 3) s
    else .later (askMember s d 0 0 aseq resAddr.toNat (cut desc 0 64 ++ payload))) s

/-- STACK_STAGE (R561): the data leave in RELAY cells, ahead of what is relayed after them. -/
def execStackStage (c : Cmd) (dev space : BitVec 8) (addr stage : BitVec 64) (len : BitVec 32) (data : Bytes) (readOk : Bool)
    (r : ReadOutcome) (s : State) : Host.Outcome State Fault Refusal :=
  runCommand c 0x0E05 (fun _ s =>
    let d := dev.toNat
    let n := len.toNat
    if !s.stk.formed then .done (err 5) s
    else if 4 ≤ d ∨ d = ownDev s ∨ 3 < space.toNat ∨ 2 ^ 24 < n ∨ 2 ^ 24 < stage.toNat + n then .done (err 2) s
    else if c.src = .relay ∧ space.toNat < 2 then .done (err 2) s
    else if !bit s.stk.members d || !reachable s d then .done (err 5) s
    else match dmaRead s space.toNat addr.toNat n data readOk false r with
      | (s, b, 0) => .done {} (relayTo s d 3 0 0 (le 8 stage.toNat ++ b))
      | (s, _, _) => .done (err 3) s) s

/-- STACK_MOVE (R558). -/
def execStackMove (c : Cmd) (entry dev : BitVec 8) (s : State) : Host.Outcome State Fault Refusal :=
  runCommand c 0x0E06 (fun aseq s =>
    let e := entry.toNat
    let d := dev.toNat
    if !isQuoin s then .done (err 5) s
    else if 64 ≤ e ∨ 4 ≤ d then .done (err 2) s
    else
      let v := mapAt s s.tbl.epoch e
      let a := mapOwner v
      let here := fun (m : Nat) => bit s.stk.members m && (m == ownDev s || reachable s m)
      if mapLocal v || !here a || !here d || s.stk.moves.any (fun m => m.entry == e) then .done (err 5) s
      else if a = d then .done {} s
      else
        let m : MoveWait := { entry := e, src := a, dst := d, aseq := aseq, step := 1, left := [], localWrite := 0, count := 0 }
        let s := s.withStk { s.stk with moves := s.stk.moves ++ [m] }
        .later (advanceMove aseq 8 (beginStep s m (devsOf s.stk.members)))) s

/-- STACK_DIGEST (R559). -/
def execStackDigest (c : Cmd) (addr : BitVec 64) (s : State) : Host.Outcome State Fault Refusal :=
  runCommand c 0x0E07 (fun aseq s =>
    let others := (devsOf s.stk.members).filter (· != ownDev s)
    if !isQuoin s then .done (err 5) s
    else if others.any (fun d => !reachable s d) then .done (err 5) s
    else
      let own := (ownDev s, digestBlock s)
      if others = [] then .done { block := stackDigestBlock [own], addr := some addr.toNat } s
      else
        let s := s.withStk { s.stk with digests := s.stk.digests ++
          [{ aseq := aseq, addr := addr.toNat, left := others, answers := [own] }] }
        .later (others.foldl (fun s d => askMember s d 0 1 aseq 0 (innerDesc 0x0705 aseq [])) s)) s

/-- The state of a bond link as events and STACK_STATUS code it (log 19). -/
def linkCode : LinkSt → Nat
  | .service => 0
  | .out => 1
  | .mismatch => 2

/-- STACK_STATUS (R451, R561; log 42): mode, quoin, term, the state of each bond link in ascending order, reachable devices,
ALIVE inputs, copies, mirror backlog. -/
def execStackStatus (c : Cmd) (s : State) : Host.Outcome State Fault Refusal :=
  runCommand c 0x0E08 (fun _ s =>
    let subs := (List.range 384).filter (fun n => isBond s (n / 4) && subExists s n)
    let block := le 1 s.stk.mode ++ le 1 (s.stk.quoin.getD 255) ++ le 4 s.stk.term ++
      subs.flatMap (fun n => le 1 (linkCode (bondAt s n).st)) ++ le 1 (reachMap s) ++ le 1 s.stk.aliveIn ++
      le 8 s.stk.copies ++ le 4 s.stk.awaits.length
    .done { block := block } s) s

end Sys2Proof.Machine
end

