-- ==== Sys2Proof/Machine/Sync.lean ====
section
/-! DEFINITION. The channel, lock and timer instructions (R313-R322), the end of a task and what stops a thread (R312,
R344, R345, R352). -/

namespace Sys2Proof.Machine

/-! Channels (R313-R317). -/

/-- The physical cluster of the channel that CH_WR and CH_COMMIT name (R313): `none` where no cluster serves it. -/
def chanTarget (s : State) (n : Nat) (i : Ins) : Option Nat :=
  if bit i.imm 10 then clusterPhys s (bits i.imm 6 4) else some (engPhys s n)

/-- CH_WR: a 17th staged word faults with CH_LENGTH. -/
def execChWr (en : Fin 128) (t : Fin 8) (s : State) : Host.Outcome State Fault Refusal :=
  issueOp s en t 0x40 (fun s x i =>
    if 16 ≤ x.staged.length then faultThread s en.val t.val 9
    else setThread s en.val t.val { advance x 0 0 with staged := x.staged ++ [BitVec.ofNat 64 (regOf x i.rb)] })

/-- CH_COMMIT: the message is written where it finds room, else its thread waits with all its words staged. -/
def execChCommit (en : Fin 128) (t : Fin 8) (s : State) : Host.Outcome State Fault Refusal :=
  issueOp s en t 0x41 (fun s x i =>
    if 16 ≤ x.staged.length then faultThread s en.val t.val 9
    else
      let ws := x.staged ++ [BitVec.ofNat 64 (regOf x i.rb)]
      let w := 8 * en.val + t.val
      let c := bits i.imm 0 6
      match chanTarget s en.val i with
      | none => setThread s en.val t.val { x with staged := ws, st := .waitChannel (64 * 17 + c) true }
      | some p =>
        if chanRoom s p c ws.length then
          pushMessage (setThread s en.val t.val { advance x 0 0 with staged := [] }) p c w ws
        else
          let y := chanAt s p c
          setChan (setThread s en.val t.val { x with staged := ws, st := .waitChannel (64 * p + c) true }) p c
            { y with writers := y.writers ++ [w] })

/-- The order of writers that reach a channel together: local ones first, then by number (R315). -/
def writerPlace (s : State) (p w : Nat) : Nat := (if engPhys s (w / 8) = p then 0 else 1024) + w

/-- The writer that enters a channel next, of those whose message finds room. -/
def nextWriter (s : State) (p c : Nat) : Option Nat :=
  ((chanAt s p c).writers.filter (fun w => chanRoom s p c (wThread s w).staged.length)).foldl
    (fun b w => match b with
      | some v => if writerPlace s p w < writerPlace s p v then some w else b
      | none => some w) none

/-- CH_COMMIT_ROOM (R314, R315): a blocked commit finds room and writes its whole message. -/
def execChCommitRoom (cl : Fin 17) (ch : Fin 64) (s : State) : Host.Outcome State Fault Refusal :=
  match nextWriter s cl.val ch.val with
  | none => .next s
  | some w =>
    let y := chanAt s cl.val ch.val
    let s := setChan s cl.val ch.val { y with writers := y.writers.filter (· != w) }
    let ws := (wThread s w).staged
    let s := resumeThread s (w / 8) (w % 8) 0 0
    .next (pushMessage (setThread s (w / 8) (w % 8) { wThread s w with staged := [] }) cl.val ch.val w ws)

/-- The words of a channel with its oldest message not yet visible made visible. -/
def revealOldest : List ChanWord → List ChanWord
  | [] => []
  | y :: ys =>
    if y.visible then y :: revealOldest ys
    else
      let n := (ys.takeWhile (fun z => !bit z.side 0)).length
      { y with visible := true } :: (ys.take n).map (fun z => { z with visible := true }) ++ ys.drop n

/-- CH_WORDS_VISIBLE (R314-R316): a committed message becomes visible, and the readers that wait are served. -/
def execChWordsVisible (cl : Fin 17) (ch : Fin 64) (s : State) : Host.Outcome State Fault Refusal :=
  let y := chanAt s cl.val ch.val
  .next (serveReaders (setChan s cl.val ch.val { y with words := revealOldest y.words }) cl.val ch.val 17)

/-- A thread takes the next word of a channel; readers that wait may follow (R316). -/
def takeWord (s : State) (n t p c : Nat) (x : Thread) (i : Ins) (y : ChanWord) : State :=
  let s := setChan s p c (chanTaken (chanAt s p c) (8 * n + t) y)
  serveReaders (setThread s n t { advance x i.rd y.word.toNat with chs := y.side }) p c 17

/-- CH_RD. -/
def execChRd (en : Fin 128) (t : Fin 8) (s : State) : Host.Outcome State Fault Refusal :=
  issueOp s en t 0x42 (fun s x i =>
    let p := engPhys s en.val
    let c := bits i.imm 0 6
    let w := 8 * en.val + t.val
    match chanWord (chanAt s p c) w with
    | some y => takeWord s en.val t.val p c x i y
    | none =>
      let y := chanAt s p c
      setChan (setThread s en.val t.val { x with st := .waitChannel (64 * p + c) false, rdWait := i.rd }) p c
        { y with readers := y.readers ++ [w] })

/-- CH_TRY: with no word to take RD is 0 and CHS[12] is set. -/
def execChTry (en : Fin 128) (t : Fin 8) (s : State) : Host.Outcome State Fault Refusal :=
  issueOp s en t 0x43 (fun s x i =>
    let p := engPhys s en.val
    let c := bits i.imm 0 6
    match chanWord (chanAt s p c) (8 * en.val + t.val) with
    | some y => takeWord s en.val t.val p c x i y
    | none => setThread s en.val t.val { advance x i.rd 0 with chs := putBits x.chs 12 1 1 })

/-- CH_DISCARD. -/
def execChDiscard (en : Fin 128) (t : Fin 8) (s : State) : Host.Outcome State Fault Refusal :=
  issueOp s en t 0x44 (fun s x _ => setThread s en.val t.val { advance x 0 0 with staged := [] })

/-! Locks (R318-R322). -/

/-- A lock lies in the range of a thread's task (R318). -/
def lockAllowed (s : State) (n t l : Nat) : Bool :=
  match servedTask s n t with
  | some (_, x) => if taskKind x = 5 then decide (224 ≤ l) else decide (l < 224)
  | none => false

/-- LK_ACQ and LK_TRY (R319-R321): the codes of R321 and R318, a grant, or what follows on a lock that is held. -/
def acquire (n t : Nat) (try_ : Bool) (s : State) (x : Thread) (i : Ins) : State :=
  let p := engPhys s n
  let l := bits i.imm 0 8
  let y := lockAt s p l
  let w := 8 * n + t
  if !lockAllowed s n t l then faultThread s n t 8
  else if x.locks.contains l then faultThread s n t 5
  else if 4 ≤ x.locks.length && !(try_ && y.holder.isSome) then faultThread s n t 6
  else match y.holder with
    | none => grantLock (setThread s n t { x with rdWait := i.rd }) p l w
    | some _ =>
      if try_ then setThread s n t (advance x i.rd 2)
      else setLock (setThread s n t { x with st := .waitLock l, rdWait := i.rd }) p l { y with waiters := y.waiters ++ [w] }

/-- LK_ACQ. -/
def execLkAcq (en : Fin 128) (t : Fin 8) (s : State) : Host.Outcome State Fault Refusal :=
  issueOp s en t 0x50 (acquire en.val t.val false)

/-- LK_TRY. -/
def execLkTry (en : Fin 128) (t : Fin 8) (s : State) : Host.Outcome State Fault Refusal :=
  issueOp s en t 0x51 (acquire en.val t.val true)

/-- LK_REL: a lock that the thread does not hold faults with LOCK_NOT_HELD. -/
def execLkRel (en : Fin 128) (t : Fin 8) (s : State) : Host.Outcome State Fault Refusal :=
  issueOp s en t 0x52 (fun s x i =>
    let l := bits i.imm 0 8
    if !x.locks.contains l then faultThread s en.val t.val 4
    else releaseLock (setThread s en.val t.val { advance x 0 0 with locks := x.locks.filter (· != l) }) (engPhys s en.val) l false)

/-! Timer and time (R308). -/

/-- TIMER_ARM: 0 disarms. -/
def execTimerArm (en : Fin 128) (t : Fin 8) (s : State) : Host.Outcome State Fault Refusal :=
  issueOp s en t 0x72 (fun s x i =>
    let v := dataAddr x i
    setThread s en.val t.val { advance x 0 0 with timer := if v = 0 then none else some (s.clk.cc + v) })

/-- TIMER_WAIT: an unarmed timer does not block. -/
def execTimerWait (en : Fin 128) (t : Fin 8) (s : State) : Host.Outcome State Fault Refusal :=
  issueOp s en t 0x73 (fun s x _ =>
    setThread s en.val t.val (if x.timer.isSome then { x with st := .waitTimer } else advance x 0 0))

/-- TIMER_EXPIRE (R303, R308): a thread that waits for its timer goes on. -/
def execTimerExpire (en : Fin 128) (t : Fin 8) (s : State) : Host.Outcome State Fault Refusal :=
  let x := threadAt s en.val t.val
  match x.timer with
  | none => .next s
  | some _ =>
    let s := setThread s en.val t.val { x with timer := none }
    .next (if x.st = .waitTimer ∨ (x.st = .halted ∧ x.resume = .waitTimer) then resumeThread s en.val t.val 0 0 else s)

/-- TIME_READ: 0 the time in ns of the primary domain, 1 coarse time; another selection reads an open value (log 6). -/
def execTimeRead (en : Fin 128) (t : Fin 8) (s : State) : Host.Outcome State Fault Refusal :=
  issueOp s en t 0x74 (fun s x i =>
    if i.imm = 0 then setThread s en.val t.val (advance x i.rd (timeNs s))
    else if i.imm = 1 then setThread s en.val t.val (advance x i.rd (coarse s))
    else match draw s with
      | (v, s) => setThread s en.val t.val (advance x i.rd v.toNat))

/-! The end of a task (R312). -/

/-- What a task's end does by its kind: outcome of a setup, a fold left open queued again, the frame of an internal
task, the completion of a command. -/
def endTask (s : State) (p n id imm : Nat) (x : Task) : State :=
  match taskKind x with
  | 1 | 2 =>
    let code := imm % 16
    endSetup s x (if code = 0 ∨ 9 < code then 9 else code) (bit imm 4)
  | 3 =>
    if s.fs.folds.any (fun f => f.task == some id) then requeueFold s (leAt x.desc 24 4 % 2 ^ 25) (leAt x.desc 28 2) else s
  | 4 => dropCopy s x (lastPhys s n)
  | _ => match x.aseq with
    | some a => release s p id (.completion a (imm % 256) 0)
    | none => s

/-- TASK_END (R312, R322). -/
def execTaskEnd (en : Fin 128) (t : Fin 8) (s : State) : Host.Outcome State Fault Refusal :=
  issueOp s en t 0x7E (fun s _ i =>
    let n := en.val
    match servedTask s n t.val with
    | none => s
    | some (id, x) =>
      let p := engPhys s n
      let s := trace (count s 8 n (1 + taskKind x) 1) p 6 n t.val id x
      settleTask (endTask (leaveThread s n t.val true) p n id i.imm x) p id)

/-- BREAK (R308, R352). -/
def execBreakHalt (en : Fin 128) (t : Fin 8) (s : State) : Host.Outcome State Fault Refusal :=
  issueOp s en t 0x7F (fun s x _ =>
    setThread s en.val t.val { advance x 0 0 with st := .halted, resume := .ready, broke := true })

/-- ILLEGAL_OP (R308, R345). -/
def execIllegalOp (en : Fin 128) (t : Fin 8) (s : State) : Host.Outcome State Fault Refusal :=
  .next (issue s en.val t.val (fun op => !opKnown op) (fun s _ _ => faultThread s en.val t.val 1))

/-- THREAD_HALT (R352, R353): a halt that was asked for takes effect at an instruction boundary; a blocked thread stands
before the instruction that blocks (log 61). -/
def execThreadHalt (en : Fin 128) (t : Fin 8) (s : State) : Host.Outcome State Fault Refusal :=
  let x := threadAt s en.val t.val
  if !x.haltReq || x.st == .waitMemory || x.st == .halted then .next s
  else .next (setThread s en.val t.val { x with st := .halted, resume := x.st, haltReq := false, broke := false })

/-- TASK_LIMIT (R344): a task in service too long is aborted; with TASK_LIMIT_US 0 there is no limit. -/
def execTaskLimit (en : Fin 128) (t : Fin 8) (s : State) : Host.Outcome State Fault Refusal :=
  let x := threadAt s en.val t.val
  if x.task.isNone ∨ x.st = .halted ∨ regField s .schedLimitCfg 0 0 16 = 0 then .next s
  else .next (faultThread (count s 9 (en.val / 8) 42 1) en.val t.val 12)

end Sys2Proof.Machine
end

