-- ==== Sys2Proof/Machine/Dispatch.lean ====
section
/-! DEFINITION. What each command does: one arm for each constructor, one call of its meaning. -/

namespace Sys2Proof.Machine

/-- The effect of a command on everything but the queue. -/
def exec (i : Instr) (s : State) : Host.Outcome State Fault Refusal :=
  match i with
  | .refillTick => Sys2Proof.Machine.execRefillTick s
  | .intervalStart => Sys2Proof.Machine.execIntervalStart s
  | .periodicEpochAdvance => Sys2Proof.Machine.execPeriodicEpochAdvance s
  | .shadowApply => Sys2Proof.Machine.execShadowApply s
  | .registerWrite m off size v => Sys2Proof.Machine.execRegisterWrite m off size v s
  | .frameArrival sub bytes fcsOk whole cws => Sys2Proof.Machine.execFrameArrival sub bytes fcsOk whole cws s
  | .uncorrectableCodeword sub => Sys2Proof.Machine.execUncorrectableCodeword sub s
  | .headAdmit slice => Sys2Proof.Machine.execHeadAdmit slice s
  | .flowLookupResult fid prim alt rec0 rec1 => Sys2Proof.Machine.execFlowLookupResult fid prim alt rec0 rec1 s
  | .tierBDirectoryReturn fetch prim alt => Sys2Proof.Machine.execTierBDirectoryReturn fetch prim alt s
  | .tierBRecordReturn fetch r => Sys2Proof.Machine.execTierBRecordReturn fetch r s
  | .lpmAclResult fid lpmBad aclBad => Sys2Proof.Machine.execLpmAclResult fid lpmBad aclBad s
  | .secondaryLookupResult fid => Sys2Proof.Machine.execSecondaryLookupResult fid s
  | .policerResult fid => Sys2Proof.Machine.execPolicerResult fid s
  | .seqContextGrant slice => Sys2Proof.Machine.execSeqContextGrant slice s
  | .seqWordExecute fid err => Sys2Proof.Machine.execSeqWordExecute fid err s
  | .deadlineFault fid => Sys2Proof.Machine.execDeadlineFault fid s
  | .standbyBankParity slice addr bad => Sys2Proof.Machine.execStandbyBankParity slice addr bad s
  | .combinerApply slot tierB => Sys2Proof.Machine.execCombinerApply slot tierB s
  | .trackingUpdateApply => Sys2Proof.Machine.execTrackingUpdateApply s
  | .insertionEnd id => Sys2Proof.Machine.execInsertionEnd id s
  | .relocationFlip src => Sys2Proof.Machine.execRelocationFlip src s
  | .hashedMoveFlip id src => Sys2Proof.Machine.execHashedMoveFlip id src s
  | .setupHoldExpire fid => Sys2Proof.Machine.execSetupHoldExpire fid s
  | .demotionVisit slot => Sys2Proof.Machine.execDemotionVisit slot s
  | .demotionComplete slot => Sys2Proof.Machine.execDemotionComplete slot s
  | .sweeperRoundStart => Sys2Proof.Machine.execSweeperRoundStart s
  | .sweeperVisit slot => Sys2Proof.Machine.execSweeperVisit slot s
  | .coldSweeperRead read => Sys2Proof.Machine.execColdSweeperRead read s
  | .deletionFencePassed slot tierB => Sys2Proof.Machine.execDeletionFencePassed slot tierB s
  | .courseCeWindowEnd pier course count => Sys2Proof.Machine.execCourseCeWindowEnd pier course count s
  | .rebuildGranuleCopy pier bank off bad => Sys2Proof.Machine.execRebuildGranuleCopy pier bank off bad s
  | .bucketRescan pier => Sys2Proof.Machine.execBucketRescan pier s
  | .rebuildComplete pier => Sys2Proof.Machine.execRebuildComplete pier s
  | .tableFenceWaitEnd aseq => Sys2Proof.Machine.execTableFenceWaitEnd aseq s
  | .batchFenceWaitEnd aseq => Sys2Proof.Machine.execBatchFenceWaitEnd aseq s
  | .learnInsertDone mac ten => Sys2Proof.Machine.execLearnInsertDone mac ten s
  | .pendingEntryExpire mac ten => Sys2Proof.Machine.execPendingEntryExpire mac ten s
  | .moveCandidateExpire mac ten => Sys2Proof.Machine.execMoveCandidateExpire mac ten s
  | .macSweepVisit idx => Sys2Proof.Machine.execMacSweepVisit idx s
  | .repointCompare inst slot found shadowBad => Sys2Proof.Machine.execRepointCompare inst slot found shadowBad s
  | .emScrubRead id inst idx r => Sys2Proof.Machine.execEmScrubRead id inst idx r s
  | .taskArrive src => Sys2Proof.Machine.execTaskArrive src s
  | .operandArrive task k ok => Sys2Proof.Machine.execOperandArrive task k ok s
  | .taskDispatch cluster => Sys2Proof.Machine.execTaskDispatch cluster s
  | .preempt en t => Sys2Proof.Machine.execPreempt en t s
  | .engineWakeRequest cluster => Sys2Proof.Machine.execEngineWakeRequest cluster s
  | .instrNop en t => Sys2Proof.Machine.execInstrNop en t s
  | .add en t => Sys2Proof.Machine.execAdd en t s
  | .sub en t => Sys2Proof.Machine.execSub en t s
  | .and en t => Sys2Proof.Machine.execAnd en t s
  | .or en t => Sys2Proof.Machine.execOr en t s
  | .xor en t => Sys2Proof.Machine.execXor en t s
  | .shl en t => Sys2Proof.Machine.execShl en t s
  | .shr en t => Sys2Proof.Machine.execShr en t s
  | .sar en t => Sys2Proof.Machine.execSar en t s
  | .mul en t => Sys2Proof.Machine.execMul en t s
  | .mulhu en t => Sys2Proof.Machine.execMulhu en t s
  | .min en t => Sys2Proof.Machine.execMin en t s
  | .max en t => Sys2Proof.Machine.execMax en t s
  | .seq en t => Sys2Proof.Machine.execSeq en t s
  | .slt en t => Sys2Proof.Machine.execSlt en t s
  | .sltu en t => Sys2Proof.Machine.execSltu en t s
  | .movi en t => Sys2Proof.Machine.execMovi en t s
  | .movhi en t => Sys2Proof.Machine.execMovhi en t s
  | .fhash en t => Sys2Proof.Machine.execFhash en t s
  | .bswap en t => Sys2Proof.Machine.execBswap en t s
  | .br en t => Sys2Proof.Machine.execBr en t s
  | .beq en t => Sys2Proof.Machine.execBeq en t s
  | .bne en t => Sys2Proof.Machine.execBne en t s
  | .blt en t => Sys2Proof.Machine.execBlt en t s
  | .bltu en t => Sys2Proof.Machine.execBltu en t s
  | .call en t => Sys2Proof.Machine.execCall en t s
  | .jmp en t => Sys2Proof.Machine.execJmp en t s
  | .ld8 en t => Sys2Proof.Machine.execLd8 en t s
  | .ld16 en t => Sys2Proof.Machine.execLd16 en t s
  | .ld32 en t => Sys2Proof.Machine.execLd32 en t s
  | .ld64 en t => Sys2Proof.Machine.execLd64 en t s
  | .loadComplete en load => Sys2Proof.Machine.execLoadComplete en load s
  | .st8 en t => Sys2Proof.Machine.execSt8 en t s
  | .st16 en t => Sys2Proof.Machine.execSt16 en t s
  | .st32 en t => Sys2Proof.Machine.execSt32 en t s
  | .st64 en t => Sys2Proof.Machine.execSt64 en t s
  | .chWr en t => Sys2Proof.Machine.execChWr en t s
  | .chCommit en t => Sys2Proof.Machine.execChCommit en t s
  | .chCommitRoom cl ch => Sys2Proof.Machine.execChCommitRoom cl ch s
  | .chWordsVisible cl ch => Sys2Proof.Machine.execChWordsVisible cl ch s
  | .chRd en t => Sys2Proof.Machine.execChRd en t s
  | .chTry en t => Sys2Proof.Machine.execChTry en t s
  | .chDiscard en t => Sys2Proof.Machine.execChDiscard en t s
  | .lkAcq en t => Sys2Proof.Machine.execLkAcq en t s
  | .lkTry en t => Sys2Proof.Machine.execLkTry en t s
  | .lkRel en t => Sys2Proof.Machine.execLkRel en t s
  | .fsProbe en t => Sys2Proof.Machine.execFsProbe en t s
  | .fsInsert en t => Sys2Proof.Machine.execFsInsert en t s
  | .fsWrite en t => Sys2Proof.Machine.execFsWrite en t s
  | .fsDelete en t => Sys2Proof.Machine.execFsDelete en t s
  | .tblRead en t => Sys2Proof.Machine.execTblRead en t s
  | .fsCounts en t => Sys2Proof.Machine.execFsCounts en t s
  | .fsFoldAdd en t => Sys2Proof.Machine.execFsFoldAdd en t s
  | .memRead en t => Sys2Proof.Machine.execMemRead en t s
  | .memoryOpComplete en t r => Sys2Proof.Machine.execMemoryOpComplete en t r s
  | .frameSend en t => Sys2Proof.Machine.execFrameSend en t s
  | .timerArm en t => Sys2Proof.Machine.execTimerArm en t s
  | .timerWait en t => Sys2Proof.Machine.execTimerWait en t s
  | .timerExpire en t => Sys2Proof.Machine.execTimerExpire en t s
  | .timeRead en t => Sys2Proof.Machine.execTimeRead en t s
  | .taskEnd en t => Sys2Proof.Machine.execTaskEnd en t s
  | .breakHalt en t => Sys2Proof.Machine.execBreakHalt en t s
  | .illegalOp en t => Sys2Proof.Machine.execIllegalOp en t s
  | .threadHalt en t => Sys2Proof.Machine.execThreadHalt en t s
  | .engineStall en => Sys2Proof.Machine.execEngineStall en s
  | .taskLimit en t => Sys2Proof.Machine.execTaskLimit en t s
  | .engineFault en cause addr => Sys2Proof.Machine.execEngineFault en cause addr s
  | .clusterFault cl unit => Sys2Proof.Machine.execClusterFault cl unit s
  | .spareLoaded en => Sys2Proof.Machine.execSpareLoaded en s
  | .engineSelfTestDone phys pass => Sys2Proof.Machine.execEngineSelfTestDone phys pass s
  | .cellRelease cell party => Sys2Proof.Machine.execCellRelease cell party s
  | .censusWalkStart => Sys2Proof.Machine.execCensusWalkStart s
  | .censusWalkEnd => Sys2Proof.Machine.execCensusWalkEnd s
  | .replicate => Sys2Proof.Machine.execReplicate s
  | .egressSelect sub => Sys2Proof.Machine.execEgressSelect sub s
  | .gateListChange sub => Sys2Proof.Machine.execGateListChange sub s
  | .gateEntryAdvance sub => Sys2Proof.Machine.execGateEntryAdvance sub s
  | .puntWrite ring addrs readOk writeOk => Sys2Proof.Machine.execPuntWrite ring addrs readOk writeOk s
  | .injFetch host ring entry frame entryOk frameOk => Sys2Proof.Machine.execInjFetch host ring entry frame entryOk frameOk s
  | .pauseFrameReceive sub op params => Sys2Proof.Machine.execPauseFrameReceive sub op params s
  | .pauseEffect sub => Sys2Proof.Machine.execPauseEffect sub s
  | .pauseExpire sub prio => Sys2Proof.Machine.execPauseExpire sub prio s
  | .pauseSend sub => Sys2Proof.Machine.execPauseSend sub s
  | .pauseRepeat sub => Sys2Proof.Machine.execPauseRepeat sub s
  | .hello sub m => Sys2Proof.Machine.execHello sub m s
  | .helloRetry sub => Sys2Proof.Machine.execHelloRetry sub s
  | .helloTimeout sub => Sys2Proof.Machine.execHelloTimeout sub s
  | .shedWindowEnd sub => Sys2Proof.Machine.execShedWindowEnd sub s
  | .req sub m => Sys2Proof.Machine.execReq sub m s
  | .ack sub m => Sys2Proof.Machine.execAck sub m s
  | .nak sub m => Sys2Proof.Machine.execNak sub m s
  | .ready sub m => Sys2Proof.Machine.execReady sub m s
  | .reqRetry sub => Sys2Proof.Machine.execReqRetry sub s
  | .shedSwitch sub => Sys2Proof.Machine.execShedSwitch sub s
  | .alignmentRegained sub => Sys2Proof.Machine.execAlignmentRegained sub s
  | .lanesLocked sub => Sys2Proof.Machine.execLanesLocked sub s
  | .widenTimeout sub unlocked => Sys2Proof.Machine.execWidenTimeout sub unlocked s
  | .lpiEntry sub => Sys2Proof.Machine.execLpiEntry sub s
  | .lpiWakeEnd sub => Sys2Proof.Machine.execLpiWakeEnd sub s
  | .linkDown loss => Sys2Proof.Machine.execLinkDown loss s
  | .linkUp sub => Sys2Proof.Machine.execLinkUp sub s
  | .holdExpire sub => Sys2Proof.Machine.execHoldExpire sub s
  | .holdReload sub => Sys2Proof.Machine.execHoldReload sub s
  | .laneFail lane => Sys2Proof.Machine.execLaneFail lane s
  | .laneSerWindowEnd lane symbols => Sys2Proof.Machine.execLaneSerWindowEnd lane symbols s
  | .recoveryTrialTimeout sub => Sys2Proof.Machine.execRecoveryTrialTimeout sub s
  | .portMode c port mode laneMap => Sys2Proof.Machine.execPortMode c port mode laneMap s
  | .subportAdmin c sub dir => Sys2Proof.Machine.execSubportAdmin c sub dir s
  | .shedCtrl c sub enable width => Sys2Proof.Machine.execShedCtrl c sub enable width s
  | .laneSet c port lane op => Sys2Proof.Machine.execLaneSet c port lane op s
  | .portStatus c port => Sys2Proof.Machine.execPortStatus c port s
  | .seqLoad c image => Sys2Proof.Machine.execSeqLoad c image s
  | .seqSwap c => Sys2Proof.Machine.execSeqSwap c s
  | .seqSwapDrained => Sys2Proof.Machine.execSeqSwapDrained s
  | .sliceStatus c slice => Sys2Proof.Machine.execSliceStatus c slice s
  | .dlBudgetStatus c ten => Sys2Proof.Machine.execDlBudgetStatus c ten s
  | .fsFormat c => Sys2Proof.Machine.execFsFormat c s
  | .flowRead c key addr => Sys2Proof.Machine.execFlowRead c key addr s
  | .fsStatus c pier => Sys2Proof.Machine.execFsStatus c pier s
  | .fsTenantStatus c ten => Sys2Proof.Machine.execFsTenantStatus c ten s
  | .flowDemote c key => Sys2Proof.Machine.execFlowDemote c key s
  | .flowInsert c record => Sys2Proof.Machine.execFlowInsert c record s
  | .flowDelete c key => Sys2Proof.Machine.execFlowDelete c key s
  | .tenantPurge c ten => Sys2Proof.Machine.execTenantPurge c ten s
  | .policyWrite c table idx data => Sys2Proof.Machine.execPolicyWrite c table idx data s
  | .tenantAccount c ten => Sys2Proof.Machine.execTenantAccount c ten s
  | .tableWrite c table idx key entry => Sys2Proof.Machine.execTableWrite c table idx key entry s
  | .tableDelete c table idx key => Sys2Proof.Machine.execTableDelete c table idx key s
  | .tableBatch c list count => Sys2Proof.Machine.execTableBatch c list count s
  | .tableRead c table idx key addr => Sys2Proof.Machine.execTableRead c table idx key addr s
  | .digestRead c addr => Sys2Proof.Machine.execDigestRead c addr s
  | .macFlush c sub ten => Sys2Proof.Machine.execMacFlush c sub ten s
  | .engDrain c en => Sys2Proof.Machine.execEngDrain c en s
  | .engDrained en => Sys2Proof.Machine.execEngDrained en s
  | .engLoad c en image => Sys2Proof.Machine.execEngLoad c en image s
  | .engResume c en => Sys2Proof.Machine.execEngResume c en s
  | .engStatus c en => Sys2Proof.Machine.execEngStatus c en s
  | .schedStatus c cl => Sys2Proof.Machine.execSchedStatus c cl s
  | .dbgHalt c en mask => Sys2Proof.Machine.execDbgHalt c en mask s
  | .dbgStep c en t => Sys2Proof.Machine.execDbgStep c en t s
  | .dbgResume c en mask => Sys2Proof.Machine.execDbgResume c en mask s
  | .dbgRead c en t kind start len addr => Sys2Proof.Machine.execDbgRead c en t kind start len addr s
  | .dbgWrite c en t kind start data => Sys2Proof.Machine.execDbgWrite c en t kind start data s
  | .dbgLockRelease c cl lock => Sys2Proof.Machine.execDbgLockRelease c cl lock s
  | .dbgAbort c en t => Sys2Proof.Machine.execDbgAbort c en t s
  | .queueStatus c queue => Sys2Proof.Machine.execQueueStatus c queue s
  | .bufStatus c => Sys2Proof.Machine.execBufStatus c s
  | .policerRead c idx => Sys2Proof.Machine.execPolicerRead c idx s
  | .gateStatus c sub => Sys2Proof.Machine.execGateStatus c sub s
  | .timeOffset c dom off => Sys2Proof.Machine.execTimeOffset c dom off s
  | .timeAcquire c dom => Sys2Proof.Machine.execTimeAcquire c dom s
  | .timeSwitch c => Sys2Proof.Machine.execTimeSwitch c s
  | .timeStatus c addr => Sys2Proof.Machine.execTimeStatus c addr s
  | .timePulse c out role mode secs ns period width polarity => Sys2Proof.Machine.execTimePulse c out role mode secs ns period width polarity s
  | .timeCapture c inp edges role enable => Sys2Proof.Machine.execTimeCapture c inp edges role enable s
  | .holdoverTimeout dom => Sys2Proof.Machine.execHoldoverTimeout dom s
  | .pulseEdge out => Sys2Proof.Machine.execPulseEdge out s
  | .ppsEdge => Sys2Proof.Machine.execPpsEdge s
  | .captureEdge inp falling => Sys2Proof.Machine.execCaptureEdge inp falling s
  | .doorbell host page off size v => Sys2Proof.Machine.execDoorbell host page off size v s
  | .ringEnable m host page v => Sys2Proof.Machine.execRingEnable m host page v s
  | .ringDisable m host page v => Sys2Proof.Machine.execRingDisable m host page v s
  | .commandAccept src desc ok => Sys2Proof.Machine.execCommandAccept src desc ok s
  | .interruptModerationExpire host page => Sys2Proof.Machine.execInterruptModerationExpire host page s
  | .chainWordReturn chain word desc ok => Sys2Proof.Machine.execChainWordReturn chain word desc ok s
  | .hostPortReset host cause => Sys2Proof.Machine.execHostPortReset host cause s
  | .hostLinkUp host rate width => Sys2Proof.Machine.execHostLinkUp host rate width s
  | .mailboxWrite desc => Sys2Proof.Machine.execMailboxWrite desc s
  | .i3cBusReset => Sys2Proof.Machine.execI3cBusReset s
  | .bidRecord m v => Sys2Proof.Machine.execBidRecord m v s
  | .bidWithdraw m v => Sys2Proof.Machine.execBidWithdraw m v s
  | .renew m v => Sys2Proof.Machine.execRenew m v s
  | .release m v => Sys2Proof.Machine.execRelease m v s
  | .grant m v => Sys2Proof.Machine.execGrant m v s
  | .bidWindowClose => Sys2Proof.Machine.execBidWindowClose s
  | .leaseExpire => Sys2Proof.Machine.execLeaseExpire s
  | .ringStatus c host type ring => Sys2Proof.Machine.execRingStatus c host type ring s
  | .hostStatus c host => Sys2Proof.Machine.execHostStatus c host s
  | .nop c => Sys2Proof.Machine.execNop c s
  | .dmaEnable m ch v => Sys2Proof.Machine.execDmaEnable m ch v s
  | .dmaDisable m ch v => Sys2Proof.Machine.execDmaDisable m ch v s
  | .dmaDisableSample ch => Sys2Proof.Machine.execDmaDisableSample ch s
  | .dmaBurstGrant => Sys2Proof.Machine.execDmaBurstGrant s
  | .dmaReadData ch burst src dst ok poison r r2 => Sys2Proof.Machine.execDmaReadData ch burst src dst ok poison r r2 s
  | .dmaWriteResponse ch burst ok => Sys2Proof.Machine.execDmaWriteResponse ch burst ok s
  | .dmaKick c ch => Sys2Proof.Machine.execDmaKick c ch s
  | .dmaStatus c ch => Sys2Proof.Machine.execDmaStatus c ch s
  | .ddrStatus c ch => Sys2Proof.Machine.execDdrStatus c ch s
  | .ddrRetrain c ch => Sys2Proof.Machine.execDdrRetrain c ch s
  | .ddrRetire c ch => Sys2Proof.Machine.execDdrRetire c ch s
  | .ddrCeWindowEnd ch => Sys2Proof.Machine.execDdrCeWindowEnd ch s
  | .retrainStep ch ok => Sys2Proof.Machine.execRetrainStep ch ok s
  | .driftReport ch => Sys2Proof.Machine.execDriftReport ch s
  | .rowIdleClose ch sub bank => Sys2Proof.Machine.execRowIdleClose ch sub bank s
  | .refreshDue ch sub bank => Sys2Proof.Machine.execRefreshDue ch sub bank s
  | .evacuationCopy ch r => Sys2Proof.Machine.execEvacuationCopy ch r s
  | .wakeRequest kind nums substitution => Sys2Proof.Machine.execWakeRequest kind nums substitution s
  | .wakeGrant => Sys2Proof.Machine.execWakeGrant s
  | .creditReturn => Sys2Proof.Machine.execCreditReturn s
  | .blockReady kind num => Sys2Proof.Machine.execBlockReady kind num s
  | .wakeLate kind num => Sys2Proof.Machine.execWakeLate kind num s
  | .sleepEntry kind num power => Sys2Proof.Machine.execSleepEntry kind num power s
  | .healthSample temps rails bad => Sys2Proof.Machine.execHealthSample temps rails bad s
  | .powerStatus c kind num => Sys2Proof.Machine.execPowerStatus c kind num s
  | .powerWake c kind num => Sys2Proof.Machine.execPowerWake c kind num s
  | .powerHold c kind num hold => Sys2Proof.Machine.execPowerHold c kind num hold s
  | .healthStatus c addr => Sys2Proof.Machine.execHealthStatus c addr s
  | .wakeStatus c => Sys2Proof.Machine.execWakeStatus c s
  | .bondHello sub cell crcOk => Sys2Proof.Machine.execBondHello sub cell crcOk s
  | .bondHelloSend sub => Sys2Proof.Machine.execBondHelloSend sub s
  | .bondLinkSilence sub => Sys2Proof.Machine.execBondLinkSilence sub s
  | .credit sub cell crcOk => Sys2Proof.Machine.execCredit sub cell crcOk s
  | .link sub cell crcOk => Sys2Proof.Machine.execLink sub cell crcOk s
  | .seed sub cell crcOk => Sys2Proof.Machine.execSeed sub cell crcOk s
  | .deliver sub cells => Sys2Proof.Machine.execDeliver sub cells s
  | .steer sub cells => Sys2Proof.Machine.execSteer sub cells s
  | .record sub cell crcOk => Sys2Proof.Machine.execRecord sub cell crcOk s
  | .recordAck sub cell crcOk => Sys2Proof.Machine.execRecordAck sub cell crcOk s
  | .relay sub cell crcOk => Sys2Proof.Machine.execRelay sub cell crcOk s
  | .mirrorAckTimeout dev seq => Sys2Proof.Machine.execMirrorAckTimeout dev seq s
  | .aliveInChange dev level => Sys2Proof.Machine.execAliveInChange dev level s
  | .memberLoss dev => Sys2Proof.Machine.execMemberLoss dev s
  | .stackForm c => Sys2Proof.Machine.execStackForm c s
  | .stackJoin c dev => Sys2Proof.Machine.execStackJoin c dev s
  | .stackLeave c => Sys2Proof.Machine.execStackLeave c s
  | .stackRelay c dev descAddr resAddr desc payload readOk => Sys2Proof.Machine.execStackRelay c dev descAddr resAddr desc payload readOk s
  | .stackStage c dev space addr stage len data readOk r => Sys2Proof.Machine.execStackStage c dev space addr stage len data readOk r s
  | .stackMove c entry dev => Sys2Proof.Machine.execStackMove c entry dev s
  | .stackDigest c addr => Sys2Proof.Machine.execStackDigest c addr s
  | .stackStatus c => Sys2Proof.Machine.execStackStatus c s
  | .sliceSwitchAdmit => Sys2Proof.Machine.execSliceSwitchAdmit s
  | .sliceSelfTestDone pass => Sys2Proof.Machine.execSliceSelfTestDone pass s
  | .recalibrationDone lane pass => Sys2Proof.Machine.execRecalibrationDone lane pass s
  | .reclaimWalkEnd => Sys2Proof.Machine.execReclaimWalkEnd s
  | .deviceFatal code => Sys2Proof.Machine.execDeviceFatal code s
  | .faultStatus c addr => Sys2Proof.Machine.execFaultStatus c addr s
  | .sliceSwitch c slice dir => Sys2Proof.Machine.execSliceSwitch c slice dir s
  | .clusterRemap c cl => Sys2Proof.Machine.execClusterRemap c cl s
  | .courseRetire c pier course => Sys2Proof.Machine.execCourseRetire c pier course s
  | .laneRecal c port lane force => Sys2Proof.Machine.execLaneRecal c port lane force s
  | .serdesApply c port => Sys2Proof.Machine.execSerdesApply c port s
  | .cellReclaim c tag => Sys2Proof.Machine.execCellReclaim c tag s
  | .imageCheckDone image cert => Sys2Proof.Machine.execImageCheckDone image cert s
  | .serdesLoad c image => Sys2Proof.Machine.execSerdesLoad c image s
  | .fwFlash c image => Sys2Proof.Machine.execFwFlash c image s
  | .fwActivate c => Sys2Proof.Machine.execFwActivate c s
  | .footingRestartReady => Sys2Proof.Machine.execFootingRestartReady s
  | .footingFallback => Sys2Proof.Machine.execFootingFallback s
  | .attestQuote c nonce addr => Sys2Proof.Machine.execAttestQuote c nonce addr s
  | .logRead c first count addr => Sys2Proof.Machine.execLogRead c first count addr s
  | .idRead c addr => Sys2Proof.Machine.execIdRead c addr s
  | .imgStatus c addr => Sys2Proof.Machine.execImgStatus c addr s
  | .counterRead c kind num clearWrap addr => Sys2Proof.Machine.execCounterRead c kind num clearWrap addr s
  | .counterScan c list count clearWrap addr => Sys2Proof.Machine.execCounterScan c list count clearWrap addr s
  | .pmcControl c mask action start => Sys2Proof.Machine.execPmcControl c mask action start s
  | .pmcStartTime => Sys2Proof.Machine.execPmcStartTime s
  | .pmcRead c addr => Sys2Proof.Machine.execPmcRead c addr s
  | .flowExport c key => Sys2Proof.Machine.execFlowExport c key s
  | .footingReset powerOn => Sys2Proof.Machine.execFootingReset powerOn s
  | .footclkLoss => Sys2Proof.Machine.execFootclkLoss s
  | .footingResetRelease straps slotA slotB cert hot => Sys2Proof.Machine.execFootingResetRelease straps slotA slotB cert hot s
  | .thermalBootHoldEnd => Sys2Proof.Machine.execThermalBootHoldEnd s
  | .railInRange rail => Sys2Proof.Machine.execRailInRange rail s
  | .railTimeout rail => Sys2Proof.Machine.execRailTimeout rail s
  | .bootPushGo m certLen => Sys2Proof.Machine.execBootPushGo m certLen s
  | .bootSelfTestDone unit pass => Sys2Proof.Machine.execBootSelfTestDone unit pass s
  | .bootReady directory => Sys2Proof.Machine.execBootReady directory s
  | .bootInfo c addr => Sys2Proof.Machine.execBootInfo c addr s
  | .trafficOpen c mask form => Sys2Proof.Machine.execTrafficOpen c mask form s
  | .coreReset c => Sys2Proof.Machine.execCoreReset c s
  | .coreResetBegin => Sys2Proof.Machine.execCoreResetBegin s
  | .fsFormatComplete => Sys2Proof.Machine.execFsFormatComplete s
  | .spillCountDecrement bucket => Sys2Proof.Machine.execSpillCountDecrement bucket s
  | .hashKeyWrite m k w v => Sys2Proof.Machine.execHashKeyWrite m k w v s
  | .msixUnmask host vector => Sys2Proof.Machine.execMsixUnmask host vector s
  | .bootTrainingDone density twoRanks failed => Sys2Proof.Machine.execBootTrainingDone density twoRanks failed s
  | .flashWriteComplete ok => Sys2Proof.Machine.execFlashWriteComplete ok s
  | .quoteSigned => Sys2Proof.Machine.execQuoteSigned s

end Sys2Proof.Machine
end

