-- ==== Sys2Proof/Machine/Tick.lean ====
section
/-! DEFINITION. One cycle of the shared core clock, which passes when no command waits (log 3). -/

namespace Sys2Proof.Machine

/-- Busy threads of every engine count one cycle each (R350). -/
def busyTick (s : State) : State :=
  s.eng.en.foldl (fun s e =>
    let busy := e.2.threads.countP (fun t => t.2.task.isSome)
    if busy = 0 then s else count s 8 e.1 1 busy) s

/-- One cycle: the cycle count, the rate grid (R666), the busy threads of the engines, the performance counters of core cycles (R614), rail enables that are due
(R659), and with every 15th
cycle one footing clock, in which network time runs on (R405, R515). -/
def tick (s : State) : State :=
  let fc := (s.clk.fc + 1) % 15
  let s := gridTick (s.withClk { s.clk with cc := s.clk.cc + 1, fc := fc })
  let s := s.withCtr { s.ctr with recent := s.ctr.recent.filter (fun e => decide (s.clk.cc < e.at_ + 64)) }
  let s := railTick (pmcStart s)
  let s := busyTick (countPmc s { code := 0x01, block := 31 } 1)
  if fc = 0 then ppsEnd (timeTick s) else s

end Sys2Proof.Machine
end

