-- ==== Sys2Proof/Machine/Step.lean ====
section
/-! DEFINITION. One step: the command at the front of the queue, or one cycle of the shared core clock
when the queue is empty (log 3). -/

namespace Sys2Proof.Machine

/-- Takes the command at the front of the queue and runs it on the queue's rest; on an empty queue one
cycle of the shared core clock passes (log 3). -/
def step (s : State) : Host.Outcome State Fault Refusal :=
  match s.pending with
  | [] => .next (tick s)
  | c :: cs => exec c { s with pending := cs }

/-- Puts the command that a word spells at the front of the queue; the opcode table gives no row any
bits, so no word spells a command and the state stands. -/
def State.withFetchWord (s : State) (nbits w : Nat) : State :=
  match decodeTableWord nbits w with
  | some c => { s with pending := c :: s.pending }
  | none => s

end Sys2Proof.Machine
end

