-- ==== Sys2Proof/Safety.lean ====
section
/-! DEFINITION. What claims about runs are stated in: the invariant that every step keeps, and that a command completes. -/

namespace Sys2Proof.Machine

/-- What the invariant speaks of, apart from the rest of the state: the queue, the two memories that commands address, and
the account of the wake budget. -/
structure Watch where
  pending : List Instr
  ddrMem : List (Nat × BitVec 8)
  staging : List (Nat × BitVec 8)
  used : Nat
  grants : List Nat

/-- The watched part of a state. -/
def State.watch (s : State) : Watch :=
  { pending := s.pending, ddrMem := s.ddr.mem, staging := s.dma.staging, used := s.pwr.used, grants := s.pwr.grants }

/-- The memories are in canonical form (log 8), the credits in use are those of the grants whose credits have not returned,
and they are no more than the 64 credits of the wake budget (R521). -/
def Watch.Ok (w : Watch) : Prop :=
  Memory.wf w.ddrMem = true ∧ Memory.wf w.staging = true ∧ w.used = w.grants.sum ∧ w.used ≤ 64

/-- The invariant that every step keeps. -/
def State.Inv (s : State) : Prop := s.watch.Ok

/-! Commands of the command processor (R447, R448). -/

/-- A command row runs the accepted command `a` (log 1): the device is READY (R633), `a` is the first accepted command that
has not started and has the row's source, sequence number and opcode, it need not wait (R446, R582), its payload could be
read (R450), and it is no relayed command that names host memory for a payload (R557). -/
abbrev CmdRuns (c : Cmd) (op : Nat) (s : State) (a : Accepted) : Prop :=
  s.boot.phase = .ready ∧
  s.host.accepted.find? (fun b => !b.started && b.src == c.src && b.seq == c.seq.toNat && b.opcode == op) = some a ∧
  mustWait s a = false ∧ c.payloadOk = true ∧ (a.src = .relay → namesHost a.opcode = false)

/-- The state in which a command that runs has started. -/
def begun (c : Cmd) (s : State) (a : Accepted) : State :=
  s.withHost { s.host with
    accepted := s.host.accepted.map (fun b =>
      if b.aseq = a.aseq then { b with started := true, resultOk := c.resultOk } else b) }

/-- The accepted command as its completion sees it: the row says whether its result block can be written. -/
def asRun (c : Cmd) (a : Accepted) : Accepted := { a with resultOk := c.resultOk }

/-- The state in which an access of the register file takes its effect: a half held for another offset is dropped
(R644), and the access has been counted (R614). -/
def seen (s : State) (m : Master) (addr : Nat) : State :=
  countPmc (dropOther s m.val addr) { code := 0x0E, block := masterBlock m.val, plane := 1, master := some m.val, addr := some addr } 1

/-! Threads (R303, R304, R308). -/

/-- A thread stands before an instruction of an opcode: it may issue, and its program counter lies in instruction memory. -/
abbrev Stands (s : State) (n t op : Nat) : Prop :=
  mayIssue s n t = true ∧ (threadAt s n t).pc < 8192 ∧ (insAt s n (threadAt s n t).pc).op = op

/-- The instruction that a thread stands before. -/
def before (s : State) (n t : Nat) : Ins := insAt s n (threadAt s n t).pc

/-- The state in which an instruction that issues takes its effect: it has been counted (R350, R614). -/
def issued (s : State) (n t : Nat) : State :=
  countPmc (count s 8 n 0 1) (threadEvent s n t 0x0A (threadAt s n t).pc) 1

/-- A register of a thread as 64 bits; r0 reads 0 (R307). -/
def regBits (x : Thread) (r : Nat) : BitVec 64 := if r = 0 then 0 else getAt 0 x.regs r

/-- Operand B as 64 bits: IMM sign-extended when I is set, else RB (R307, R308). -/
def opBits (x : Thread) (i : Ins) : BitVec 64 :=
  if i.useImm then (BitVec.ofNat 32 i.imm).signExtend 64 else regBits x i.rb

/-- A thread with a register written, which goes on to the next instruction; a write of r0 is discarded (R307). -/
def wrote (x : Thread) (r : Nat) (v : BitVec 64) : Thread :=
  { x with regs := if r = 0 then x.regs else setAt 0 x.regs r v, pc := x.pc + 1 }

end Sys2Proof.Machine
end

