-- ==== Sys2Proof/Certificates/Slice0/Obligations.lean ====
section
/-! DEFINITION. The statements for the provers.  A command row is stated for the accepted command that it runs (log 1), as
an equation for the outcome, in the state `begun` in which the command has started; `done u r` is its completion with the
reply `r` in the state `u`.  An instruction is stated for a thread that stands before it, and an event for every state that
meets the conditions named. -/

open Sys2Proof Sys2Proof.Machine


/-- A step runs the command at the front of the queue on the queue's rest; on an empty queue a cycle passes (log 3). -/
def Obligations.StepRunsFront : Prop :=
  (∀ (c : Instr) (cs : List Instr) (s : State), step { s with pending := c :: cs } = exec c { s with pending := cs }) ∧
  (∀ s : State, s.pending = [] → step s = .next (tick s)) ∧
  (∀ s : State, (tick s).clk.cc = s.clk.cc + 1 ∧ (tick s).pending = s.pending)

/-- The reset state meets the invariant: both memories in canonical form, and no wake credit in use. -/
def Obligations.InvAtReset : Prop := State.reset.Inv

/-- R521 and log 8: whatever command is at the front of the queue, a step from a state that meets the invariant gives one
that meets it. -/
def Obligations.InvKept : Prop := ∀ s t : State, s.Inv → step s = .next t → t.Inv

/-- No command stops the machine in any state, and none changes the queue of waiting commands. -/
def Obligations.EveryCommandRuns : Prop :=
  ∀ (c : Instr) (s : State), ∃ t, exec c s = .next t ∧ t.pending = s.pending

/-- R308, 0x00 to 0x0F: what each arithmetic instruction writes, with r0, the immediate and a step of the debugger; nothing
else of the thread changes, and nothing else of the state but what counting the instruction changes. MIN and MAX compare
signed (log 62). -/
def Obligations.Arithmetic : Prop :=
  ∀ (en : Fin 128) (t : Fin 8) (s : State),
    let x := threadAt s en.val t.val
    let i := before s en.val t.val
    let a := regBits x i.ra
    let b := opBits x i
    let ends (r : Nat) (v : BitVec 64) : Host.Outcome State Fault Refusal :=
      .next (afterStep (setThread (issued s en.val t.val) en.val t.val (wrote x r v)) en.val t.val x.stepping)
    let at_ (op : Nat) : Prop := Stands s en.val t.val op
    (at_ 0x00 → exec (.instrNop en t) s = ends 0 0) ∧
    (at_ 0x01 → exec (.add en t) s = ends i.rd (a + b)) ∧
    (at_ 0x02 → exec (.sub en t) s = ends i.rd (a - b)) ∧
    (at_ 0x03 → exec (.and en t) s = ends i.rd (a &&& b)) ∧
    (at_ 0x04 → exec (.or en t) s = ends i.rd (a ||| b)) ∧
    (at_ 0x05 → exec (.xor en t) s = ends i.rd (a ^^^ b)) ∧
    (at_ 0x06 → exec (.shl en t) s = ends i.rd (a <<< (b.toNat % 64))) ∧
    (at_ 0x07 → exec (.shr en t) s = ends i.rd (a >>> (b.toNat % 64))) ∧
    (at_ 0x08 → exec (.sar en t) s = ends i.rd (a.sshiftRight (b.toNat % 64))) ∧
    (at_ 0x09 → exec (.mul en t) s = ends i.rd (a * b)) ∧
    (at_ 0x0A → exec (.mulhu en t) s =
      ends i.rd (((a.zeroExtend 128 * b.zeroExtend 128) >>> 64).truncate 64)) ∧
    (at_ 0x0B → exec (.min en t) s = ends i.rd (if a.sle b then a else b)) ∧
    (at_ 0x0C → exec (.max en t) s = ends i.rd (if a.sle b then b else a)) ∧
    (at_ 0x0D → exec (.seq en t) s = ends i.rd (if a = b then 1 else 0)) ∧
    (at_ 0x0E → exec (.slt en t) s = ends i.rd (if a.slt b then 1 else 0)) ∧
    (at_ 0x0F → exec (.sltu en t) s = ends i.rd (if a.ult b then 1 else 0))

/-- R308, R309, 0x10 to 0x13: what MOVI, MOVHI, FHASH and BSWAP write. BSWAP leaves the bytes above its width (log 62). R308,
0x20 to 0x26: where each branch goes. -/
def Obligations.ImmediatesAndBranches : Prop :=
  (∀ (en : Fin 128) (t : Fin 8) (s : State),
      let x := threadAt s en.val t.val
      let i := before s en.val t.val
      let s1 := issued s en.val t.val
      let imm := BitVec.ofNat 32 i.imm
      let ends (v : BitVec 64) : Host.Outcome State Fault Refusal :=
        .next (afterStep (setThread s1 en.val t.val (wrote x i.rd v)) en.val t.val x.stepping)
      let byte (v : BitVec 64) (k : Nat) : BitVec 8 := (v >>> (8 * k)).truncate 8
      (Stands s en.val t.val 0x10 → exec (.movi en t) s = ends (imm.signExtend 64)) ∧
      (Stands s en.val t.val 0x11 → exec (.movhi en t) s = ends (imm ++ (regBits x i.rd).truncate 32)) ∧
      (Stands s en.val t.val 0x12 → (regBits x i.ra).toNat + 40 ≤ 0x30000 →
        exec (.fhash en t) s = ends (flowHash (dmemBytes s1 en.val (regBits x i.ra).toNat 40)
          (if imm.getLsbD 0 then polyB else polyA)
          (if i.imm / 2 % 4 = 0 then s1.fs.seedA else if i.imm / 2 % 4 = 1 then s1.fs.seedB
            else if i.imm / 2 % 4 = 2 then regBits x i.rb else s1.fs.seedC ^^^ regBits x i.rb))) ∧
      (Stands s en.val t.val 0x12 → 0x30000 < (regBits x i.ra).toNat + 40 →
        exec (.fhash en t) s = .next (afterStep (faultThread s1 en.val t.val 2) en.val t.val x.stepping)) ∧
      (Stands s en.val t.val 0x13 → ∃ v, exec (.bswap en t) s = ends v ∧
        let w := if i.imm % 4 = 0 then 2 else if i.imm % 4 = 1 then 4 else 8
        ∀ k < 8, byte v k = if k < w then byte (regBits x i.ra) (w - 1 - k) else byte (regBits x i.ra) k)) ∧
  (∀ (en : Fin 128) (t : Fin 8) (s : State),
      let x := threadAt s en.val t.val
      let i := before s en.val t.val
      let a := regBits x i.ra
      let b := regBits x i.rb
      let far : Nat := (BitVec.ofNat 64 x.pc + (BitVec.ofNat 32 i.imm).signExtend 64).toNat
      let ends (y : Thread) : Host.Outcome State Fault Refusal :=
        .next (afterStep (setThread (issued s en.val t.val) en.val t.val y) en.val t.val x.stepping)
      let at_ (op : Nat) : Prop := Stands s en.val t.val op
      (at_ 0x20 → exec (.br en t) s = ends { x with pc := far }) ∧
      (at_ 0x21 → exec (.beq en t) s = ends { x with pc := if a = b then far else x.pc + 1 }) ∧
      (at_ 0x22 → exec (.bne en t) s = ends { x with pc := if a ≠ b then far else x.pc + 1 }) ∧
      (at_ 0x23 → exec (.blt en t) s = ends { x with pc := if a.slt b then far else x.pc + 1 }) ∧
      (at_ 0x24 → exec (.bltu en t) s = ends { x with pc := if a.ult b then far else x.pc + 1 }) ∧
      (at_ 0x25 → exec (.call en t) s = ends { wrote x i.rd (BitVec.ofNat 64 (x.pc + 1)) with pc := far }) ∧
      (at_ 0x26 → exec (.jmp en t) s = ends { x with pc := a.toNat }))

/-- R306, R308, 0x30 to 0x37: loads and stores of aligned data inside data memory. A load leaves its thread waiting for the
zero-extended value, which LOAD_COMPLETE writes; a store writes the low bytes of RB, least significant first. R308: an access
outside data memory, or not aligned to its size, faults with code 2, MEM_RANGE, and nothing is loaded or stored. -/
def Obligations.LoadsAndStores : Prop :=
  (∀ (en : Fin 128) (t : Fin 8) (s : State),
      let x := threadAt s en.val t.val
      let i := before s en.val t.val
      let d := (regBits x i.ra + (BitVec.ofNat 32 i.imm).signExtend 64).toNat
      let s1 := countPmc (issued s en.val t.val) (threadEvent (issued s en.val t.val) en.val t.val 0x0B d) 1
      let fits (op size : Nat) : Prop := Stands s en.val t.val op ∧ d + size ≤ 0x30000 ∧ d % size = 0
      let loads (size : Nat) : Host.Outcome State Fault Refusal :=
        .next (afterStep (setThread s1 en.val t.val { x with
          st := .waitMemory
          mem := some { rd := i.rd, value := BitVec.ofNat 64 (leVal (dmemBytes s1 en.val d size)), addr := 0, data := [], load := true } })
          en.val t.val x.stepping)
      let stores (size : Nat) : Host.Outcome State Fault Refusal :=
        .next (afterStep (writeDmem (setThread s1 en.val t.val (wrote x 0 0)) en.val d (le size (regBits x i.rb).toNat))
          en.val t.val x.stepping)
      (fits 0x30 1 → exec (.ld8 en t) s = loads 1) ∧ (fits 0x31 2 → exec (.ld16 en t) s = loads 2) ∧
      (fits 0x32 4 → exec (.ld32 en t) s = loads 4) ∧ (fits 0x33 8 → exec (.ld64 en t) s = loads 8) ∧
      (fits 0x34 1 → exec (.st8 en t) s = stores 1) ∧ (fits 0x35 2 → exec (.st16 en t) s = stores 2) ∧
      (fits 0x36 4 → exec (.st32 en t) s = stores 4) ∧ (fits 0x37 8 → exec (.st64 en t) s = stores 8) ∧
      (∀ (m : MemResult) (corrected : Bool), x.mem = some m → m.load = true → x.pc < 8192 → exec (.loadComplete en ⟨t, corrected⟩) s =
        .next (setThread (dmemCorrected s en.val corrected) en.val t.val { wrote x m.rd m.value with
          mem := none
          st := if x.st = .halted then .halted else .ready
          resume := if x.st = .halted then .ready else x.resume }))) ∧
  (∀ (en : Fin 128) (t : Fin 8) (s : State),
      let x := threadAt s en.val t.val
      let i := before s en.val t.val
      let d := (regBits x i.ra + (BitVec.ofNat 32 i.imm).signExtend 64).toNat
      let off (op size : Nat) : Prop := Stands s en.val t.val op ∧ (0x30000 < d + size ∨ d % size ≠ 0)
      let faults : Host.Outcome State Fault Refusal :=
        .next (afterStep (faultThread (issued s en.val t.val) en.val t.val 2) en.val t.val x.stepping)
      (off 0x30 1 → exec (.ld8 en t) s = faults) ∧ (off 0x31 2 → exec (.ld16 en t) s = faults) ∧
      (off 0x32 4 → exec (.ld32 en t) s = faults) ∧ (off 0x33 8 → exec (.ld64 en t) s = faults) ∧
      (off 0x34 1 → exec (.st8 en t) s = faults) ∧ (off 0x35 2 → exec (.st16 en t) s = faults) ∧
      (off 0x36 4 → exec (.st32 en t) s = faults) ∧ (off 0x37 8 → exec (.st64 en t) s = faults))

/-- R308: the bytes of data memory after a store. The stored bytes read as the low bytes of RB, every other byte of the
engine's data memory as before, and every byte of another engine's; the queue, the flow store, the tables and the registers
are as they were. -/
def Obligations.StoreFrame : Prop :=
  ∀ (en : Fin 128) (t : Fin 8) (s u : State),
    let x := threadAt s en.val t.val
    let i := before s en.val t.val
    let d := (regBits x i.ra + (BitVec.ofNat 32 i.imm).signExtend 64).toNat
    let fits (op size : Nat) : Prop := Stands s en.val t.val op ∧ d + size ≤ 0x30000 ∧ d % size = 0
    let kept (size : Nat) : Prop :=
      (∀ k < size, Memory.read (engAt u en.val).dmem (d + k) = (regBits x i.rb >>> (8 * k)).truncate 8) ∧
      (∀ k, k < d ∨ d + size ≤ k → Memory.read (engAt u en.val).dmem k = Memory.read (engAt s en.val).dmem k) ∧
      (∀ n, n ≠ en.val → (engAt u n).dmem = (engAt s n).dmem) ∧
      u.pending = s.pending ∧ u.fs = s.fs ∧ u.tbl = s.tbl ∧ u.regs = s.regs
    Memory.wf (engAt s en.val).dmem = true →
    (fits 0x34 1 → exec (.st8 en t) s = .next u → kept 1) ∧ (fits 0x35 2 → exec (.st16 en t) s = .next u → kept 2) ∧
    (fits 0x36 4 → exec (.st32 en t) s = .next u → kept 4) ∧ (fits 0x37 8 → exec (.st64 en t) s = .next u → kept 8)

/-- R313 to R317: what the channel instructions do. A 17th staged word faults with code 9, CH_LENGTH. -/
def Obligations.Channels : Prop :=
  ∀ (en : Fin 128) (t : Fin 8) (s : State),
    let n := en.val
    let x := threadAt s n t.val
    let i := before s n t.val
    let s1 := issued s n t.val
    let w := 8 * n + t.val
    let c := i.imm % 64
    let word := regBits x i.rb
    let ends (u : State) : Host.Outcome State Fault Refusal := .next (afterStep u n t.val x.stepping)
    (Stands s n t.val 0x40 → x.staged.length < 16 →
      exec (.chWr en t) s = ends (setThread s1 n t.val { wrote x 0 0 with staged := x.staged ++ [word] })) ∧
    (Stands s n t.val 0x40 → 16 ≤ x.staged.length → exec (.chWr en t) s = ends (faultThread s1 n t.val 9)) ∧
    (Stands s n t.val 0x41 → 16 ≤ x.staged.length → exec (.chCommit en t) s = ends (faultThread s1 n t.val 9)) ∧
    (∀ p, Stands s n t.val 0x41 → x.staged.length < 16 → chanTarget s1 n i = some p →
      (chanAt s1 p c).words.length + x.staged.length + 1 ≤ 16 →
      exec (.chCommit en t) s =
        ends (pushMessage (setThread s1 n t.val { wrote x 0 0 with staged := [] }) p c w (x.staged ++ [word]))) ∧
    (∀ p, Stands s n t.val 0x41 → x.staged.length < 16 → chanTarget s1 n i = some p →
      16 < (chanAt s1 p c).words.length + x.staged.length + 1 →
      exec (.chCommit en t) s =
        ends (setChan (setThread s1 n t.val { x with staged := x.staged ++ [word], st := .waitChannel (64 * p + c) true }) p c
          { chanAt s1 p c with writers := (chanAt s1 p c).writers ++ [w] })) ∧
    (∀ y, Stands s n t.val 0x42 → chanWord (chanAt s1 (engPhys s1 n) c) w = some y →
      exec (.chRd en t) s = ends (takeWord s1 n t.val (engPhys s1 n) c x i y)) ∧
    (Stands s n t.val 0x42 → chanWord (chanAt s1 (engPhys s1 n) c) w = none →
      exec (.chRd en t) s =
        ends (setChan (setThread s1 n t.val { x with st := .waitChannel (64 * engPhys s1 n + c) false, rdWait := i.rd })
          (engPhys s1 n) c
          { chanAt s1 (engPhys s1 n) c with readers := (chanAt s1 (engPhys s1 n) c).readers ++ [w] })) ∧
    (∀ y, Stands s n t.val 0x43 → chanWord (chanAt s1 (engPhys s1 n) c) w = some y →
      exec (.chTry en t) s = ends (takeWord s1 n t.val (engPhys s1 n) c x i y)) ∧
    (Stands s n t.val 0x43 → chanWord (chanAt s1 (engPhys s1 n) c) w = none →
      exec (.chTry en t) s = ends (setThread s1 n t.val { wrote x i.rd 0 with chs := putBits x.chs 12 1 1 })) ∧
    (Stands s n t.val 0x44 →
      exec (.chDiscard en t) s = ends (setThread s1 n t.val { wrote x 0 0 with staged := [] })) ∧
    (∀ (cl : Fin 17) (ch : Fin 64) (v : Nat), nextWriter s cl.val ch.val = some v →
      let left := setChan s cl.val ch.val
        { chanAt s cl.val ch.val with writers := (chanAt s cl.val ch.val).writers.filter (· != v) }
      let on := resumeThread left (v / 8) (v % 8) 0 0
      exec (.chCommitRoom cl ch) s =
        .next (pushMessage (setThread on (v / 8) (v % 8) { wThread on v with staged := [] }) cl.val ch.val v
          (wThread s v).staged)) ∧
    (∀ (cl : Fin 17) (ch : Fin 64), (chanAt s cl.val ch.val).readers = [] →
      exec (.chWordsVisible cl ch) s =
        .next (setChan s cl.val ch.val { chanAt s cl.val ch.val with words := revealOldest (chanAt s cl.val ch.val).words }))

/-- R318 to R322: locks. A lock that is free is granted at once; LK_ACQ waits for one that is held, LK_TRY writes 2. The
faults are 8 LOCK_DENIED, 5 LOCK_HELD, 6 LOCK_LIMIT and 4 LOCK_NOT_HELD. -/
def Obligations.Locks : Prop :=
  ∀ (en : Fin 128) (t : Fin 8) (s : State),
    let n := en.val
    let x := threadAt s n t.val
    let i := before s n t.val
    let s1 := issued s n t.val
    let p := engPhys s1 n
    let l := i.imm % 256
    let w := 8 * n + t.val
    let ends (u : State) : Host.Outcome State Fault Refusal := .next (afterStep u n t.val x.stepping)
    let may : Prop := lockAllowed s1 n t.val l = true ∧ x.locks.contains l = false
    (Stands s n t.val 0x50 → may → x.locks.length < 4 → (lockAt s1 p l).holder = none →
      exec (.lkAcq en t) s = ends (grantLock (setThread s1 n t.val { x with rdWait := i.rd }) p l w)) ∧
    (Stands s n t.val 0x51 → may → x.locks.length < 4 → (lockAt s1 p l).holder = none →
      exec (.lkTry en t) s = ends (grantLock (setThread s1 n t.val { x with rdWait := i.rd }) p l w)) ∧
    (Stands s n t.val 0x50 → may → x.locks.length < 4 → (lockAt s1 p l).holder ≠ none →
      exec (.lkAcq en t) s =
        ends (setLock (setThread s1 n t.val { x with st := .waitLock l, rdWait := i.rd }) p l
          { lockAt s1 p l with waiters := (lockAt s1 p l).waiters ++ [w] })) ∧
    (Stands s n t.val 0x51 → may → (lockAt s1 p l).holder ≠ none →
      exec (.lkTry en t) s = ends (setThread s1 n t.val (wrote x i.rd 2))) ∧
    (Stands s n t.val 0x50 → may → 4 ≤ x.locks.length → exec (.lkAcq en t) s = ends (faultThread s1 n t.val 6)) ∧
    (Stands s n t.val 0x51 → may → 4 ≤ x.locks.length → (lockAt s1 p l).holder = none →
      exec (.lkTry en t) s = ends (faultThread s1 n t.val 6)) ∧
    (lockAllowed s1 n t.val l = false →
      (Stands s n t.val 0x50 → exec (.lkAcq en t) s = ends (faultThread s1 n t.val 8)) ∧
      (Stands s n t.val 0x51 → exec (.lkTry en t) s = ends (faultThread s1 n t.val 8))) ∧
    (lockAllowed s1 n t.val l = true → x.locks.contains l = true →
      (Stands s n t.val 0x50 → exec (.lkAcq en t) s = ends (faultThread s1 n t.val 5)) ∧
      (Stands s n t.val 0x51 → exec (.lkTry en t) s = ends (faultThread s1 n t.val 5))) ∧
    (Stands s n t.val 0x52 → x.locks.contains l = true →
      exec (.lkRel en t) s =
        ends (releaseLock (setThread s1 n t.val { wrote x 0 0 with locks := x.locks.filter (· != l) }) p l false)) ∧
    (Stands s n t.val 0x52 → x.locks.contains l = false → exec (.lkRel en t) s = ends (faultThread s1 n t.val 4))

/-- R303, R308, R344, R352: the timer, the time, BREAK, a halt, an unknown opcode and the task limit. TIME_READ of 2 or more
is an open value (log 6). -/
def Obligations.TimersAndStops : Prop :=
  ∀ (en : Fin 128) (t : Fin 8) (s : State),
    let n := en.val
    let x := threadAt s n t.val
    let i := before s n t.val
    let s1 := issued s n t.val
    let d := (regBits x i.ra + (BitVec.ofNat 32 i.imm).signExtend 64).toNat
    let ends (u : State) : Host.Outcome State Fault Refusal := .next (afterStep u n t.val x.stepping)
    (Stands s n t.val 0x72 → exec (.timerArm en t) s =
      ends (setThread s1 n t.val { wrote x 0 0 with timer := if d = 0 then none else some (s.clk.cc + d) })) ∧
    (Stands s n t.val 0x73 → exec (.timerWait en t) s =
      ends (setThread s1 n t.val (if x.timer.isSome then { x with st := .waitTimer } else wrote x 0 0))) ∧
    (x.timer.isSome = true → x.st = .waitTimer → exec (.timerExpire en t) s =
      .next (resumeThread (setThread s n t.val { x with timer := none }) n t.val 0 0)) ∧
    (Stands s n t.val 0x74 → i.imm = 0 → exec (.timeRead en t) s =
      ends (setThread s1 n t.val (wrote x i.rd (BitVec.ofNat 64 (timeNs s1))))) ∧
    (Stands s n t.val 0x74 → i.imm = 1 → exec (.timeRead en t) s =
      ends (setThread s1 n t.val (wrote x i.rd (BitVec.ofNat 64 (coarse s1))))) ∧
    (Stands s n t.val 0x74 → 2 ≤ i.imm → exec (.timeRead en t) s =
      ends (setThread (draw s1).2 n t.val (wrote x i.rd (Config.freeValue s1.free)))) ∧
    (Stands s n t.val 0x7F → exec (.breakHalt en t) s =
      ends (setThread s1 n t.val { wrote x 0 0 with st := .halted, resume := .ready, broke := true })) ∧
    (x.haltReq = true → x.st ≠ .waitMemory → x.st ≠ .halted → exec (.threadHalt en t) s =
      .next (setThread s n t.val { x with st := .halted, resume := x.st, haltReq := false, broke := false })) ∧
    (∀ op, Stands s n t.val op → opKnown op = false →
      exec (.illegalOp en t) s = ends (faultThread s1 n t.val 1)) ∧
    (x.task.isSome = true → x.st ≠ .halted → regField s .schedLimitCfg 0 0 16 ≠ 0 →
      exec (.taskLimit en t) s = .next (faultThread (count s 9 (n / 8) 42 1) n t.val 12))

/-- R310 to R312: the flow-store, table and policy operations, FRAME_SEND and TASK_END, by a thread that serves a task of a
kind that may use them, with its data in data memory. R310: an operation by a task of a kind that may not use it faults with
code 10, FS_DENIED, and one whose data does not lie in data memory with code 2, MEM_RANGE. -/
def Obligations.TaskOperations : Prop :=
  (∀ (en : Fin 128) (t : Fin 8) (s : State) (id : Nat) (y : Task),
      let n := en.val
      let x := threadAt s n t.val
      let i := before s n t.val
      let s1 := issued s n t.val
      let ra := (regBits x i.ra).toNat
      let rb := (regBits x i.rb).toNat
      let fits (a len : Nat) : Prop := a + len ≤ 0x30000
      let ends (u : State) : Host.Outcome State Fault Refusal := .next (afterStep u n t.val x.stepping)
      servedTask s1 n t.val = some (id, y) →
      (Stands s n t.val 0x60 → 1 ≤ taskKind y → taskKind y ≤ 5 → fits ra 40 → fits rb 128 →
        exec (.fsProbe en t) s =
          ends (memOp (touchRecord s1 (taskPlane y) (placeOfKey s1 (dmemBytes s1 n ra 40))) n t.val i
            (probe s1 (dmemBytes s1 n ra 40)).1 rb (probe s1 (dmemBytes s1 n ra 40)).2)) ∧
      (Stands s n t.val 0x61 → taskKind y = 1 ∨ taskKind y = 2 ∨ taskKind y = 5 → fits ra 128 →
        exec (.fsInsert en t) s = ends (startInsert (waitMemory s1 n t.val i) (dmemBytes s1 n ra 128) [] (.thread n t.val id))) ∧
      (∀ k, Stands s n t.val 0x62 → taskKind y = 1 ∨ taskKind y = 2 ∨ taskKind y = 4 ∨ taskKind y = 5 → fits ra 30 →
        y.written.bind (writtenPlace s1) = some (.hot k) →
        let w := touchRecord s1 (taskPlane y) (some (.hot k))
        exec (.fsWrite en t) s =
          ends (memOp (rewritten (mirrorChange (setRec w k (paste (recAt w k) 80 (dmemBytes s1 n ra 30))) k 2) (taskKind y)
            (.hot k)) n t.val i 0 0 [])) ∧
      (∀ k, Stands s n t.val 0x62 → taskKind y = 1 ∨ taskKind y = 2 ∨ taskKind y = 4 ∨ taskKind y = 5 → fits ra 30 →
        y.written.bind (writtenPlace s1) = some (.cold k) →
        exec (.fsWrite en t) s =
          ends (memOp (rewritten (mirrorCold (modCold s1 k (fun r e => (paste r 80 (dmemBytes s1 n ra 30), e))) k 2)
            (taskKind y) (.cold k)) n t.val i 0 0 [])) ∧
      (Stands s n t.val 0x62 → taskKind y = 1 ∨ taskKind y = 2 ∨ taskKind y = 4 ∨ taskKind y = 5 → fits ra 30 →
        y.written.bind (writtenPlace s1) = none → exec (.fsWrite en t) s = ends (memOp s1 n t.val i 1 0 [])) ∧
      (∀ k, Stands s n t.val 0x63 → taskKind y = 1 ∨ taskKind y = 4 ∨ taskKind y = 5 → fits ra 40 →
        delTarget s1 (dmemBytes s1 n ra 40) = .hot k →
        exec (.fsDelete en t) s =
          ends (memOp (deleteSlot s1 k (if taskKind y = 5 then 2 else 4) .none) n t.val i 0 0 [])) ∧
      (∀ k, Stands s n t.val 0x63 → taskKind y = 1 ∨ taskKind y = 4 ∨ taskKind y = 5 → fits ra 40 →
        delTarget s1 (dmemBytes s1 n ra 40) = .cold k →
        exec (.fsDelete en t) s =
          ends (memOp (deleteCold s1 k (if taskKind y = 5 then 2 else 4) .none) n t.val i 0 0 [])) ∧
      (Stands s n t.val 0x63 → taskKind y = 1 ∨ taskKind y = 4 ∨ taskKind y = 5 → fits ra 40 →
        delTarget s1 (dmemBytes s1 n ra 40) = .missing → exec (.fsDelete en t) s = ends (memOp s1 n t.val i 1 0 [])) ∧
      (Stands s n t.val 0x63 → taskKind y = 1 ∨ taskKind y = 4 ∨ taskKind y = 5 → fits ra 40 →
        delTarget s1 (dmemBytes s1 n ra 40) = .busy → exec (.fsDelete en t) s = ends (memOp s1 n t.val i 2 0 [])) ∧
      (Stands s n t.val 0x63 → taskKind y = 1 ∨ taskKind y = 4 ∨ taskKind y = 5 → fits ra 40 →
        delTarget s1 (dmemBytes s1 n ra 40) = .promoted → exec (.fsDelete en t) s = ends (waitMemory s1 n t.val i)) ∧
      (∀ b, Stands s n t.val 0x64 → 1 ≤ taskKind y → taskKind y ≤ 5 → fits rb 128 → tblKeyLen i = 0 ∨ fits ra (tblKeyLen i) →
        tblEntry s1 n x i = some b →
        exec (.tblRead en t) s = ends (memOp s1 n t.val i 1 rb (cut b 0 128))) ∧
      (∀ u p b, Stands s n t.val 0x65 → taskKind y = 3 → fits ra 16 → (foldOf s1 (foldName y).1 (foldName y).2).isSome = true →
        takeCounts s1 (foldName y).1 (foldName y).2 = (u, p, b) →
        exec (.fsCounts en t) s = ends (memOp u n t.val i 0 ra (le 8 p ++ le 8 b))) ∧
      (Stands s n t.val 0x66 → taskKind y = 3 → fits ra 16 → (foldOf s1 (foldName y).1 (foldName y).2).isSome = true →
        exec (.fsFoldAdd en t) s = ends (memOp (closeFold s1 (foldName y).1 (foldName y).2 (leVal (dmemBytes s1 n ra 8))
          (leVal (dmemBytes s1 n (ra + 8) 8))) n t.val i 0 0 [])) ∧
      (Stands s n t.val 0x67 → 1 ≤ taskKind y → taskKind y ≤ 5 → fits rb (memReadLen i) →
        ∃ u b, policyBytes s1 ra (memReadLen i) = (b, u) ∧
          ∃ v, exec (.memRead en t) s = ends v ∧ (threadAt v n t.val).st = .waitMemory ∧
            ((threadAt v n t.val).mem.map (fun m => (m.addr, m.data))) = some (rb, b)) ∧
      (∀ (m : MemResult) (r : ReadOutcome), x.mem = some m → m.load = false → m.ddr = none →
        exec (.memoryOpComplete en t r) s =
          .next (writeDmem (resumeThread (dmemCorrected s n (r == .corrected)) n t.val m.rd m.value.toNat) n m.addr m.data)) ∧
      (∀ (m : MemResult) (r : ReadOutcome) (a len : Nat), x.mem = some m → m.load = false → m.ddr = some (a, len) →
        let v := ddrReadTask s (((servedTask s n t.val).map (fun z => taskPlane z.2)).getD 0) a len r
        exec (.memoryOpComplete en t r) s =
          .next (if readsBad v a len r then faultThread v n t.val 13
            else writeDmem (resumeThread v n t.val m.rd m.value.toNat) n m.addr m.data)) ∧
      (Stands s n t.val 0x70 → 60 ≤ rb → rb ≤ 2044 → fits ra rb →
        exec (.frameSend en t) s =
          ends (memOp (release (count s1 8 n 8 1) (engPhys s1 n) id
            (.frame (i.imm % 4096) (i.imm / 4096 % 16) (dmemBytes s1 n ra rb) (0x20 + lastPhys s1 n)))
            n t.val { i with rd := 0 } 0 0 [])) ∧
      (Stands s n t.val 0x7E →
        exec (.taskEnd en t) s =
          ends (settleTask (endTask (leaveThread (trace (count s1 8 n (1 + taskKind y) 1) (engPhys s1 n) 6 n t.val id y)
            n t.val true) (engPhys s1 n) n id i.imm y) (engPhys s1 n) id))) ∧
  (∀ (en : Fin 128) (t : Fin 8) (s : State) (id : Nat) (y : Task),
      let n := en.val
      let x := threadAt s n t.val
      let i := before s n t.val
      let s1 := issued s n t.val
      let ra := (regBits x i.ra).toNat
      let rb := (regBits x i.rb).toNat
      let ends (u : State) : Host.Outcome State Fault Refusal := .next (afterStep u n t.val x.stepping)
      servedTask s1 n t.val = some (id, y) →
      (Stands s n t.val 0x61 → taskKind y = 3 ∨ taskKind y = 4 → exec (.fsInsert en t) s = ends (faultThread s1 n t.val 10)) ∧
      (Stands s n t.val 0x62 → taskKind y = 3 → exec (.fsWrite en t) s = ends (faultThread s1 n t.val 10)) ∧
      (Stands s n t.val 0x63 → taskKind y = 2 ∨ taskKind y = 3 → exec (.fsDelete en t) s = ends (faultThread s1 n t.val 10)) ∧
      (Stands s n t.val 0x65 → taskKind y ≠ 3 → exec (.fsCounts en t) s = ends (faultThread s1 n t.val 10)) ∧
      (Stands s n t.val 0x66 → taskKind y ≠ 3 → exec (.fsFoldAdd en t) s = ends (faultThread s1 n t.val 10)) ∧
      (1 ≤ taskKind y → taskKind y ≤ 5 →
        (Stands s n t.val 0x60 → 0x30000 < ra + 40 ∨ 0x30000 < rb + 128 →
          exec (.fsProbe en t) s = ends (faultThread s1 n t.val 2)) ∧
        (Stands s n t.val 0x64 → 0x30000 < rb + 128 → exec (.tblRead en t) s = ends (faultThread s1 n t.val 2)) ∧
        (Stands s n t.val 0x67 → 0x30000 < rb + memReadLen i → exec (.memRead en t) s = ends (faultThread s1 n t.val 2))) ∧
      (Stands s n t.val 0x70 → rb < 60 ∨ 2044 < rb → exec (.frameSend en t) s = ends (faultThread s1 n t.val 11)) ∧
      (Stands s n t.val 0x70 → 60 ≤ rb → rb ≤ 2044 → 0x30000 < ra + rb →
        exec (.frameSend en t) s = ends (faultThread s1 n t.val 2)))

/-- R330, R331, R338, R339: a task of a setup lane, of a fold and of a command arrives at the cluster that serves it and
enters its matching store, which has room for it. R325, R334 to R337: an operand arrives, a ready task is dispatched to the
thread that R335 names, a management task is pre-empted, and a gated engine is asked to wake for a ready task. -/
def Obligations.Tasks : Prop :=
  (∀ (s : State) (p : Nat),
      (∀ (n : SliceNo) (c : Fin 16) (id : Nat) (t : Task), clusterPhys s c.val = some p →
        (sliceAt s n.val).setupQ.find? (fun id => match taskAt s id with
          | some t => t.cluster == c.val
          | none => false) = some id →
        taskAt s id = some t → storeRoom s p (taskKind t) = true →
        let s1 := checkAdmission (setSlice s n.val
          { sliceAt s n.val with setupQ := (sliceAt s n.val).setupQ.filter (· != id) }) n.val
        arriveEnd s1 t = none → exec (.taskArrive (.lane n c)) s = .next (enterStore s1 p id)) ∧
      (∀ (slot : Nat) (f : Fold), clusterPhys s (slot % 16) = some p →
        s.fs.folds.find? (fun f => f.slot == slot && f.task.isNone) = some f → storeRoom s p 3 = true →
        let made := newTask s (foldTask s slot f.gen (slot % 16))
        exec (.taskArrive (.fold slot)) s =
          .next (enterStore (modFold made.1 slot f.gen (fun f => { f with task := some made.2 })) p made.2)) ∧
      (∀ (q : Fin 16) (c : Copy) (cs : List Copy) (f : Frame), clusterPhys s q.val = some p →
        (queueAt s (internalQ q.val)).copies = c :: cs → frameAt s c.fid = some f → f.whole = true →
        shaperOpen s (internalQ q.val) = true → storeRoom s p 4 = true →
        let len := copyLen f c.trunc
        let s1 := popCopy (chargeQueue s (internalQ q.val) len) (internalQ q.val) c
        let made := newTask (countQ s1 (internalQ q.val) 2 len) (internalTask s1 q.val c f)
        exec (.taskArrive (.internal q)) s = .next (enterStore made.1 p made.2)) ∧
      (∀ (aseq : BitVec 32) (desc : Bytes) (a : Accepted), clusterPhys s 0 = some p →
        s.host.accepted.find? (fun a => a.aseq == aseq.toNat && !a.started) = some a → mustWait s a = false →
        storeRoom s p 5 = true →
        let s1 := s.withHost { s.host with accepted := s.host.accepted.map (fun b =>
          if b.aseq = aseq.toNat then { b with started := true } else b) }
        let made := newTask s1 { desc := mgmtDesc a desc, cluster := 0, arrived := 0, aseq := some aseq.toNat }
        exec (.taskArrive (.mgmt aseq desc)) s = .next (enterStore made.1 p made.2))) ∧
  (∀ (s : State),
      (∀ (task : Nat) (k : Fin 4) (t : Task) (b : Bytes) (u : State), taskAt s task = some t →
        t.missing.contains k.val = true → operandDdr s t k.val = none → operandBytes s t k.val = (b, u) →
        let t' := { t with
          operands := t.operands ++ [(k.val, b.take (slotSize (declBits t k.val 4 2)))]
          missing := t.missing.filter (· != k.val) }
        exec (.operandArrive task k true) s =
          .next (if t'.missing = [] then
              trace (setTask u task (some t')) (bits (regVal s .clusterMap t.cluster) 0 5) 2 0xFF 0 task t'
            else setTask u task (some t'))) ∧
      (∀ (c : Fin 16) (p id n t : Nat) (x : Task), clusterPhys s c.val = some p → nextTask s c.val p = some id →
        chooseThread s c.val = some (n, t) → taskAt s id = some x →
        exec (.taskDispatch c) s = .next (startTask s p n t id x)) ∧
      (∀ (en : Fin 128) (t : Fin 8) (p id : Nat) (x : Task), clusterPhys s (en.val / 8) = some p →
        (threadAt s en.val t.val).task = some id → taskAt s id = some x → mayPreempt s (en.val / 8) p en.val t.val x = true →
        let y := threadAt s en.val t.val
        let x' := { x with
          st := .preempted
          saved := some { regs := y.regs, chs := y.chs, pc := y.pc, timer := y.timer
                          area := Memory.readN (engAt s en.val).dmem (areaOf t.val) 1024, savedAt := s.clk.cc } }
        exec (.preempt en t) s =
          .next (trace (setThread (count (setTask s id (some x')) 9 (en.val / 8) 43 1) en.val t.val { haltReq := y.haltReq }) p 4 en.val t.val id x')) ∧
      (∀ (c : Fin 16) (p id q : Nat), clusterPhys s c.val = some p → nextTask s c.val p = some id →
        chooseThread s c.val = none →
        ((clusterEngines c.val).filterMap (physOf s)).find? (fun q =>
          (blkAt s .engine q).st == .clockGated || (blkAt s .engine q).st == .powerGated) = some q →
        exec (.engineWakeRequest c) s = .next (wakeRequest s .engine [q] false)))

/-- R341 to R349, R356: engines that stall or fault, the spare that takes a place, self-test, a cluster fault, and the end of
a drain. -/
def Obligations.EngineEvents : Prop :=
  ∀ (s : State) (en : Fin 128) (p : Nat), physOf s en.val = some p →
    let n := en.val
    (engineStuck s n = true → clusterHalted s (n / 8) = false →
      let u := postEvent s 0x08 1 (engOrigin s (lastPhys s n) 0) ((List.range 8).flatMap (fun t =>
        le 1 (threadCode (threadAt s n t).st) ++ le 4 (threadAt s n t).pc ++ le 1 (awaited (threadAt s n t).st) ++
          locksHeld (threadAt s n t)))
      exec (.engineStall en) s =
        .next (stopEngine ((servingThreads u n).foldl (fun s x => traceThread s n x.1 x.2.1 9) u) n .selfTest)) ∧
    (∀ (cause : Fin 2) (addr : BitVec 32), exec (.engineFault en cause addr) s =
      .next (stopEngine (postEvent s 0x08 2 (engOrigin s p 0) (le 1 cause.val ++ le 8 addr.toNat)) n .retired)) ∧
    (∀ q, (engAt s n).spare = some q →
      exec (.spareLoaded en) s =
        .next (postSubstituted (loadImage (mapEngine (setEng (setPhys s q .inUse) n { engAt s n with spare := none }) n q) n)
          (some q) n (lastPhys s n))) ∧
    (∀ (phys : Fin 136) (pass : Bool), physAt s phys.val = .selfTest →
      exec (.engineSelfTestDone phys pass) s =
        .next (postEvent (setPhys s phys.val (if pass then .spare else .retired)) 0x08 4
          (engOrigin (setPhys s phys.val (if pass then .spare else .retired)) phys.val 0) (le 1 (if pass then 0 else 1)))) ∧
    (∀ (cl : Fin 16) (unit : Fin 3) (q : Nat), clusterPhys s cl.val = some q →
      ∃ u ok, exec (.clusterFault cl unit) s =
        .next (postEvent u 0x08 5 (origin u q (0x48 + unit.val) 0 0) (le 1 cl.val ++ le 1 (flag ok)))) ∧
    (∀ a, (engAt s n).draining = some a → allIdle s n = true →
      exec (.engDrained en) s = .next (advanceRemap (finish (drainEngine s n) a {})))

/-- R350, R352 to R354, R356: the commands of engines, scheduler and debugger on a thread or an engine in the state that they
need. -/
def Obligations.EngineCommands : Prop :=
  ∀ (c : Cmd) (s : State) (a : Accepted) (en : BitVec 16) (t : BitVec 8),
    let s0 := begun c s a
    let n := en.toNat
    let k := t.toNat
    let e := engAt s0 n
    let x := threadAt s0 n k
    let done (u : State) (r : Reply) : Host.Outcome State Fault Refusal := .next (completeCmd u (asRun c a) r)
    n < 128 → k < 8 → (physOf s0 n).isSome = true →
    (CmdRuns c 0x0801 s a → engDrained e = false → e.draining = none → allIdle s0 n = true →
      exec (.engDrain c en) s = done (drainEngine s0 n) {}) ∧
    (CmdRuns c 0x0801 s a → engDrained e = false → e.draining = none → allIdle s0 n = false →
      exec (.engDrain c en) s = .next (setEng s0 n { e with draining := some a.aseq })) ∧
    (CmdRuns c 0x0803 s a → e.drained = true → e.image.isSome = true →
      exec (.engResume c en) s = done (setEng s0 n { e with drained := false }) {}) ∧
    (CmdRuns c 0x0804 s a → ∃ b : Bytes, b.length = 87 ∧ exec (.engStatus c en) s = done s0 { block := b }) ∧
    (∀ cl : BitVec 8, CmdRuns c 0x0805 s a → cl.toNat < 16 →
      ∃ b : Bytes, b.length = 8 * (4 + 17 + 2 + 1 + 16 + 16 + 5) ∧ exec (.schedStatus c cl) s = done s0 { block := b }) ∧
    (∀ mask : BitVec 8, CmdRuns c 0x0806 s a → exec (.dbgHalt c en mask) s =
      done (modThreads s0 n mask.toNat (fun x => if x.st = .halted then x else { x with haltReq := true })) {}) ∧
    (CmdRuns c 0x0807 s a → x.st = .halted → x.resume = .ready →
      exec (.dbgStep c en t) s = done (setThread s0 n k { x with st := .ready, stepping := true, broke := false }) {}) ∧
    (∀ mask : BitVec 8, CmdRuns c 0x0808 s a → bit mask.toNat k = true → x.st = .halted →
      exec (.dbgResume c en mask) s =
        done (modThreads s0 n mask.toNat (fun x => if x.st = .halted then { x with st := x.resume, broke := false } else x)) {}) ∧
    (∀ (kind : BitVec 8) (start len : BitVec 32) (addr : BitVec 64), CmdRuns c 0x0809 s a → c.src ≠ .relay → kind = 1 →
      start.toNat + len.toNat ≤ 0x30000 → len.toNat + 8 * x.staged.length + 2 ≤ 4096 →
      exec (.dbgRead c en t kind start len addr) s =
        done s0 { block := Memory.readN e.dmem start.toNat len.toNat ++ x.staged.flatMap (fun w => le 8 w.toNat) ++ le 2 x.chs
                  addr := some addr.toNat }) ∧
    (∀ (kind : BitVec 8) (start len : BitVec 32) (addr : BitVec 64), CmdRuns c 0x0809 s a → c.src ≠ .relay → kind = 0 →
      start.toNat + len.toNat ≤ 32 → 8 * len.toNat + 8 * x.staged.length + 2 ≤ 4096 →
      exec (.dbgRead c en t kind start len addr) s =
        done s0 { block := (upFrom start.toNat len.toNat).flatMap (fun r => le 8 (regBits x r).toNat) ++
                    x.staged.flatMap (fun w => le 8 w.toNat) ++ le 2 x.chs
                  addr := some addr.toNat }) ∧
    (∀ (start : BitVec 32) (data : Bytes), CmdRuns c 0x080A s a → x.st = .halted → start.toNat + data.length ≤ 0x30000 →
      exec (.dbgWrite c en t 1 start data) s = done (writeDmem s0 n start.toNat data) {}) ∧
    (∀ (start : BitVec 32) (data : Bytes), CmdRuns c 0x080A s a → x.st = .halted → start.toNat + data.length / 8 ≤ 32 →
      exec (.dbgWrite c en t 0 start data) s =
        done (setThread s0 n k (putRegs x start.toNat data (data.length / 8))) {}) ∧
    (∀ (cl lock : BitVec 8) (p w : Nat), CmdRuns c 0x080B s a → cl.toNat < 16 → clusterPhys s0 cl.toNat = some p →
      (lockAt s0 p lock.toNat).holder = some w → (wThread s0 w).st = .halted →
      exec (.dbgLockRelease c cl lock) s =
        done (releaseLock (setThread s0 (w / 8) (w % 8)
          { wThread s0 w with locks := (wThread s0 w).locks.filter (· != lock.toNat) }) p lock.toNat true) {}) ∧
    (CmdRuns c 0x080C s a → x.st = .halted → x.task.isSome = true →
      exec (.dbgAbort c en t) s = done (faultThread s0 n k 14) {})

/-- R435, R469, R644: what a write of an aligned 4-B or 8-B place of the register file does after READY. R104, R599: the
owner's write of a word of HASH_KEY while no slice is open, and the write of another master. -/
def Obligations.RegisterWrites : Prop :=
  (∀ (s : State) (m : Master) (off : BitVec 26) (v : BitVec 64) (r : Reg) (i : Nat),
      s.boot.phase = .ready → masterPresent s m.val = true → regAt off.toNat = some (r, i) →
      let u := seen s m off.toNat
      let w := setHeld (seen s m off.toNat) m.val none
      let plain : Prop := r.written ≠ 0 ∧
        r ∉ [.ringCfg, .ringBase, .ringWb, .ownBid, .ownNonce, .ownCtrl, .dmaChCfg, .bootPushCtrl, .hashKey, .imgSvnFloor]
      let takes (t : State) (x : Nat) : State :=
        storeReg (countReservedBits t m.val r x) r i (mergedValue r (combineVal (countReservedBits t m.val r x) r i) x)
      (plain → r.size = 4 → off.toNat % 4 = 0 → writeRefused u m.val r i = none →
        exec (.registerWrite m off 4 v) s = .next (takes u (v.toNat % 2 ^ 32))) ∧
      (plain → r.size = 8 → off.toNat % 8 = 0 → writeRefused w m.val r i = none →
        exec (.registerWrite m off 8 v) s = .next (takes w v.toNat)) ∧
      (plain → r.size = 4 → off.toNat % 4 = 0 → r.ownerOnly = true → s.own.owner ≠ some m.val →
        r ∉ [.bootPushAddr, .bootPushLen, .bootCertAddr] →
        exec (.registerWrite m off 4 v) s = .next (nonOwner u m.val (some (Reg.off r i)))) ∧
      (r.size = 8 → off.toNat = Reg.off r i → off.toNat % 4 = 0 → writeRefused u m.val r i = none →
        exec (.registerWrite m off 4 v) s =
          .next (setHeld (countReservedBits u m.val r (v.toNat % 2 ^ 32)) m.val
            (some (Reg.off r i, BitVec.ofNat 32 (v.toNat &&& r.named)))))) ∧
  (∀ (s : State) (m : Master) (k : Fin 64) (w : Fin 13) (v : BitVec 32),
      s.boot.phase = .ready → masterPresent s m.val = true →
      let i := 13 * k.val + w.val
      let u := seen s m (Reg.off .hashKey i)
      (s.own.owner = some m.val → exec (.hashKeyWrite m k w v) s = .next (logSeeds (storeReg u .hashKey i v.toNat))) ∧
      (s.own.owner ≠ some m.val →
        exec (.hashKeyWrite m k w v) s = .next (nonOwner u m.val (some (Reg.off .hashKey i)))))

/-- R11, R15: a write changes the bits of the register's written fields and no other bit. -/
def Obligations.WrittenFieldsOnly : Prop :=
  ∀ (r : Reg) (old v k : Nat), k < 64 →
    (mergedValue r old v).testBit k = if r.written.testBit k then v.testBit k else old.testBit k

/-- R484: while ENABLE is 1, a write of the owner to DMA_CH_CHAIN or DMA_CH_WB is discarded, the register keeping its value,
and is counted in the reserved-write counter of the host port that carried it. -/
def Obligations.DmaRegistersLocked : Prop :=
  ∀ (s : State) (m : Master) (r : Reg) (ch : Nat) (off : BitVec 26) (v : BitVec 64), m.val < 2 → s.boot.phase = .ready →
    hostPresent s m.val = true → s.own.owner = some m.val → r = .dmaChChain ∨ r = .dmaChWb →
    regAt off.toNat = some (r, ch) → dmaEnabled s ch = true →
    let u := seen s m off.toNat
    (off.toNat % 8 = 0 →
      let t := count (setHeld u m.val none) 13 m.val 0 1
      exec (.registerWrite m off 8 v) s = .next t ∧ regVal t r ch = regVal s r ch) ∧
    (off.toNat % 4 = 0 →
      let t := setHeld (count u 13 m.val 0 1) m.val none
      exec (.registerWrite m off 4 v) s = .next t ∧ regVal t r ch = regVal s r ch)

/-- R439 to R442, R444: doorbells, the enable and the disable of a ring, interrupt moderation and the unmasking of a vector.
R436, R472: a host port resets, its link comes up, and the management bus resets. -/
def Obligations.RingEvents : Prop :=
  (∀ (s : State) (host : HostNo) (page : Fin 184), hostPresent s host.val = true →
      let h := host.val
      let p := page.val
      let r := ringAt s h p
      let fills : Prop := ringType p = 1 ∨ ringType p = 2 ∨ ringType p = 5
      let m : Master := ⟨h, by have := host.isLt; omega⟩
      (∀ v : BitVec 32, r.st = .running → ringChain s h p = false → doorbellValid s h p v.toNat = true →
        exec (.doorbell host page 0 4 v) s =
          .next (setRing s h p (if fills then { r with cons := v.toNat } else { r with prod := v.toNat }))) ∧
      (∀ v : BitVec 32, r.st = .running → ringChain s h p = false → doorbellValid s h p v.toNat = false →
        exec (.doorbell host page 0 4 v) s = .next (ringError s h p 2)) ∧
      (∀ v : BitVec 32, r.st = .running → ringChain s h p = true →
        exec (.doorbell host page 0 4 v) s = .next (chainDoorbell s h p)) ∧
      (∀ v : BitVec 32, r.st ≠ .running → exec (.doorbell host page 0 4 v) s = .next (countReserved s h 1)) ∧
      (∀ (off : BitVec 12) (size : Nat) (v : BitVec 32), off ≠ 0 ∨ size ≠ 4 →
        exec (.doorbell host page off size v) s = .next (countReserved s h 1)) ∧
      (∀ v : BitVec 32, s.boot.phase = .ready →
        let u := seen s m (Reg.off .ringCfg (ringNo h p))
        ringEnabled u h p = false →
        exec (.ringEnable m host page v) s = .next (startRing (setReg u .ringCfg (ringNo h p) (v ||| 0x10).toNat) h p)) ∧
      (∀ v : BitVec 32, s.boot.phase = .ready →
        let u := seen s m (Reg.off .ringCfg (ringNo h p))
        ringEnabled u h p = true →
        exec (.ringDisable m host page v) s =
          .next (disableRing (setReg u .ringCfg (ringNo h p) (v &&& 0xffffffef).toNat) h p 1)) ∧
      (r.unsignalled ≠ 0 → bits (regVal s .ringCfg (ringNo h p)) 28 4 ≠ 0 →
        exec (.interruptModerationExpire host page) s =
          .next (sendMsix (setRing s h p { r with unsignalled := 0 }) h (bits (regVal s .ringCfg (ringNo h p)) 8 8))) ∧
      (∀ v : BitVec 8, getAt false s.host.msixPending (256 * h + v.toNat) = false →
        exec (.msixUnmask host v) s =
          .next (s.withHost { s.host with masked := setAt true s.host.masked (256 * h + v.toNat) false }))) ∧
  (∀ (s : State) (host : HostNo), hostPresent s host.val = true →
      let h := host.val
      let l : HostLink := getAt {} s.host.links h
      (∀ cause : Fin 4, cause.val ≠ 0 →
        let u := resetRings s h 7 184
        let l' : HostLink := { (getAt {} u.host.links h : HostLink) with up := false, cause := cause.val }
        let w := u.withHost { u.host with links := setAt {} u.host.links h l' }
        exec (.hostPortReset host cause) s =
          .next (postEvent (pathLoss w h) 0x0B 4 (linkOrigin w h) (linkBody l'))) ∧
      (∀ rate width : BitVec 8,
        let l' : HostLink := { l with up := true, rate := rate.toNat, width := width.toNat }
        let w := s.withHost { s.host with links := setAt {} s.host.links h { l' with cause := 0 } }
        exec (.hostLinkUp host rate width) s =
          .next (if l.cause = 0 then w else postEvent w 0x0B 5 (linkOrigin w h) (linkBody l'))) ∧
      (s.own.owner = some 2 → exec .i3cBusReset s = .next (vacancy s 5)) ∧
      (s.own.owner ≠ some 2 → exec .i3cBusReset s = .next s))

/-- R437, R447, R452, R455: the command processor takes a descriptor from the mailbox, from a CMD ring and from RELAY cells,
and a chain word of a ring returns. -/
def Obligations.DescriptorsTaken : Prop :=
  ∀ (s : State) (desc : Bytes), s.boot.phase = .ready →
    (s.host.mailbox = none →
      exec (.mailboxWrite desc) s = .next (s.withHost { s.host with mailbox := some (cut desc 0 64) })) ∧
    (s.host.mailbox.isSome = true → exec (.mailboxWrite desc) s = .next (count s 14 0 4 1)) ∧
    (∀ (d : Bytes) (ok : Bool), s.host.mailbox = some d → s.host.accepted.any (fun a => a.src == .mailbox) = false →
      exec (.commandAccept .mailbox desc ok) s = .next (acceptDesc s .mailbox d 0).1) ∧
    (∀ ok : Bool, exec (.commandAccept .relay desc ok) s = .next (acceptDesc s .relay desc 0).1) ∧
    (∀ (h : HostNo) (ring : Fin 64), ringRuns s h.val ring.val = true → ringChain s h.val ring.val = false →
      ringUsed (ringAt s h.val ring.val) ≠ 0 → leAt desc 3 1 < 64 →
      cplRoom s (.cmdRing h ring) (leAt desc 3 1) = true →
      s.own.owner ≠ some h.val ∨ s.host.accepted.length < 1024 →
      let u := (acceptDesc s (.cmdRing h ring) desc 0).1
      exec (.commandAccept (.cmdRing h ring) desc true) s =
        .next (if ringRuns u h.val ring.val then chainFetched u h.val ring.val (leAt desc 16 8) else u)) ∧
    (∀ (h : HostNo) (page : Fin 184) (word : BitVec 64), ringRuns s h.val page.val = true →
      ringChain s h.val page.val = true → (ringAt s h.val page.val).chainReading = true →
      exec (.chainWordReturn (.ring h page) word desc true) s = .next (chainStep s h.val page.val word.toNat))

/-- R447: the accept number of an accepted command is the last one plus 1 modulo 2^32, and commands are accepted in that
order. -/
def Obligations.AcceptNumbers : Prop :=
  ∀ (s t : State) (src : Source) (op seq cpl result tag inst : Nat) (fence quiet ok : Bool) (a : Accepted),
    accept s src op seq cpl fence quiet result tag inst ok = (t, some a) →
    a.aseq = (s.host.lastAseq + 1) % 2 ^ 32 ∧ t.host.lastAseq = a.aseq ∧ t.host.accepted = s.host.accepted ++ [a] ∧
      a.started = false ∧ a.opcode = op ∧ a.src = src ∧ a.seq = seq ∧ a.inst = inst ∧ s.own.owner = some (masterOf src)

/-- R447 to R449: the end of a command from a CMD ring that is not QUIET. It is no longer outstanding, and its 16-B
completion stands at the producer index of its CPL ring, in the last posted write before the index and the interrupt. -/
def Obligations.CompletionPosted : Prop :=
  ∀ (s : State) (a : Accepted) (h : HostNo) (ring : Fin 64) (r : Reply), a.src = .cmdRing h ring → a.quiet = false →
    r.block = [] → a.cpl < 64 → ringRuns s h.val (64 + a.cpl) = true →
    regVal s .ringWb (ringNo h.val (64 + a.cpl)) = 0 → regField s .ringCfg (ringNo h.val (64 + a.cpl)) 28 4 = 0 →
    getAt true s.host.masked (256 * h.val + regField s .ringCfg (ringNo h.val (64 + a.cpl)) 8 8) = false →
    let q := (ringAt s h.val (64 + a.cpl)).prod
    let t := completeCmd s a r
    t.host.accepted = s.host.accepted.filter (fun b => b.aseq != a.aseq) ∧
    t.out = .msix h.val (regField s .ringCfg (ringNo h.val (64 + a.cpl)) 8 8) ::
      .hostWrite h.val (entryAddr s h.val (64 + a.cpl) q)
        (completionBytes a r.status r.result (phaseOf s h.val (64 + a.cpl) q)) :: s.out ∧
    (ringAt t h.val (64 + a.cpl)).prod = (q + 1) % 2 ^ 32

/-- R453: NOP, RING_STATUS and HOST_STATUS. R446: a FENCE command does not run while an earlier accepted command has not
completed. -/
def Obligations.HostCommands : Prop :=
  (∀ (c : Cmd) (s : State) (a : Accepted),
      let s0 := begun c s a
      let done (u : State) (r : Reply) : Host.Outcome State Fault Refusal := .next (completeCmd u (asRun c a) r)
      (CmdRuns c 0x0B03 s a → exec (.nop c) s = done s0 {}) ∧
      (∀ host type ring : BitVec 8, CmdRuns c 0x0B01 s a → host.toNat < 2 → hostPresent s host.toNat = true →
        ring.toNat < typeCount type.toNat →
        let r := ringAt s host.toNat (typePage type.toNat + ring.toNat)
        let block := le 1 (ringStateCode r.st) ++ le 1 r.cause ++ le 4 r.prod ++ le 4 r.cons ++ le 8 r.discarded ++ le 8 r.lost
        exec (.ringStatus c host type ring) s = done s0 { block := block }) ∧
      (∀ host : BitVec 8, CmdRuns c 0x0B02 s a → host.toNat < 2 → hostPresent s host.toNat = true →
        let l : HostLink := getAt {} s.host.links host.toNat
        let block := le 8 l.rate ++ le 1 l.width ++ le 4 l.aer ++ le 8 (counter s 14 0 host.toNat) ++
          le 8 (counter s 13 host.toNat 0)
        exec (.hostStatus c host) s = done s0 { block := block })) ∧
  (∀ (s : State) (c : Cmd) (a b : Accepted) (rest : List Accepted), s.boot.phase = .ready →
      s.host.accepted.find? (fun b => !b.started && b.src == c.src && b.seq == c.seq.toNat && b.opcode == 0x0B03) = some a →
      a.fence = true → s.host.accepted = b :: rest → b.aseq ≠ a.aseq → exec (.nop c) s = .next s)

/-- R470 to R473: what a write of OWN_BID or OWN_CTRL does to the ownership, and what ends a bid window and a lease. -/
def Obligations.Ownership : Prop :=
  ∀ (s : State) (m : Master), s.boot.phase = .ready →
    let b := seen s m (Reg.off .ownBid 0)
    let u := seen s m (Reg.off .ownCtrl 0)
    (∀ v : BitVec 32, (v ||| 0x10).toNat &&& Reg.ownBid.named = (v ||| 0x10).toNat →
      exec (.bidRecord m v) s =
        .next ((setBankBid b m.val ((v ||| 0x10).toNat % 32)).withOwn { s.own with
          bids := s.own.bids.filter (fun x => x.master != m.val) ++ [{ master := m.val, prio := v.toNat % 16, nonce := (getAt 0 s.regs.bankNonce m.val).toNat }],
          window := s.own.window || s.own.owner.isNone })) ∧
    (∀ v : BitVec 32, (v &&& 0xffffffef).toNat &&& Reg.ownBid.named = (v &&& 0xffffffef).toNat →
      exec (.bidWithdraw m v) s =
        .next ((setBankBid b m.val ((v &&& 0xffffffef).toNat % 32)).withOwn { s.own with
          bids := s.own.bids.filter (fun x => x.master != m.val) })) ∧
    (s.own.owner = some m.val →
      exec (.renew m 0) s = .next (u.withOwn { s.own with leaseEnd := s.clk.cc + 1500000 * leaseMs s }) ∧
      exec (.release m 0) s = .next (vacancy u 4)) ∧
    (s.own.owner ≠ some m.val → ∀ v : BitVec 32,
      exec (.renew m v) s = .next (nonOwner u m.val (some (Reg.off .ownCtrl 0))) ∧
      exec (.release m v) s = .next (nonOwner u m.val (some (Reg.off .ownCtrl 0))) ∧
      exec (.grant m v) s = .next (nonOwner u m.val (some (Reg.off .ownCtrl 0)))) ∧
    (∀ k : Fin 4, s.own.owner = some m.val → k.val ≠ m.val → (bidOf s k.val).isSome = true →
      exec (.grant m (BitVec.ofNat 32 (8 * k.val))) s = .next (changeOwner u (some k.val) 2)) ∧
    (∀ x, s.own.window = true → s.own.owner = none → bestBid s.own.bids = some x →
      exec .bidWindowClose s = .next (changeOwner (s.withOwn { s.own with window := false }) (some x.master) 1)) ∧
    (s.own.owner = some m.val →
      exec .leaseExpire s =
        .next (vacancy (postEvent s 0x0B 2 (origin s 31 0 0 0) (le 1 m.val ++ le 2 (leaseMs s))) 3))

/-- R474: the handover. The new owner holds a lease, FENCE_SEQ is the last accept number, and the former owner's bid is gone. -/
def Obligations.Handover : Prop :=
  ∀ (s : State) (new : Option Nat) (cause : Nat),
    let t := changeOwner s new cause
    t.own.owner = new ∧ t.own.fenceSeq = s.host.lastAseq ∧
    (new ≠ none → t.own.leaseEnd = s.clk.cc + 1500000 * leaseMs s) ∧
    (∀ f b, s.own.owner = some f → b ∈ t.own.bids → b.master ≠ f) ∧
    (∀ b ∈ s.own.bids, s.own.owner ≠ some b.master → b ∈ t.own.bids)

/-- R471: the bid that wins is one that stands, and no standing bid is better: by PRIO, then NONCE, then the lower master. -/
def Obligations.BestBid : Prop :=
  ∀ bids : List Bid,
    (bestBid bids = none ↔ bids = []) ∧
    (∀ b, bestBid bids = some b → b ∈ bids ∧ ∀ c ∈ bids,
      c.prio < b.prio ∨ (c.prio = b.prio ∧ (c.nonce < b.nonce ∨ (c.nonce = b.nonce ∧ b.master ≤ c.master))))

/-- R482, R484, R491: a write that sets ENABLE starts a channel that was not enabled and gives a channel that was enabled its
other fields; a write that clears it asks for the disable, which takes effect at the sample of a burst boundary; a write of a
master that is not the owner changes nothing but the counts; and outside READY a write only counts as a reserved write. -/
def Obligations.DmaEnables : Prop :=
  ∀ (s : State) (m : Master) (ch : Fin 32) (v : BitVec 32),
    let n := ch.val
    let x := dmaAt s n
    let u := seen s m (Reg.off .dmaChCfg n)
    let w (x : BitVec 32) : State :=
      setReg (countReservedBits u m.val .dmaChCfg x.toNat) .dmaChCfg n (x.toNat &&& Reg.named .dmaChCfg)
    let on := w (v ||| 1)
    let off := w (v &&& 0xfffffffe)
    let ended (d : State) : State :=
      setDma d n { dmaAt d n with st := .idle, disable := false, reading := false, bursts := [] }
    (s.boot.phase = .ready → s.own.owner = some m.val → dmaEnabled u n = false →
      exec (.dmaEnable m ch v) s = .next (dmaBegin on n) ∧ exec (.dmaDisable m ch v) s = .next off) ∧
    (s.boot.phase = .ready → s.own.owner = some m.val → dmaEnabled u n = true →
      exec (.dmaEnable m ch v) s = .next on ∧
      exec (.dmaDisable m ch v) s = .next (setDma off n { dmaAt off n with disable := true })) ∧
    (s.boot.phase = .ready → s.own.owner ≠ some m.val →
      exec (.dmaEnable m ch v) s = .next (nonOwner u m.val (some (Reg.off .dmaChCfg n))) ∧
      exec (.dmaDisable m ch v) s = .next (nonOwner u m.val (some (Reg.off .dmaChCfg n)))) ∧
    (s.boot.phase ≠ .ready →
      exec (.dmaEnable m ch v) s = .next (countReserved (dropOther s m.val (Reg.off .dmaChCfg n)) m.val 1) ∧
      exec (.dmaDisable m ch v) s = .next (countReserved (dropOther s m.val (Reg.off .dmaChCfg n)) m.val 1)) ∧
    (x.disable = false → exec (.dmaDisableSample ch) s = .next s) ∧
    (x.disable = true → x.st ≠ .running → exec (.dmaDisableSample ch) s = .next (ended s)) ∧
    (x.disable = true → x.st = .running → x.error = 0 →
      exec (.dmaDisableSample ch) s =
        .next (ended (dmaConsume (dmaDropped (draw s).2 x) n 2 0 ((Config.freeValue s.free).toNat % 2 ^ 32)))) ∧
    (x.disable = true → x.st = .running → x.error ≠ 0 →
      exec (.dmaDisableSample ch) s = .next (ended (dmaFail s n x.error x.failAt)))

/-- R455, R482, R510, R511: the commands of the DMA unit. DMA_KICK is the doorbell of a channel's chain: at the tail it reads
the chain word again, else it leaves the pending bit set; DMA_STATUS tells the channel's state and its counts. -/
def Obligations.DmaCommands : Prop :=
  ∀ (c : Cmd) (s : State) (a : Accepted) (ch : BitVec 16),
    let s0 := begun c s a
    let n := ch.toNat
    let x := dmaAt s0 n
    let done (u : State) (r : Reply) : Host.Outcome State Fault Refusal := .next (completeCmd u (asRun c a) r)
    (CmdRuns c 0x0C01 s a → n < 32 → dmaEnabled s0 n = true → x.st = .waiting → x.reading = false →
      exec (.dmaKick c ch) s = done (setDma s0 n { x with pending := false, reading := true }) {}) ∧
    (CmdRuns c 0x0C01 s a → n < 32 → dmaEnabled s0 n = true → (x.st ≠ .waiting ∨ x.reading = true) →
      exec (.dmaKick c ch) s = done (setDma s0 n { x with pending := true }) {}) ∧
    (CmdRuns c 0x0C01 s a → n < 32 → dmaEnabled s0 n = false → exec (.dmaKick c ch) s = done s0 (err 5)) ∧
    (CmdRuns c 0x0C01 s a → 32 ≤ n → exec (.dmaKick c ch) s = done s0 (err 2)) ∧
    (CmdRuns c 0x0C02 s a → n < 32 →
      exec (.dmaStatus c ch) s =
        done s0 { block := le 4 (dmaStatusView s0 n) ++ le 8 x.consumed ++ le 8 x.chain ++ le 4 x.written }) ∧
    (CmdRuns c 0x0C02 s a → 32 ≤ n → exec (.dmaStatus c ch) s = done s0 (err 2))

/-- R455, R480, R483, R485 to R493: a fetched descriptor of a channel starts or ends, and what a grant, a burst's data and
the response to its write do. `len` is what R488 allows a burst. -/
def Obligations.DmaBursts : Prop :=
  ∀ (s : State) (ch : Fin 32),
    let n := ch.val
    let x := dmaAt s n
    (∀ (word : BitVec 64) (desc : Bytes), x.st = .fetching →
      exec (.chainWordReturn (.dma ch) word desc true) s = .next (dmaStart s n desc) ∧
      exec (.chainWordReturn (.dma ch) word desc false) s = .next (dmaStop s n 3 0)) ∧
    (∀ (word : BitVec 64) (desc : Bytes), x.st = .waiting → x.reading = true →
      exec (.chainWordReturn (.dma ch) word desc true) s =
        .next (dmaFollow (setDma s n { x with reading := false }) n word.toNat)) ∧
    (∀ l : Nat, burstsInFlight s < 256 → grantChannel s = some (l, n) →
      let len := min (512 - ((if x.op = 3 then x.src else x.dst) + x.granted) % 512) (x.len - x.granted)
      exec .dmaBurstGrant s =
        .next (setDma (s.withDma { s.dma with slot := (s.dma.slot + 1) % 15, served := setAt 31 s.dma.served l n }) n
          { x with bursts := x.bursts ++ [{ idx := x.nextBurst, off := x.granted, len := len }]
                   nextBurst := x.nextBurst + 1, granted := x.granted + len })) ∧
    (256 ≤ burstsInFlight s → exec .dmaBurstGrant s = .next s) ∧
    (∀ (k : Nat) (b : Burst) (src dst : Bytes) (ok poison : Bool) (r r2 : ReadOutcome), x.op = 2 →
      x.bursts.find? (fun b => b.idx == k && b.data.isNone) = some b →
      exec (.dmaReadData ch k src dst ok poison r r2) s =
        .next (setDma s n (modBurst x k (fun b => { b with data := some (fillBytes x.src (x.dst + b.off) b.len) })))) ∧
    (∀ (k : Nat) (b : Burst) (src dst d : Bytes) (ok poison : Bool) (r r2 : ReadOutcome) (u : State), x.op = 1 →
      x.bursts.find? (fun b => b.idx == k && b.data.isNone) = some b →
      dmaRead s x.srcSpace (x.src + b.off) b.len src ok poison r = (u, d, 0) →
      exec (.dmaReadData ch k src dst ok poison r r2) s =
        .next (setDma u n (modBurst x k (fun b => { b with data := some d, bad := false })))) ∧
    (∀ (k i : Nat) (b : Burst) (src dst d e : Bytes) (ok poison : Bool) (r r2 : ReadOutcome) (u w : State), x.op = 3 →
      x.bursts.find? (fun b => b.idx == k && b.data.isNone) = some b →
      dmaRead s x.srcSpace (x.src + b.off) b.len src ok poison r = (u, d, 0) →
      dmaRead u x.dstSpace (x.dst + b.off) b.len dst ok poison r2 = (w, e, 0) →
      firstDiff d e b.len = some i → x.diff = none →
      exec (.dmaReadData ch k src dst ok poison r r2) s =
        .next (dmaCheckEnd (setDma w n (endBurst { x with diff := some (b.off + i), written := x.written + b.len } k)) n)) ∧
    (∀ (k : Nat) (b : Burst) (d : Bytes), x.bursts.find? (fun b => b.idx == k) = some b → b.data = some d →
      exec (.dmaWriteResponse ch k true) s =
        .next (dmaCheckEnd (setDma (dmaLand s n x.dstSpace (x.dst + b.off) b.len d b.bad) n
          (endBurst { x with written := x.written + b.len } k)) n) ∧
      (x.error = 0 → exec (.dmaWriteResponse ch k false) s =
        .next (dmaCheckEnd (setDma s n (endBurst { x with error := 5, failAt := b.off } k)) n)))

/-- R245 to R254: the sweeper, the reader of cold records and the hold of parked frames, and when a deletion and a demotion
complete. R199 to R201: what a visit of the demotion unit does to a slot, and the end of a demotion. -/
def Obligations.AgeingAndDemotion : Prop :=
  (∀ (s : State) (k : Nat),
      let v := touchRecord s 0 (some (.hot k))
      let r := recAt v k
      (s.fs.formatted = true → exec .sweeperRoundStart s =
        .next (s.withFs { s.fs with round := (s.fs.round + 1) % 2 ^ 32 })) ∧
      (∀ p, s.fs.formatted = true → sweepSkips s k = false → purgeOf v (recKey r 0) = some p →
        exec (.sweeperVisit k) s = .next (deleteSlot v k 3 (.command p.aseq))) ∧
      (s.fs.formatted = true → sweepSkips s k = false → purgeOf v (recKey r 0) = none →
        regField v .sweepCfg 0 0 1 = 1 → judged v r = true → exports v r = false →
        exec (.sweeperVisit k) s = .next (
          if bit (recHits r) 0 then setRec v k (paste r 123 (le 1 (recHits r / 8 * 8)))
          else if bit (recHits r) 2 then deleteSlot v k 1 .none
          else setRec v k (paste r 123 (le 1 (recHits r ||| 4))))) ∧
      (sweepSkips s k = true → exec (.sweeperVisit k) s = .next s) ∧
      (∀ o : ReadOutcome, s.fs.formatted = true → k < coldSlots s →
        let w := ddrRead s (coldAddr s k) 256 o 4
        let b := coldAt w k
        (readsBad s (coldAddr s k) 256 o = true → exec (.coldSweeperRead ⟨k, o⟩) s = .next w) ∧
        (readsBad s (coldAddr s k) 256 o = false → coldLive b = true → isCopy w (coldRec b) = false →
          promotingCold w k = false → w.fs.dels.any (fun d => d.tierB && d.slot == k) = false →
          (∀ p, purgeOf w (recKey (coldRec b) 0) = some p →
            exec (.coldSweeperRead ⟨k, o⟩) s = .next (deleteCold w k 3 (.command p.aseq))) ∧
          (purgeOf w (recKey (coldRec b) 0) = none → regField w .sweepCfg 0 0 1 = 1 → idleCode w (coldRec b) ≠ 15 →
            exports w (coldRec b) = false →
            exec (.coldSweeperRead ⟨k, o⟩) s = .next (
              if 3 * 2 ^ idleCode w (coldRec b) * 128 < wrapSub 32 (coarse w) (recLast (coldRec b)) then deleteCold w k 1 .none
              else w)))) ∧
      (∀ d, s.fs.dels.find? (fun d => d.tierB == false && d.slot == k) = some d → deletionFenced s d = true →
        let f := flushTracks (flushComb s k d.gen) k d.gen
        exec (.deletionFencePassed k false) s = .next (if deletionSettled f d then finishDelete f d else f)) ∧
      (∀ d, s.fs.dels.find? (fun d => d.tierB == true && d.slot == k) = some d → deletionFenced s d = true →
        exec (.deletionFencePassed k true) s = .next (finishDelete s d)) ∧
      (∀ (d : Del) (b : Bool), s.fs.dels.find? (fun d => d.tierB == b && d.slot == k) = some d → deletionFenced s d = false →
        exec (.deletionFencePassed k b) s = .next s) ∧
      (∀ f : Frame, frameAt s k = some f → f.stage = .setup →
        let u := s.withStk { s.stk with holds := s.stk.holds.map (fun h => { h with frames := h.frames.filter (· != k) }) }
        exec (.setupHoldExpire k) s = .next (dropParked (count u 4 f.slice 30 1) k))) ∧
  (∀ (s : State) (k : Nat), s.fs.formatted = true →
      let p := slotPier s k
      let age := wrapSub 32 (coarse s) (recLast (recAt s k))
      let x := pierAt s p
      let u := setPier s p { x with hist := setAt 0 x.hist (ageBin age) (getAt 0 x.hist (ageBin age) + 1) }
      (k % pierSlots s ≠ 0 → x.passes ≠ 0 → slotLive s k = true →
        s.fs.demoting = false ∨ x.passes ≤ 1 ∨ age < x.threshold → exec (.demotionVisit k) s = .next u) ∧
      (k % pierSlots s ≠ 0 → x.passes ≠ 0 → slotLive s k = true → s.fs.demoting = true → 1 < x.passes → x.threshold ≤ age →
        demotable u k = true → exec (.demotionVisit k) s = .next (startDemotion u k .none)) ∧
      (k % pierSlots s ≠ 0 → x.passes = 0 ∨ slotLive s k = false → exec (.demotionVisit k) s = .next s) ∧
      (∀ d, demOf s k = some d → d.back = false → fencePassed s d.stamp = true →
        let gen := recGen (recAt s k)
        let f := flushTracks (flushComb s k gen) k gen
        let g := carryMark (setCold f d.cold (coldMake (recAt f k) (extAt f k) (coarse f) (coldRefused (coldAt f d.cold)) 1))
          false k gen d.cold gen
        let h := g.withFs { g.fs with
          dems := g.fs.dems.filter (fun e => e.slot != k)
          fetches := g.fs.fetches.map (fun x => if x.slot = some k then { x with slot := none, cold := some d.cold } else x) }
        exec (.demotionComplete k) s = .next (tellOrigin (settleFetches (checkWatermarks (freeSlot h k))) d.origin {})) ∧
      (∀ d, demOf s k = some d → d.back = true ∨ fencePassed s d.stamp = false → exec (.demotionComplete k) s = .next s))

/-- R22, R111, R122, R244, R256, R666: the rate grid, the interval, the epoch, and the admission of heads and of contexts. -/
def Obligations.Clockwork : Prop :=
  ∀ (s : State) (slice : SliceNo),
    let n := slice.val
    let waits (fid : Nat) : Bool := match frameAt s fid with
      | some f => noVerdict f && !f.context
      | none => false
    exec .refillTick s = .next (refillAll (s.withClk { s.clk with refills := s.clk.refills + 1 })) ∧
    refillAll s = bucketsTick (bucketsTick (bucketsTick s 0 true) 1 true) 2 true ∧
    (∃ u, exec .intervalStart s = .next u ∧ u.tbl.learnEvt = [] ∧
      ∀ k < 17, (sliceAt u k).events = 0 ∧ (sliceAt u k).punts = 0) ∧
    (s.regs.shadow ≠ [] → exec .shadowApply s = .next (advanceEpoch s)) ∧
    (s.regs.shadow = [] → exec .shadowApply s = .next s) ∧
    (advanceEpoch s).tbl.epoch = nextEpoch s ∧
    (s.fs.dels ≠ [] ∨ s.fs.dems ≠ [] ∨ s.fs.refused ≠ [] → s.tbl.waits.any (·.batch) = false →
      exec .periodicEpochAdvance s = .next (pruneMgmt (endAllRefused (advanceEpoch s)))) ∧
    (admits s n = true →
      let ports := (upFrom ((sliceAt s n).rot + 1) 6).map (· % 6)
      let one := admitRound n (ports ++ [6]) 8 s
      let two := admitRound n ports one.2 one.1
      exec (.headAdmit slice) s = .next (setSlice two.1 n { sliceAt two.1 n with rot := ports.headD 0 })) ∧
    (admits s n = false → exec (.headAdmit slice) s = .next s) ∧
    (∀ (fid : Nat) (rest : List Nat) (f : Frame), (sliceAt s n).ctxWait.filter waits = fid :: rest → frameAt s fid = some f →
      contextsUsed s n < 9216 →
      exec (.seqContextGrant slice) s =
        .next (setFrame (setSlice s n { sliceAt s n with ctxWait := rest }) fid (some { f with context := true }))) ∧
    (∀ (fid : Nat) (rest : List Nat) (f : Frame), (sliceAt s n).ctxWait.filter waits = fid :: rest → frameAt s fid = some f →
      9216 ≤ contextsUsed s n → exec (.seqContextGrant slice) s = .next s)

/-- R41 to R43, R58, R76, R382, R391: what a frame, an uncorrectable codeword, a frame boundary and the gate events do to a
subport. -/
def Obligations.FramesAndGates : Prop :=
  ∀ (s : State) (sub : SubNo),
    let n := sub.val
    (∀ (bytes : Bytes) (ok whole : Bool) (cws : List (BitVec 4)),
      isBond (countCodewords s n cws) (n / 4) = false → (subAt s n).up = true →
      exec (.frameArrival sub bytes ok whole cws) s = .next (receiveFrame (countCodewords s n cws) n bytes ok whole)) ∧
    (∀ (bytes : Bytes) (ok whole : Bool) (cws : List (BitVec 4)),
      isBond (countCodewords s n cws) (n / 4) = false → (subAt s n).up = false → (subAt s n).recUp = true →
      let u := countCodewords s n cws
      exec (.frameArrival sub bytes ok whole cws) s = .next (if isShedFrame u bytes then receiveShed u n bytes else u)) ∧
    (∀ (bytes : Bytes) (ok whole : Bool) (cws : List (BitVec 4)), (subAt s n).up = true →
      isBond (countCodewords s n cws) (n / 4) = true →
      exec (.frameArrival sub bytes ok whole cws) s = .next (countCodewords s n cws)) ∧
    (∀ (bytes : Bytes) (ok whole : Bool) (cws : List (BitVec 4)),
      (subAt s n).up = false → (subAt s n).recUp = false → exec (.frameArrival sub bytes ok whole cws) s = .next s) ∧
    (∀ (bytes : Bytes), bytes.length < 60 →
      receiveFrame s n bytes true true =
        count (count (count (endRx s n) 1 n 0 1) 1 n 1 (bytes.length + 4)) 1 n 5 1) ∧
    ((subAt s n).rxFrame = none → exec (.uncorrectableCodeword sub) s = .next (count s 1 n 11 1)) ∧
    (∀ fid, (subAt s n).rxFrame = some fid →
      let u := count s 1 n 11 1
      let v := match frameAt u fid with
        | some f => if f.stage = .head then countHead u f.slice n f.bytes else u
        | none => u
      let r := abandonFrame (setSub v n { subAt v n with rxFrame := none, rxLate := none }) fid
      exec (.uncorrectableCodeword sub) s = .next (if r.2 then r.1 else count r.1 1 n 4 1)) ∧
    (txReady (endTx s n) n = true →
      exec (.egressSelect sub) s = .next (selectNext n
        (((subQueues n).map (fun q => (queueAt (endTx s n) q).copies.length)).foldl (· + ·) 1) (endTx s n))) ∧
    (txReady (endTx s n) n = false → exec (.egressSelect sub) s = .next (endTx s n)) ∧
    (∀ t bank x, (gateAt s n).change = some (t, bank, x) →
      exec (.gateListChange sub) s =
        .next (postEvent (setGate (missedSpans s n (gateAt s n) (gateChange (gateAt s n))) n (gateChange (gateAt s n)))
          0x09 3 (gateOrigin (setGate (missedSpans s n (gateAt s n) (gateChange (gateAt s n))) n (gateChange (gateAt s n))) n)
          (le 1 bank ++ le 8 t))) ∧
    ((gateAt s n).enabled = true →
      exec (.gateEntryAdvance sub) s =
        .next (setGate (missedSpans s n (gateAt s n) (gateStep s n (gateAt s n))) n (gateStep s n (gateAt s n)))) ∧
    ((gateAt s n).enabled = false → exec (.gateEntryAdvance sub) s = .next s)

/-- R38: a LANE_MAP that names one physical lane for two logical lanes is invalid. PORT_MODE completes with status ERROR, in
a state whose ports and registers are as before. -/
def Obligations.InvalidLaneMap : Prop :=
  ∀ (c : Cmd) (s : State) (a : Accepted) (port : BitVec 16) (mode : BitVec 8) (map : BitVec 32) (i j : Nat),
    CmdRuns c 0x0101 s a → i < 8 → j < 8 → i ≠ j → bits map.toNat (3 * i) 3 = bits map.toNat (3 * j) 3 →
    exec (.portMode c port mode map) s = .next (completeCmd (begun c s a) (asRun c a) (err 2)) ∧
    (err 2).status = stError ∧ (begun c s a).ports = s.ports ∧ (begun c s a).regs = s.regs

/-- R383: among the eligible queues of a subport those with SP set are served first, in descending queue number; when no SP
queue is eligible, the DWRR queues are served. -/
def Obligations.StrictPriority : Prop :=
  ∀ (s : State) (sub : Nat), ¬(subShaperRate s sub ≠ 0 ∧ (settleSched s sub).tokens < 0) →
    let u := (subQueues sub).foldl rejoin s
    let sp (q : Nat) (d : Cand) : Prop := q ∈ subQueues sub ∧ candidate u sub q = some d ∧ isSp u d.frame.epoch q = true
    (∀ q d, sp q d → ∃ e, pick s sub = (u, some e) ∧ sp e.queue e ∧ ∀ k f, sp k f → k ≤ e.queue) ∧
    ((∀ q d, ¬sp q d) → pick s sub = dwrr sub ((subQueues sub).filterMap (candidate u sub)) 400000 u)

/-- R57, R58, R60 to R63: the shed handshake. A subport that takes no handshake frames counts what it is sent. -/
def Obligations.ShedHandshake : Prop :=
  ∀ (s : State) (sub : SubNo) (m : ShedMsg),
    let n := sub.val
    let x := subAt s n
    (takesShed s n = false → ∀ c ∈ [Instr.hello sub m, .req sub m, .ack sub m, .nak sub m, .ready sub m],
      exec c s = .next (setSub s n { x with shedDropped := x.shedDropped + 1 })) ∧
    (takesShed s n = true →
      exec (.hello sub m) s = .next (receiveHello s n m) ∧
      (x.recUp = true → (allowedWidths s n).contains m.target.toNat = true → m.target.toNat ≤ (bothHealthy s n).length →
        exec (.req sub m) s =
          .next (finishRecovery (sendShed s n msgAck 0 m.seq.toNat m.target.toNat 0) n m.target.toNat)) ∧
      (x.recUp = true → (allowedWidths s n).contains m.target.toNat = false ∨ (bothHealthy s n).length < m.target.toNat →
        exec (.req sub m) s = .next (noWidth (sendShed s n msgNak 4 m.seq.toNat 0 0) n)) ∧
      (∀ r, x.recUp = false → x.req = some r → ourReqStands s n m r = true →
        exec (.req sub m) s = .next (sendShed s n msgNak 3 m.seq.toNat 0 0)) ∧
      (x.recUp = false → x.req.all (fun r => !ourReqStands s n m r) = true →
        let u := setSub s n { x with req := none }
        exec (.req sub m) s = .next (match reqRefusal u n m.target.toNat with
          | some reason => sendShed u n msgNak reason m.seq.toNat 0 0
          | none => acceptStep u n m.seq.toNat m.target.toNat)) ∧
      (∀ r, x.req = some r → r.seq = m.seq.toNat → x.recUp = false →
        exec (.ack sub m) s = .next (setSub s n { x with
          req := none, stepTo := some r.target, stepSeq := r.seq, stepFrom := x.width, readySent := false
          readyRcvd := false })) ∧
      (∀ r, x.req = some r → r.seq = m.seq.toNat → x.recUp = true →
        exec (.ack sub m) s = .next (finishRecovery s n r.target) ∧ exec (.nak sub m) s = .next (noWidth s n)) ∧
      (∀ r, x.req = some r → r.seq = m.seq.toNat → x.recUp = false →
        exec (.nak sub m) s =
          .next (sleepLanes (setSub s n { x with req := none }) (addedLanes s n r.target))) ∧
      (x.req.all (fun r => r.seq != m.seq.toNat) = true → exec (.ack sub m) s = .next s ∧ exec (.nak sub m) s = .next s) ∧
      (x.stepTo ≠ none → x.stepSeq = m.seq.toNat → exec (.ready sub m) s = .next (setSub s n { x with readyRcvd := true })) ∧
      (x.stepSeq ≠ m.seq.toNat → exec (.ready sub m) s = .next s)) ∧
    (x.up = true → shedEnabled s n = true → x.answering = none → x.helloTries < 4 →
      exec (.helloRetry sub) s = .next (sendHello (setSub s n { x with helloTries := x.helloTries + 1 }) n)) ∧
    (x.answering ≠ none → exec (.helloRetry sub) s = .next s ∧ exec (.helloTimeout sub) s = .next s) ∧
    (x.up = true → x.answering = none →
      let u := setSub s n { x with answering := some false }
      exec (.helloTimeout sub) s = .next (setSub u n { subAt u n with method := chooseMethod u n })) ∧
    (∀ r, x.req = some r → r.tries < 3 →
      exec (.reqRetry sub) s =
        .next (sendShed (setSub s n { x with req := some { r with tries := r.tries + 1 } }) n msgReq 0 r.seq r.target 0)) ∧
    (∀ r, x.req = some r → 3 ≤ r.tries →
      let v := if x.recUp then s else sleepLanes s (addedLanes s n r.target)
      let u := setSub v n { x with req := none, shedSuspended := true }
      exec (.reqRetry sub) s = .next (postEvent u 0x01 5 (subOrigin u n) (le 1 x.width)))

/-- R59 to R61, R64: the window that asks for a step, and a step from the lock of its lanes to its end or its failure. The
load is in hundredths of a percent. R42, R75, R76, R653: the third window over the limit fails a lane that has not failed,
and a lane that fails is marked; an end whose trial finds no link tries the next lane in ascending order. -/
def Obligations.ShedSteps : Prop :=
  (∀ (s : State) (sub : SubNo),
      let n := sub.val
      let x := subAt s n
      (x.up = true →
        let load := x.winBytes * 80000 / max 1 (shedField s n 0 7 1 100 * 1000 * subRate s n)
        let k := if load < shedField s n 8 6 5 60 * 100 then x.narrowWindows + 1 else 0
        let u := setSub s n { x with lastLoad := load, winBytes := 0, narrowWindows := k, shedNow := none }
        exec (.shedWindowEnd sub) s = .next (
          if shedField s n 24 7 40 95 * 100 < load then widenStep u n
          else if shedField s n 16 8 1 255 ≤ k ∧ mayStep u n = true ∧ (widthsOf (fullOf u n)).contains (x.width / 2) = true ∧
              ownFloor u n ≤ x.width / 2 then
            requestStep (setSub u n { subAt u n with narrowWindows := 0 }) n (x.width / 2)
          else u)) ∧
      (x.up = false → exec (.shedWindowEnd sub) s = .next (setSub s n { x with shedNow := none })) ∧
      (∀ t, x.stepTo = some t → x.width < t →
        let u := (addedLanes s n t).foldl (fun s l => if (blkAt s .lane l).st = .waking then blockReady s .lane l else s) s
        exec (.lanesLocked sub) s =
          .next (sendShed (setSub u n { subAt u n with readySent := true }) n msgReady 0 x.stepSeq t 0)) ∧
      (∀ t, x.stepTo = some t → t ≤ x.width ∨ (x.readySent = true ∧ x.readyRcvd = true) →
        exec (.shedSwitch sub) s = .next (setSub s n { x with
          switching := true, width := t, recLanes := [], reduced := if x.width < t then none else x.reduced })) ∧
      (∀ t, x.stepTo = some t → x.width < t → x.readySent = false ∨ x.readyRcvd = false →
        exec (.shedSwitch sub) s = .next s) ∧
      (x.switching = true →
        let u := setSub s n { x with
          switching := false, stepTo := none, readySent := false, readyRcvd := false, narrowWindows := 0, winBytes := 0 }
        let w := count (sleepLanes u ((subLanes u n).filter (fun l => !(usedLanes u n).contains l))) 1 n 30 1
        exec (.alignmentRegained sub) s = .next (flushShed (postEvent w 0x01 4 (subOrigin w n) (le 1 x.stepFrom ++ le 1 x.width)) n)) ∧
      (∀ t (unlocked : List LaneNo), x.stepTo = some t → x.width < t → x.readySent = false ∨ x.readyRcvd = false →
        let u := setSub s n { x with stepTo := none, readySent := false, readyRcvd := false }
        let v := count (sleepLanes u (addedLanes s n t)) 1 n 31 1
        exec (.widenTimeout sub unlocked) s =
          .next ((unlocked.filter (fun l => (addedLanes s n t).contains l.val)).foldl
            (fun s l => postEvent s 0x01 6 (laneOrigin s l.val) (le 1 2)) v)) ∧
      (x.stepTo = none → exec (.lanesLocked sub) s = .next s ∧ exec (.shedSwitch sub) s = .next s ∧
        exec (.widenTimeout sub []) s = .next s)) ∧
  (∀ (s : State) (lane : LaneNo) (sub : SubNo),
      let l := lane.val
      let limit := max 1 ((getAt none s.ports.serNow l).getD (regVal s .laneSerLimit 0))
      exec (.laneFail lane) s = .next (failLane s l (some 0)) ∧
      ((laneAt s l).failed = true → failLane s l (some 0) = s) ∧
      (∀ symbols : Nat,
        let k := if limit < symbols then (laneAt s l).overWindows + 1 else 0
        let u := count s 2 l 0 symbols
        let w := setLane (u.withPorts { u.ports with serNow := setAt none u.ports.serNow l none }) l
          { laneAt s l with overWindows := k }
        exec (.laneSerWindowEnd lane symbols) s =
          .next (if 3 ≤ k ∧ (laneAt s l).failed = false then failLane w l (some 1) else w)) ∧
      (∀ k, (subAt s sub.val).recovery = some k → (subAt s sub.val).recUp = false →
        exec (.recoveryTrialTimeout sub) s = .next (setSub s sub.val { subAt s sub.val with
          recovery := ((subLanes s sub.val).find? (fun m => decide (k < m))).or (subLanes s sub.val).head? })) ∧
      ((subAt s sub.val).recUp = true → exec (.recoveryTrialTimeout sub) s = .next s))

/-- R45 to R53: pause frames received and sent. A pause of q quanta of 512 bit times at r Gb/s lasts the next whole number of
cycles of 1.5 GHz. -/
def Obligations.Pauses : Prop :=
  ∀ (s : State) (sub : SubNo),
    let n := sub.val
    let x := subAt s n
    (∀ (op : BitVec 16) (params : Bytes), x.up = true → isBond s (n / 4) = false →
      exec (.pauseFrameReceive sub op params) s = .next (receivePause s n op.toNat params)) ∧
    (∀ (params : Bytes), fcMode s n = 1 → receivePause s n 1 params =
      setSub s n { x with pausing := x.pausing ++ [[(8, beAt params 0 2)]] }) ∧
    (∀ m ms, x.pausing = m :: ms →
      exec (.pauseEffect sub) s = .next (m.foldl (fun s p => startPause s n p) (setSub s n { x with pausing := ms }))) ∧
    (x.pausing = [] → exec (.pauseEffect sub) s = .next s) ∧
    (∀ p q : Nat, startPause s n (p, q) = setSub s n { x with
      paused := setAt none x.paused p
        (if q = 0 then none else some (s.clk.cc + (q * 768 + max 1 (subRate s n) - 1) / max 1 (subRate s n))) }) ∧
    (∀ prio : Fin 9, exec (.pauseExpire sub prio) s = .next (setSub s n { x with paused := setAt none x.paused prio.val none })) ∧
    (pauseOwed s n = true → controlReady s n = true →
      exec (.pauseSend sub) s = .next (sendPause s n (x.xoff ^^^ x.xoffSent))) ∧
    (pauseOwed s n = true → controlReady s n = false → exec (.pauseSend sub) s = .next (startLpiExit s n)) ∧
    (pauseOwed s n = false → exec (.pauseSend sub) s = .next s) ∧
    (x.xoff &&& fcBits s n ≠ 0 ∨ x.xoffSent ≠ 0 → controlReady s n = true →
      exec (.pauseRepeat sub) s = .next (sendPause s n (x.xoff ||| x.xoffSent))) ∧
    (x.xoff &&& fcBits s n ≠ 0 ∨ x.xoffSent ≠ 0 → controlReady s n = false →
      exec (.pauseRepeat sub) s = .next (startLpiExit s n)) ∧
    (x.xoff &&& fcBits s n = 0 → x.xoffSent = 0 → exec (.pauseRepeat sub) s = .next s)

/-- R66 to R73: low-power idle, and the link of a subport going down, waiting and coming up. -/
def Obligations.LinkStates : Prop :=
  ∀ (s : State) (sub : SubNo),
    let n := sub.val
    let x := subAt s n
    (x.up = true → x.method = .eee → x.lpi = .active → subIdle s n = true → regField s .subportEee n 0 16 ≠ 0 →
      regField s .subportEee n 16 16 ≠ 0 → exec (.lpiEntry sub) s = .next (setSub s n { x with lpi := .idle })) ∧
    (x.up = false ∨ x.method ≠ .eee ∨ x.lpi ≠ .active ∨ subIdle s n = false → exec (.lpiEntry sub) s = .next s) ∧
    (x.lpi = .waking → exec (.lpiWakeEnd sub) s = .next (flushShed (setSub s n { x with lpi := .active }) n)) ∧
    (x.lpi ≠ .waking → exec (.lpiWakeEnd sub) s = .next s) ∧
    (∀ far : Bool, x.up = true →
      let u := wakePort (startHold (dropLink s n) n) (n / 4) (subLanes s n)
      exec (.linkDown ⟨sub, far⟩) s = .next (if far && answers u n then startRecovery u n else u)) ∧
    (∀ far : Bool, x.up = false → exec (.linkDown ⟨sub, far⟩) s = .next s) ∧
    (x.up = false → x.recUp = false → linkWanted s n = true → x.recovery = none → linkPowered s n (upLanes s n) = true →
      exec (.linkUp sub) s = .next (linkUp (linkLocked s n (upLanes s n)) n)) ∧
    (∀ l, x.up = false → x.recUp = false → linkWanted s n = true → x.recovery = some l → linkPowered s n [l] = true →
      exec (.linkUp sub) s = .next (sendHello (setSub (linkLocked s n [l]) n { x with recUp := true, width := 1 }) n)) ∧
    (linkWanted s n = false → exec (.linkUp sub) s = .next s) ∧
    (x.recovery = none → linkPowered s n (upLanes s n) = false → exec (.linkUp sub) s = .next s) ∧
    (x.hold ≠ none →
      let r := flushSub (setSub s n { x with hold := none, holdLeft := some 0 }) n
      exec (.holdExpire sub) s = .next (postEvent r.1 0x01 3 (subOrigin r.1 n) (le 8 r.2))) ∧
    (x.hold = none → exec (.holdExpire sub) s = .next s) ∧
    (x.up = true → exec (.holdReload sub) s = .next (setSub s n { x with holdLeft := none })) ∧
    (x.up = false → exec (.holdReload sub) s = .next s)

/-- R38, R39, R63, R74, R78: the commands of the ports. R402: the status commands of the buffer, the queues, the policers and
the gates. -/
def Obligations.PortAndTrafficCommands : Prop :=
  (∀ (c : Cmd) (s : State) (a : Accepted),
      let s0 := begun c s a
      let done (u : State) (r : Reply) : Host.Outcome State Fault Refusal := .next (completeCmd u (asRun c a) r)
      (∀ (port : BitVec 16) (mode : BitVec 8) (map : BitVec 32), CmdRuns c 0x0101 s a → port.toNat < 96 → mode.toNat < 7 →
        laneMapOk map.toNat = true → bondsWith s0 port.toNat ≤ 16 →
        exec (.portMode c port mode map) s = done (applyMode s0 port.toNat mode.toNat map.toNat) {}) ∧
      (∀ (port : BitVec 16) (mode : BitVec 8) (map : BitVec 32), CmdRuns c 0x0101 s a →
        96 ≤ port.toNat ∨ 7 ≤ mode.toNat ∨ laneMapOk map.toNat = false →
        exec (.portMode c port mode map) s = done s0 (err 2)) ∧
      (∀ (sub : BitVec 16), CmdRuns c 0x0102 s a → sub.toNat < 384 → subExists s0 sub.toNat = true →
        let u := setSub s0 sub.toNat { subAt s0 sub.toNat with adminDown := false }
        let d := adminDown s0 sub.toNat
        exec (.subportAdmin c sub 1) s = done (wakePort u (sub.toNat / 4) (subLanes u sub.toNat)) {} ∧
        exec (.subportAdmin c sub 0) s = done (setSub d sub.toNat { subAt d sub.toNat with adminDown := true }) {}) ∧
      (∀ (sub : BitVec 16) (width : BitVec 8), CmdRuns c 0x0103 s a → sub.toNat < 384 → subExists s0 sub.toNat = true → width ≠ 0 →
        (allowedWidths s0 sub.toNat).contains width.toNat = true →
        let u := linkDown (setSub s0 sub.toNat { subAt s0 sub.toNat with shedOff := false }) sub.toNat
        exec (.shedCtrl c sub 1 width) s =
          done (setSub u sub.toNat { subAt u sub.toNat with forced := some width.toNat, shedSuspended := false }) {}) ∧
      (∀ (sub : BitVec 16) (enable : BitVec 8), CmdRuns c 0x0103 s a → sub.toNat < 384 → subExists s0 sub.toNat = true →
        enable.toNat ≤ 1 →
        let u := setSub s0 sub.toNat { subAt s0 sub.toNat with shedOff := enable == 0 }
        exec (.shedCtrl c sub enable 0) s =
          done (if (subAt u sub.toNat).up then setSub u sub.toNat { subAt u sub.toNat with method := chooseMethod u sub.toNat }
            else u) {}) ∧
      (∀ (port : BitVec 16) (lane : BitVec 8), CmdRuns c 0x0104 s a → port.toNat < 96 → lane.toNat < 8 →
        exec (.laneSet c port lane 0) s = done (failLane s0 (port.toNat * 8 + lane.toNat) none) {} ∧
        exec (.laneSet c port lane 1) s = done (restoreLane s0 (port.toNat * 8 + lane.toNat)) {}) ∧
      (∀ (port : BitVec 16), CmdRuns c 0x0105 s a → port.toNat < 96 →
        ∃ b : Bytes, b.length = 4 * subCount (portMode s0 port.toNat) ∧ exec (.portStatus c port) s = done s0 { block := b })) ∧
  (∀ (c : Cmd) (s : State) (a : Accepted),
      let s0 := begun c s a
      let done (u : State) (r : Reply) : Host.Outcome State Fault Refusal := .next (completeCmd u (asRun c a) r)
      (∀ q : BitVec 16, CmdRuns c 0x0901 s a →
        exec (.queueStatus c q) s = if q.toNat < 6400 then done s0 { block := queueView s0 q.toNat } else done s0 (err 2)) ∧
      (CmdRuns c 0x0902 s a → exec (.bufStatus c) s = done s0 { block := bufView s0 }) ∧
      (∀ i : BitVec 32, CmdRuns c 0x0903 s a →
        exec (.policerRead c i) s = if i.toNat < 65536 then done s0 { block := policerView s0 i.toNat } else done s0 (err 2)) ∧
      (∀ sub : BitVec 16, CmdRuns c 0x0904 s a → sub.toNat < 384 →
        let g := gateAt s0 sub.toNat
        let due := match g.change with
          | some (t, _) => t
          | none => 0
        let block := le 1 g.bank ++ le 8 g.start ++ le 1 g.entry ++ le 8 due
        exec (.gateStatus c sub) s = done s0 { block := block }) ∧
      (∀ sub : BitVec 16, CmdRuns c 0x0904 s a → 384 ≤ sub.toNat → exec (.gateStatus c sub) s = done s0 (err 2)))

/-- R171, R177, R192 to R194, R265, R280: what the lookups of a frame and the reads of a fetch from tier B come to. -/
def Obligations.Lookups : Prop :=
  ∀ (s : State) (fid : Nat),
    (∀ (f : Frame) (prim alt rec0 rec1 : ReadOutcome), frameAt s fid = some f → f.stage = .slice → flowKnown f = false →
      let x := flowBuckets s f.key
      let p := bucketRead s x.1 prim
      let q := if spillAt s x.1 = 0 then (p.1, true) else bucketRead p.1 x.2.1 alt
      exec (.flowLookupResult fid prim alt rec0 rec1) s =
        .next (if p.2 && q.2 then lookupRecords q.1 fid f rec0 rec1 else lookupDrop q.1 fid)) ∧
    (∀ b : Nat, (bucketRead s b .uncorrectable).2 = false ∧
      (bucketRead s b .uncorrectable).1 =
        courseUncorrectable (readAt s (bucketPier s b) (bucketAddr s b) .uncorrectable) (bucketPier s b) (bucketAddr s b) false) ∧
    (∀ (f : Frame) (rec0 rec1 : ReadOutcome), candidates s f.key = [] →
      lookupRecords s fid f rec0 rec1 = resolveMiss s fid f) ∧
    (∀ (f : Frame) (rec1 : ReadOutcome) (k : Nat), candidates s f.key = [k] →
      let w := readAt s (slotPier s (ixSlot (idxAt s k))) (recordAddr s (ixSlot (idxAt s k))) .clean
      let r := recAt w (ixSlot (idxAt w k))
      recGen r % 16 = ixGen (idxAt w k) → recKey r (ixDir (idxAt w k)) = f.key → servable w r = true →
      hiddenFor w f.epoch false (ixSlot (idxAt w k)) (recGen r) = false →
      lookupRecords s fid f .clean rec1 = lookupHit w fid f k) ∧
    (∀ (f : Fetch) (prim alt : ReadOutcome), fetchAt s fid = some f → f.directory = false →
      let x := dirBuckets s f.key
      let u := ddrRead (ddrRead s (dirAddr s x.1) 64 prim 1) (dirAddr s x.2.1) 64 alt 1
      let bad := readsBad u (dirAddr u x.1) 64 prim || readsBad u (dirAddr u x.2.1) 64 alt
      exec (.tierBDirectoryReturn fid prim alt) s =
        .next (updatePanic (if bad then fetchBad u f none else directoryBack u f))) ∧
    (∀ (f : Fetch) (c : Nat) (cs : List Nat) (r : ReadOutcome), fetchAt s fid = some f → f.cands = c :: cs →
      f.directory = true → f.slot = none → f.cold = none →
      let u := ddrRead s (coldAddr s c) 256 r 1
      exec (.tierBRecordReturn fid r) s = .next (updatePanic (recordBack u f c cs (readsBad u (coldAddr u c) 256 r)))) ∧
    (∀ (f : Frame) (lpmBad aclBad : List (Nat × Bytes)), frameAt s fid = some f → inEpochCount f = true → f.lpm = none →
      exec (.lpmAclResult fid lpmBad aclBad) s =
        .next (setFrame s fid (some { f with lpm := some (lpmSearch s f lpmBad), acl := some (aclSearch s f aclBad) }))) ∧
    (∀ (f : Frame) (req : Nat × Bytes) (later : List (Nat × Bytes)), frameAt s fid = some f → inEpochCount f = true →
      f.secReqs = req :: later →
      exec (.secondaryLookupResult fid) s =
        .next (setFrame s fid (some { f with sec := some (secondaryResult s f req), secReqs := later }))) ∧
    (frameAt s fid = none → ∀ o o2 o3 o4 : ReadOutcome, exec (.flowLookupResult fid o o2 o3 o4) s = .next s ∧
      exec (.lpmAclResult fid [] []) s = .next s ∧ exec (.secondaryLookupResult fid) s = .next s)

/-- R179, R185, R229 to R232: the writes that follow lookups, each of the oldest or the named one that waits. R231: a
tracking update never leaves the states 0 to 9 of a record that is in one of them, RST takes every state from 1 to 7 to 8,
and an update that matches no row leaves the state. -/
def Obligations.FlowUpdates : Prop :=
  (∀ (s : State) (k : Nat),
      (∀ c tierB, s.fs.comb.find? (fun c => c.slot == k && c.tierB == tierB) = some c →
        (tierB && moreWriteBacks s k) = false → exec (.combinerApply k tierB) s = .next (applyComb s c)) ∧
      (∀ c, s.fs.comb.find? (fun c => c.slot == k && c.tierB == true) = some c → moreWriteBacks s k = true →
        exec (.combinerApply k true) s = .next s) ∧
      (∀ tierB, s.fs.comb.find? (fun c => c.slot == k && c.tierB == tierB) = none →
        exec (.combinerApply k tierB) s = .next s) ∧
      (∀ t ts, s.fs.tracks = t :: ts → exec .trackingUpdateApply s = .next (applyTrack (s.withFs { s.fs with tracks := ts }) t)) ∧
      (s.fs.tracks = [] → exec .trackingUpdateApply s = .next s) ∧
      (∀ t : Track, t.tierB = false → recGen (recAt s t.slot) ≠ t.gen →
        applyTrack s t = count s 10 (slotPier s t.slot) 16 1) ∧
      (∀ x rest, takeFirst (· == k) s.fs.spillDec = some (x, rest) →
        exec (.spillCountDecrement k) s = .next (spillDown (s.withFs { s.fs with spillDec := rest }) k)) ∧
      (takeFirst (· == k) s.fs.spillDec = none → exec (.spillCountDecrement k) s = .next s) ∧
      (∀ dir : Bool, s.fs.moves.find? (fun m => m.dir == dir && moveSource m == k) = none →
        exec (.relocationFlip ⟨k, dir⟩) s = .next s) ∧
      (∀ m, s.fs.moves.find? (fun m => m.dir == true && moveSource m == k) = some m →
        s.fs.fetches.any (fun f => decide (f.serial < m.since)) = true → exec (.relocationFlip ⟨k, true⟩) s = .next s) ∧
      (∀ (m : Move) (dir : Bool), s.fs.moves.find? (fun m => m.dir == dir && moveSource m == k) = some m →
        (dir && s.fs.fetches.any (fun f => decide (f.serial < m.since))) = false →
        let m' := { m with path := m.path.dropLast, held := moveTarget m / 8 :: m.held }
        let u := flipMove s m
        exec (.relocationFlip ⟨k, dir⟩) s =
          .next (if 2 < m.path.length then beginMove u m' else if dir then dirPathFree u m' else pathFree u m')) ∧
      (∀ m : Move, m.dir = false → moveSource m ≠ moveTarget m →
        idxAt (flipMove s m) (moveSource m) = 0 ∧
        (ixValid (idxAt s (moveTarget m)) = true →
          idxAt (flipMove s m) (moveTarget m) = ixBit (idxAt s (moveTarget m)) 50 false))) ∧
  ((∀ (st : Nat) (ret syn ack fin rst : Bool), st ≤ 9 → (trackStep st ret syn ack fin rst).st ≤ 9) ∧
    (∀ (st : Nat) (ret syn ack fin : Bool), 1 ≤ st → st ≤ 7 → (trackStep st ret syn ack fin true).st = 8) ∧
    (∀ (st : Nat) (ret syn ack fin rst : Bool), (trackStep st ret syn ack fin rst).unmatched = true →
      (trackStep st ret syn ack fin rst).st = st ∧ (trackStep st ret syn ack fin rst).set = 0))

/-- R122 to R125, R133, R139, R150 to R152: a microcode word, its parity error, the deadline, and the swap of the banks. -/
def Obligations.Sequencer : Prop :=
  ∀ (s : State) (fid : Nat),
    (∀ (f : Frame) (e : BitVec 320), frameAt s fid = some f → noVerdict f = true → f.context = true →
      let word := bankWord s f.bank f.pc ^^^ e
      waitMet f word.toNat = true →
      (wordParity word = 0 → exec (.seqWordExecute fid e) s = .next (runWord s fid word)) ∧
      (wordParity word ≠ 0 → exec (.seqWordExecute fid e) s =
        .next (machineCheck s f.slice (flag (f.bank != s.seq.live)) f.pc (wordParity word)))) ∧
    (∀ (f : Frame) (e : BitVec 320), frameAt s fid = some f → noVerdict f = false ∨ f.context = false →
      exec (.seqWordExecute fid e) s = .next s) ∧
    (∀ f : Frame, frameAt s fid = some f → noVerdict f = true →
      exec (.deadlineFault fid) s = .next (deadlineFault s fid (heldStage s f))) ∧
    (∀ f : Frame, frameAt s fid = some f → noVerdict f = false → exec (.deadlineFault fid) s = .next s) ∧
    (∀ (slice : SliceNo) (addr : BitVec 12) (bad : BitVec 8),
      let b := 1 - s.seq.live
      let u := setBank s b { bankOf s b with badSlices := (bankOf s b).badSlices ||| 2 ^ slice.val }
      exec (.standbyBankParity slice addr bad) s =
        .next (postEvent u 0x02 4 (origin u slice.val 0x14 0 0) (le 1 1 ++ le 2 addr.toNat ++ le 1 bad.toNat))) ∧
    (∀ w, s.seq.swap = some w → epochDrained s w.boundary = true →
      exec .seqSwapDrained s = .next (finish (s.withSeq { s.seq with swap := none }) w.aseq { result := w.boundary })) ∧
    (∀ w, s.seq.swap = some w → epochDrained s w.boundary = false → exec .seqSwapDrained s = .next s) ∧
    (∀ (c : Cmd) (a : Accepted), CmdRuns c 0x0202 s a →
      let s0 := begun c s a
      let x := bankOf s0 (1 - s0.seq.live)
      s0.seq.swap = none → s0.seq.loading = false → bankValid x = true →
      let u := advanceEpoch s0
      let info : ImgInfo := { kind := 2, version := x.version, svn := x.svn, digest := x.digest }
      exec (.seqSwap c) s = .next (imageActivated
        (u.withSeq { u.seq with live := 1 - u.seq.live, swap := some { boundary := u.tbl.epoch, aseq := a.aseq } }) 0xFFFF info)) ∧
    (∀ (c : Cmd) (a : Accepted) (slice : BitVec 16), CmdRuns c 0x0203 s a → slice.toNat < 17 →
      ∃ b : Bytes, exec (.sliceStatus c slice) s = .next (completeCmd (begun c s a) (asRun c a) { block := b }) ∧
        cut b 0 2 = le 1 (sliceCode (begun c s a) slice.toNat) ++ le 1 s.seq.live)

/-- R364 to R371, R378, R379, R399, R464 to R467: the policer, the release of cells, the census, the replicator, and the PUNT
and INJ rings. -/
def Obligations.BufferAndRings : Prop :=
  ∀ (s : State),
    (∀ (fid : Nat) (f : Frame), frameAt s fid = some f → f.policed = true → f.colour = none →
      let p := police s f
      exec (.policerResult fid) s = .next (setFrame p.1 fid (some { f with
        colour := some p.2
        verdict := if inEpochCount f then f.verdict.set 12 (BitVec.ofNat 8 ((byteAt f.verdict 12).toNat / 4 * 4 + p.2))
          else f.verdict }))) ∧
    (∀ (loc : BitVec 64) (party : BitVec 8), exec (.cellRelease ⟨loc, .clean⟩ party) s = .next (releaseCell s loc.toNat party.toNat)) ∧
    (∀ (loc : BitVec 64) (party : BitVec 8), loc.toNat % 256 = 0 → loc.toNat / 256 < cellCount →
      exec (.cellRelease ⟨loc, .uncorrectable⟩ party) s = .next (headerLost s (loc.toNat / 256))) ∧
    (regField s .bufCfg 0 16 8 = 0 → exec .censusWalkStart s = .next s) ∧
    (regField s .bufCfg 0 16 8 ≠ 0 → exec .censusWalkStart s = .next (s.withBuf { s.buf with walking := true })) ∧
    (s.buf.walking = true →
      exec .censusWalkEnd s = .next (ownerTags.foldl censusTag (s.withBuf { s.buf with walking := false }))) ∧
    (∀ k c f, nextList s s.buf.replRot = some (k, c, f) →
      exec .replicate s = .next (replicateCopy (s.withBuf { s.buf with replRot := (k + 1) % 128 }) k c f)) ∧
    (nextList s s.buf.replRot = none → exec .replicate s = .next s) ∧
    (∀ (ring : Fin 16) (addrs : List (BitVec 64)) (readOk writeOk : Bool) (c : Copy) (cs : List Copy) (f : Frame),
      let h := puntHost s f.epoch ring.val
      let page := 144 + ring.val
      let q := internalQ (0x10 + ring.val)
      let size := 256 * 2 ^ min (regField s .ringCfg (ringNo h page) 16 4) 6
      (queueAt s q).copies = c :: cs → frameAt s c.fid = some f → f.whole = true → shaperOpen s q = true →
      ringRuns s h page = true →
      (((puntBytes f c).length + size - 1) / size ≤ ringUsed (ringAt s h page) → readOk = true →
        exec (.puntWrite ring addrs readOk writeOk) s = .next (puntFrame s ring.val c f addrs writeOk)) ∧
      (ringUsed (ringAt s h page) < ((puntBytes f c).length + size - 1) / size →
        exec (.puntWrite ring addrs readOk writeOk) s =
          .next (setRing s h page { ringAt s h page with waits := (ringAt s h page).waits + 1 }))) ∧
    (∀ (host : HostNo) (ring : Fin 16) (entry frame : Bytes) (t : Nat),
      let page := 160 + ring.val
      s.boot.phase = .ready → injHas s host.val page = true → 60 ≤ leAt entry 8 2 → leAt entry 8 2 ≤ 10236 →
      leAt entry 10 1 ≤ 15 → injSlice s (leAt entry 10 1) = some t → ((sliceAt s t).heads.getD 6 []).length < 64 →
      exec (.injFetch host ring entry frame true true) s =
        .next (injectFrame (consumeInj s host.val page (leAt entry 16 8)) host.val ring.val t entry frame)) ∧
    (∀ (host : HostNo) (ring : Fin 16) (entry frame : Bytes) (ok : Bool),
      let page := 160 + ring.val
      let u := consumeInj s host.val page (leAt entry 16 8)
      s.boot.phase = .ready → injHas s host.val page = true → leAt entry 8 2 < 60 ∨ 10236 < leAt entry 8 2 →
      exec (.injFetch host ring entry frame true ok) s =
        .next (setRing u host.val page { ringAt u host.val page with injErrors := (ringAt u host.val page).injErrors + 1 }))

/-- R533 to R539, R545, R547, R552, R555 to R558: what the cells of a bond link do that the link takes, the hellos and the
silence of a link, and the frames that come over it. -/
def Obligations.BondCells : Prop :=
  ∀ (s u : State) (sub : SubNo) (cell : Bytes) (ok : Bool),
    let n := sub.val
    let p := (bondAt u n).peer
    (cellTaken s n cell ok = (u, false) →
      ∀ c ∈ [Instr.bondHello sub cell ok, .credit sub cell ok, .link sub cell ok, .seed sub cell ok, .record sub cell ok,
        .recordAck sub cell ok, .relay sub cell ok], exec c s = .next u) ∧
    (cellTaken s n cell ok = (u, true) →
      ((bondAt u n).left = false → exec (.bondHello sub cell ok) s = .next (receiveBondHello u n (cellPay cell))) ∧
      ((bondAt u n).left = true → exec (.bondHello sub cell ok) s = .next u) ∧
      exec (.credit sub cell ok) s = .next (grantCredit u n (grantsAt (cellPay cell) 0)) ∧
      exec (.link sub cell ok) s = .next (receiveShed u n (cellPay cell)) ∧
      (u.stk.isolated = false ∨ u.stk.needFormat = false →
        exec (.seed sub cell ok) s = .next (joinStack u p (cellPay cell))) ∧
      (u.stk.isolated = true → u.stk.needFormat = true → exec (.seed sub cell ok) s = .next u) ∧
      exec (.record sub cell ok) s = .next (receiveRecord u n cell) ∧
      exec (.recordAck sub cell ok) s = .next (receiveAckRecord u p cell) ∧
      exec (.relay sub cell ok) s = .next (receiveRelay u n cell)) ∧
    (isBond s (n / 4) = true → (subAt s n).up = true → (bondAt s n).left = false →
      exec (.bondHelloSend sub) s =
        .next (sendCell s n 0 (mkCell s 6 (bondAt s n).peer 0 0 0 true true (helloPayload s)))) ∧
    (isBond s (n / 4) = false →
      exec (.bondHelloSend sub) s = .next s ∧ exec (.bondLinkSilence sub) s = .next s) ∧
    (isBond s (n / 4) = true → exec (.bondLinkSilence sub) s = .next (bondLeave s n)) ∧
    (∀ cells : List (Bytes × Bool), exec (.deliver sub cells) s = .next (frameCells s n cells) ∧
      exec (.steer sub cells) s = .next (frameCells s n cells))

/-- R540 to R551: ALIVE, the loss of a member, an acknowledgement that does not come, and the ends of an insertion and of a
table's wait. -/
def Obligations.StackMembers : Prop :=
  ∀ (s : State) (dev : Fin 4),
    let m := dev.val
    (∀ level : Bool, exec (.aliveInChange dev level) s =
      .next (s.withStk { s.stk with aliveIn := putBits s.stk.aliveIn m 1 (if level then 1 else 0) })) ∧
    (s.stk.formed = true → bit s.stk.members m = true → m ≠ ownDev s → reachable s m = false →
      (bit s.stk.aliveIn m = false → exec (.memberLoss dev) s = .next (loseMember s m)) ∧
      (bit s.stk.aliveIn m = true → survives s = true → exec (.memberLoss dev) s =
        .next (((devsOf s.stk.members).filter (fun d => d != ownDev s && !reachable s d)).foldl loseMember s)) ∧
      (bit s.stk.aliveIn m = true → survives s = false → exec (.memberLoss dev) s = .next (isolate s))) ∧
    (s.stk.formed = false ∨ reachable s m = true → exec (.memberLoss dev) s = .next s) ∧
    (∀ (seq : BitVec 32) (w : MirrorWait) (rest : List MirrorWait),
      takeFirst (fun w => w.partner == m && w.seq == seq.toNat) s.stk.awaits = some (w, rest) → w.tries ≤ 3 →
      exec (.mirrorAckTimeout dev seq) s = .next (resendRecord s w)) ∧
    (∀ (seq : BitVec 32) (w : MirrorWait) (rest : List MirrorWait),
      takeFirst (fun w => w.partner == m && w.seq == seq.toNat) s.stk.awaits = some (w, rest) → 3 < w.tries → w.move = false →
      exec (.mirrorAckTimeout dev seq) s =
        .next (advanceMoves (endServes (endHolds (recordUnmirrored (s.withStk { s.stk with awaits := rest }) w 0)
          (fun h => h.partner == m && h.seq == seq.toNat))))) ∧
    (∀ id : Nat, exec (.insertionEnd id) s = .next (applyAll (insertionEnd s id))) ∧
    (∀ aseq : BitVec 32, exec (.tableFenceWaitEnd aseq) s = .next (advanceMoves (fenceWaitEnd s aseq.toNat false)))

/-- R541, R543, R551, R556 to R561: the commands of a stack on the device that may run them. -/
def Obligations.StackCommands : Prop :=
  ∀ (c : Cmd) (s : State) (a : Accepted) (dev : BitVec 8),
    let s0 := begun c s a
    let d := dev.toNat
    let done (u : State) (r : Reply) : Host.Outcome State Fault Refusal := .next (completeCmd u (asRun c a) r)
    (CmdRuns c 0x0E01 s a → chosenQuoin s0 = ownDev s0 →
      let u := (draw s0).2
      let w := setQuoin u (ownDev u) ((u.stk.term + 1) % 2 ^ 32)
      let f := w.withStk { w.stk with
        formed := true, isolated := false, mode := regField w .stackCfg 0 0 2, seedS := Config.freeValue s0.free
        members := reachMap u }
      exec (.stackForm c) s =
        done (driveAlive (((devsOf (reachMap u)).filter (· != ownDev f)).foldl sendSeed (logSeeds f)) true)
          { result := reachMap u }) ∧
    (CmdRuns c 0x0E01 s a → chosenQuoin s0 ≠ ownDev s0 → exec (.stackForm c) s = done s0 (err 5)) ∧
    (CmdRuns c 0x0E02 s a → isQuoin s0 = true → d < 4 → d ≠ ownDev s0 → reachable s0 d = true →
      exec (.stackJoin c dev) s = done (sendSeed (memberSeen s0 d) d) {}) ∧
    (isQuoin s0 = false →
      (CmdRuns c 0x0E02 s a → exec (.stackJoin c dev) s = done s0 (err 5)) ∧
      (∀ e, CmdRuns c 0x0E06 s a → exec (.stackMove c e dev) s = done s0 (err 5)) ∧
      (∀ addr, CmdRuns c 0x0E07 s a → exec (.stackDigest c addr) s = done s0 (err 5))) ∧
    (CmdRuns c 0x0E03 s a →
      let out (s : State) (n : Nat) : State := setBond (bondLeave s n) n { bondAt (bondLeave s n) n with left := true }
      let u := driveAlive s0 false
      let w := ((List.range 384).filter (fun n => isBond u (n / 4))).foldl out u
      let ms := (devsOf w.stk.members).filter (· != ownDev w)
      let f := w.withStk { w.stk with formed := false, quoin := none, mode := 0, seedS := 0, members := 0 }
      exec (.stackLeave c) s = done (relayLost (ms.foldl (fun s m =>
        endRelays (endHolds (forgetPeer s m) (fun h => h.partner == m)) m) f)) {}) ∧
    (∀ (x y : BitVec 64) (desc payload : Bytes), CmdRuns c 0x0E04 s a → isQuoin s0 = true → d < 4 → d ≠ ownDev s0 →
      bit s0.stk.members d = true → reachable s0 d = true →
      exec (.stackRelay c dev x y desc payload true) s =
        .next (askMember s0 d 0 0 a.aseq y.toNat (cut desc 0 64 ++ payload))) ∧
    (∀ (space : BitVec 8) (addr stage : BitVec 64) (len : BitVec 32) (data b : Bytes) (ok : Bool) (r : ReadOutcome) (u : State),
      CmdRuns c 0x0E05 s a → s0.stk.formed = true → d < 4 → d ≠ ownDev s0 → space.toNat ≤ 3 → len.toNat ≤ 2 ^ 24 →
      stage.toNat + len.toNat ≤ 2 ^ 24 → c.src ≠ .relay → bit s0.stk.members d = true → reachable s0 d = true →
      dmaRead s0 space.toNat addr.toNat len.toNat data ok false r = (u, b, 0) →
      exec (.stackStage c dev space addr stage len data ok r) s =
        done (relayTo u d 3 0 0 (le 8 stage.toNat ++ b)) {}) ∧
    (∀ e : BitVec 8, CmdRuns c 0x0E06 s a → isQuoin s0 = true → e.toNat < 64 → d < 4 →
      let v := mapAt s0 s0.tbl.epoch e.toNat
      let here := fun (m : Nat) => bit s0.stk.members m && (m == ownDev s0 || reachable s0 m)
      let m : MoveWait := { entry := e.toNat, src := mapOwner v, dst := d, aseq := a.aseq, step := 1, left := []
                            localWrite := 0, count := 0 }
      let u := s0.withStk { s0.stk with moves := s0.stk.moves ++ [m] }
      mapLocal v = false → here (mapOwner v) = true → here d = true → s0.stk.moves.any (fun m => m.entry == e.toNat) = false →
      mapOwner v ≠ d →
      exec (.stackMove c e dev) s = .next (advanceMove a.aseq 8 (beginStep u m (devsOf u.stk.members)))) ∧
    (∀ addr : BitVec 64, CmdRuns c 0x0E07 s a → c.src ≠ .relay → isQuoin s0 = true →
      (devsOf s0.stk.members).filter (· != ownDev s0) = [] →
      exec (.stackDigest c addr) s =
        done s0 { block := stackDigestBlock [(ownDev s0, digestBlock s0)], addr := some addr.toNat }) ∧
    (CmdRuns c 0x0E08 s a →
      let subs := (List.range 384).filter (fun n => isBond s0 (n / 4) && subExists s0 n)
      let b := le 1 s0.stk.mode ++ le 1 (s0.stk.quoin.getD 255) ++ le 4 s0.stk.term ++
        subs.flatMap (fun n => le 1 (linkCode (bondAt s0 n).st)) ++ le 1 (reachMap s0) ++ le 1 s0.stk.aliveIn ++
        le 8 s0.stk.copies ++ le 4 s0.stk.awaits.length
      exec (.stackStatus c) s = done s0 { block := b })

/-- R270 to R277: learning ends, pending entries and move candidates expire, and the sweep of learned MAC entries. -/
def Obligations.LearnedEntries : Prop :=
  ∀ (s : State) (mac : Bytes) (ten : BitVec 16),
    let t := ten.toNat
    (s.tbl.flight.find? (fun l => l.is mac t) = none → exec (.learnInsertDone mac ten) s = .next s) ∧
    (∀ l, s.tbl.flight.find? (fun l => l.is mac t) = some l →
      s.tbl.flips.any (fun m => m.who == .learn l.mac l.tenant) = false →
      (writtenFor s l = true → exec (.learnInsertDone mac ten) s = .next (dropFlight (count s 11 0 4 1) l)) ∧
      (writtenFor s l = false → atLimit s l.epoch l.sub = true →
        exec (.learnInsertDone mac ten) s = .next (dropFlight (refuseLearn s l 0) l)) ∧
      (writtenFor s l = false → atLimit s l.epoch l.sub = false → placeFor s 0x08 macInfo (macKey l.mac l.tenant) = none →
        exec (.learnInsertDone mac ten) s = .next (dropFlight (refuseLearn s l 1) l)) ∧
      (∀ i, writtenFor s l = false → atLimit s l.epoch l.sub = false → placeFor s 0x08 macInfo (macKey l.mac l.tenant) = some [i] →
        exec (.learnInsertDone mac ten) s = .next (learnPlace s l i))) ∧
    exec (.pendingEntryExpire mac ten) s =
      .next (s.withTbl { s.tbl with pend := s.tbl.pend.filter (fun l => !l.is mac t) }) ∧
    (let clear (l : Learn) : Learn := if l.is mac t then { l with cand := none } else l
     let u := s.withTbl { s.tbl with flight := s.tbl.flight.map clear, pend := s.tbl.pend.map clear }
     exec (.moveCandidateExpire mac ten) s = .next (modMac u (macKey mac t) (fun b =>
       if bit (macFlags b) 3 then macSet b (macDest b) (macFlags b % 8) 0 (macStamp b) else b))) ∧
    (∀ idx : Nat,
      let e := entAt s 0x08 0 idx
      let fl := macFlags e.bytes
      let put (f : Nat) : State := modMac s (cut e.bytes 0 8) (fun b => macSet b (macDest b) f (macCand b) (macStamp b))
      let gone := modKey s 0x08 macInfo (cut e.bytes 0 8) (fun _ => {})
      (regField s .learnCfg 0 1 1 = 0 ∨ isValid e = false ∨ bit fl 0 = true → exec (.macSweepVisit idx) s = .next s) ∧
      (regField s .learnCfg 0 1 1 = 1 → isValid e = true → bit fl 0 = false →
        (bit fl 1 = true → exec (.macSweepVisit idx) s = .next (put (fl - fl / 2 % 4 * 2))) ∧
        (bit fl 1 = false → bit fl 2 = false → exec (.macSweepVisit idx) s = .next (put (fl + 4))) ∧
        (bit fl 1 = false → bit fl 2 = true → directMode s s.tbl.epoch = true → exec (.macSweepVisit idx) s = .next gone) ∧
        (bit fl 1 = false → bit fl 2 = true → directMode s s.tbl.epoch = false → exec (.macSweepVisit idx) s =
          .next (postEvent gone 0x07 4 (origin gone 28 0 0 0) (cut e.bytes 0 8 ++ le 2 (macDest e.bytes))))))

/-- R261, R263, R281 to R284: the steps of a move of a hashed entry, what the repair of the associative tables finds, and the
end of a batch's wait. -/
def Obligations.TableUpkeep : Prop :=
  ∀ (s : State) (id inst : BitVec 8) (k : Nat) (found : Bytes),
    let kind := if inst.toNat < 0x20 then 0x10 else 0x20
    let e := entAt s kind inst.toNat k
    (∀ m, s.tbl.flips.find? (fun m => m.id == id.toNat && m.path.getD (m.path.length - 2) 0 == k) = some m →
      let u := setEnt (s.withTbl { s.tbl with flips := s.tbl.flips.filter (fun x => x != m) }) m.id 0 k {}
      let m' : HashedMove := { m with path := m.path.dropLast, held := m.path.getD (m.path.length - 1) 0 :: m.held }
      (m.path.length ≤ 2 → exec (.hashedMoveFlip id k) s = .next (pathDone u m')) ∧
      (2 < m.path.length → exec (.hashedMoveFlip id k) s = .next (startMove u m'))) ∧
    (s.tbl.flips.find? (fun m => m.id == id.toNat && m.path.getD (m.path.length - 2) 0 == k) = none →
      exec (.hashedMoveFlip id k) s = .next s) ∧
    (∀ t, targetOf inst.toNat kind = some t → repointing s = true → k < t.count → (∀ x, e.st ≠ .retiring x) →
      exec (.repointCompare inst k found true) s = .next (postRepoint (count s 11 inst.toNat 1 1) inst.toNat kind k 1) ∧
      (cut found 0 t.size = cut e.bytes 0 t.size → exec (.repointCompare inst k found false) s = .next s) ∧
      (cut found 0 t.size ≠ cut e.bytes 0 t.size →
        exec (.repointCompare inst k found false) s = .next (postRepoint (count s 11 inst.toNat 0 1) inst.toNat kind k 0))) ∧
    (∀ t, targetOf inst.toNat id.toNat = some t → repointing s = true → id.toNat < 0x30 → k < t.count →
      exec (.emScrubRead id inst k .clean) s = .next s ∧
      exec (.emScrubRead id inst k .corrected) s = .next (postRepoint (count s 11 0 0 1) 0 id.toNat k 0) ∧
      (id.toNat < 0x10 → exec (.emScrubRead id inst k .uncorrectable) s =
        .next (setEnt (postRepoint (count s 11 0 1 1) 0 id.toNat k 1) id.toNat inst.toNat k {})) ∧
      (0x10 ≤ id.toNat → exec (.emScrubRead id inst k .uncorrectable) s =
        .next (postRepoint (count s 11 0 1 1) 0 id.toNat k 1))) ∧
    (∀ aseq : BitVec 32, exec (.batchFenceWaitEnd aseq) s = .next (fenceWaitEnd s aseq.toNat true))

/-- R256 to R262, R289: the commands of the tables on an instance of which no command still waits. -/
def Obligations.TableCommands : Prop :=
  ∀ (c : Cmd) (s : State) (a : Accepted) (table : BitVec 16) (idx : BitVec 32) (key entry : Bytes),
    let s0 := begun c s a
    let inst := c.inst.toNat
    let id := table.toNat
    let done (u : State) (r : Reply) : Host.Outcome State Fault Refusal := .next (completeCmd u (asRun c a) r)
    (instBusy s0 inst = false →
      (CmdRuns c 0x0701 s a → targetOf inst id = none → exec (.tableWrite c table idx key entry) s = done s0 (err 2)) ∧
      (∀ t i, CmdRuns c 0x0701 s a → targetOf inst id = some t → placeOf s0 id t idx.toNat key = some i →
        let bytes := cut key 0 t.keyLen ++ cut entry t.keyLen (t.size - t.keyLen)
        let u := retireNow s0 inst id i
        let w : TableWait := { aseq := a.aseq, inst := inst, fence := s0.tbl.epoch, batch := false
                               ops := [{ write := true, id := id, idx := i, bytes := bytes }] }
        let v := writeValidate s0 inst id i bytes
        (isValid (entAt s0 id inst i) = true →
          exec (.tableWrite c table idx key entry) s = .next (u.withTbl { u.tbl with waits := u.tbl.waits ++ [w] })) ∧
        (isValid (entAt s0 id inst i) = false →
          exec (.tableWrite c table idx key entry) s = done v { result := v.tbl.epoch })) ∧
      (∀ t, CmdRuns c 0x0701 s a → targetOf inst id = some t → placeOf s0 id t idx.toNat key = none → t.keyLen ≠ 0 →
        placeFor s0 id t key = none → exec (.tableWrite c table idx key entry) s = done s0 { status := stNoSpace }) ∧
      (∀ t i, CmdRuns c 0x0702 s a → targetOf inst id = some t → t.keyLen ≠ 0 ∨ idx.toNat < t.count →
        placeOf s0 id t idx.toNat key = some i →
        (isValid (entAt s0 id inst i) = false → exec (.tableDelete c table idx key) s = done s0 { status := stNotFound }) ∧
        (isValid (entAt s0 id inst i) = true →
          let u := retireNow s0 inst id i
          let w : TableWait := { aseq := a.aseq, inst := inst, fence := s0.tbl.epoch, batch := false
                                 ops := [{ write := false, id := id, idx := i, bytes := cut key 0 t.keyLen }] }
          exec (.tableDelete c table idx key) s = .next (u.withTbl { u.tbl with waits := u.tbl.waits ++ [w] }))) ∧
      (∀ (list : Bytes) (n : BitVec 16), CmdRuns c 0x0703 s a → 1 ≤ n.toNat → n.toNat ≤ 4096 →
        let b := checkItems inst list n.toNat { s := s0 }
        (∀ k d, b.failed = some (k, d) →
          exec (.tableBatch c list n) s = done s0 { status := stError, result := d + 2 ^ 32 * k }) ∧
        (b.failed = none → b.ops.any (fun o => isValid (entAt b.s o.id inst (opPlace b.s o))) = false →
          let u := opsValidated (advanceEpoch (writeOps inst (nextEpoch b.s) b.s b.ops)) b.ops
          exec (.tableBatch c list n) s = done u { result := u.tbl.epoch }) ∧
        (b.failed = none → b.ops.any (fun o => isValid (entAt b.s o.id inst (opPlace b.s o))) = true →
          let u := opsRetired (advanceEpoch (retireOps inst b.s b.ops)) b.ops
          let w : TableWait := { aseq := a.aseq, inst := inst, fence := s0.tbl.epoch, batch := true, ops := b.ops }
          exec (.tableBatch c list n) s = .next (u.withTbl { u.tbl with waits := u.tbl.waits ++ [w] }))) ∧
      (∀ (addr : BitVec 64) t i, CmdRuns c 0x0704 s a → c.src ≠ .relay → targetOf inst id = some t →
        placeOf s0 id t idx.toNat key = some i →
        let e := entAt s0 id inst i
        let b := cut e.bytes 0 t.size
        exec (.tableRead c table idx key addr) s = done s0 {
          block := b ++ le 1 (entCode e).1 ++ le 4 (entCode e).2 ++ (if id = 0x10 ∨ id = 0x20 then b else [])
          addr := some addr.toNat })) ∧
    (instBusy s0 inst = true →
      (CmdRuns c 0x0701 s a → exec (.tableWrite c table idx key entry) s = .next s) ∧
      (CmdRuns c 0x0702 s a → exec (.tableDelete c table idx key) s = .next s)) ∧
    (∀ addr : BitVec 64, CmdRuns c 0x0705 s a → c.src ≠ .relay →
      exec (.digestRead c addr) s = done s0 { block := digestBlock s0, addr := some addr.toNat }) ∧
    (∀ sub ten : Option (BitVec 16), CmdRuns c 0x0706 s a → instBusy s0 0 = false →
      let xs := (validEnts s0 0x08 0).filter (flushes sub ten)
      let t : TableInfo := { count := 4194304, size := 16, keyLen := 8 }
      exec (.macFlush c sub ten) s =
        done (xs.foldl (fun s e => modKey s 0x08 t e.2 (fun _ => {})) s0) { result := xs.length })

/-- R158, R159, R583 to R588: the piers' courses: a window of corrected errors, a rebuild granule by granule, its end, and
COURSE_RETIRE. -/
def Obligations.Courses : Prop :=
  ∀ (s : State) (pier : PierNo),
    let p := pier.val
    (∀ (course : Fin 7) (n : Nat),
      let k := course.val
      let x := courseOf s p k
      let u := count s 10 p k n
      let run := if regField s .fsDemoteCfg 0 16 16 < x.window + n then x.overs + 1 else 0
      let w := setCourse u p k { x with window := 0, overs := run % 3 }
      let e := postEvent w 0x05 4 (courseOrigin w p k) (le 8 (x.window + n))
      (run ≠ 3 → exec (.courseCeWindowEnd pier course n) s = .next w) ∧
      (run = 3 → regField s .ftCfg 0 1 1 = 0 → exec (.courseCeWindowEnd pier course n) s = .next e) ∧
      (run = 3 → regField s .ftCfg 0 1 1 = 1 → x.retired = false → x.rebuilding = false →
        exec (.courseCeWindowEnd pier course n) s = .next (retireCourse e p k 0 none).1)) ∧
    (rebuildingCourse s p = none →
      (∀ bank off bad, exec (.rebuildGranuleCopy pier bank off bad) s = .next s) ∧
      exec (.bucketRescan pier) s = .next s ∧ exec (.rebuildComplete pier) s = .next s) ∧
    (∀ k, rebuildingCourse s p = some k →
      let x := courseOf s p k
      (∀ (bank : Fin 64) (off : BitVec 16) (bad : Bool),
        let i := 65536 * bank.val + off.toNat
        x.copied ≤ i → isAwake s .course (7 * p + 6) = true →
        let w := setCourse s p k { x with copied := i + 1, bad := x.bad + (if bad then 1 else 0) }
        exec (.rebuildGranuleCopy pier bank off bad) s =
          .next (if bad then badGranule w p k ((off.toNat * bankCount w + 64 * k + bank.val) * 64) else w)) ∧
      (x.copied < courseGranules →
        exec (.bucketRescan pier) s = .next s ∧ exec (.rebuildComplete pier) s = .next s) ∧
      (courseGranules ≤ x.copied → s.fs.lost.any (fun b => bucketPier s b == p) = false → x.aseq = none →
        let u := setCourse s p k { x with rebuilding := false, retired := true, aseq := none }
        let w := putBlk u .course (7 * p + k) .retention
        exec (.rebuildComplete pier) s =
          .next (postEvent w 0x0F 5 (courseOrigin u p k) (le 4 x.bad ++ le 4 x.rebuilt))) ∧
      (courseGranules ≤ x.copied →
        let bs := s.fs.lost.filter (fun b => bucketPier s b == p)
        let es := s.fs.idx.filter (fun e => touchesBuckets s bs e.1 e.2)
        let u := bs.foldl (fun s b => s.withFs { s.fs with spill := setAt 0 s.fs.spill b 0 })
          (es.foldl (fun s e => dropIdx s e.1) s)
        let w := setCourse (u.withFs { u.fs with lost := u.fs.lost.filter (fun b => !bs.contains b) }) p k
          { x with rebuilt := x.rebuilt + bs.length }
        bs ≠ [] → exec (.bucketRescan pier) s = .next (es.foldl (fun s e => replaceKey s e.2) w))) ∧
    (∀ (c : Cmd) (a : Accepted) (course : BitVec 8) (u : State), CmdRuns c 0x0F04 s a → course.toNat < 6 →
      let s0 := begun c s a
      (courseOf s0 p course.toNat).rebuilding = false → (courseOf s0 p course.toNat).retired = false →
      (retireCourse s0 p course.toNat 1 (some a.aseq) = (u, true) →
        exec (.courseRetire c (BitVec.ofNat 8 p) course) s = .next u) ∧
      (retireCourse s0 p course.toNat 1 (some a.aseq) = (u, false) →
        exec (.courseRetire c (BitVec.ofNat 8 p) course) s = .next (completeCmd u (asRun c a) (err 5))))

/-- R499 to R507: the channels of the external memory: windows of corrected errors, training, rows and refresh, and the
evacuation of a channel. -/
def Obligations.DdrEvents : Prop :=
  ∀ (s : State) (ch : Fin 32),
    let n := ch.val
    let x := ddrCh s n
    (let run := if regField s .ddrCfg 0 16 16 < x.window then x.overs + 1 else 0
     let u := setDdrCh s n { x with lastWindow := x.window, window := 0, overs := if run = 3 then 0 else run }
     exec (.ddrCeWindowEnd ch) s =
      .next (if run = 3 ∧ (x.st = .inService ∨ x.st = .retraining) then channelFault u n 0 else u)) ∧
    exec (.driftReport ch) s = .next (beginTraining s n) ∧
    (x.st = .retraining → x.step < 15 →
      exec (.retrainStep ch true) s = .next (setDdrCh s n { x with step := x.step + 1, failed := 0 })) ∧
    (x.st = .retraining → x.step = 15 →
      let u := setDdrCh s n { x with st := .inService, step := 0, failed := 0, trainedAt := timeNs s, trainAseq := none }
      exec (.retrainStep ch true) s = .next (match x.trainAseq with
        | some a => finish u a {}
        | none => u)) ∧
    (x.st = .retraining → x.failed ≠ 1 → exec (.retrainStep ch false) s = .next (setDdrCh s n { x with failed := 1 })) ∧
    (x.st = .retraining → x.failed = 1 →
      exec (.retrainStep ch false) s =
        .next (channelFault (abandonTraining (setDdrCh s n { x with st := .inService }) n) n 1)) ∧
    (x.st ≠ .retraining → x.st ≠ .inService → ∀ ok, exec (.retrainStep ch ok) s = .next s) ∧
    (∀ (sub : Fin 2) (bank : BitVec 16),
      exec (.rowIdleClose ch sub bank) s = .next (closeRow s n sub.val bank.toNat) ∧
      exec (.refreshDue ch sub bank) s = .next (closeRow s n sub.val bank.toNat)) ∧
    (x.st ≠ .evacuating → ∀ r, exec (.evacuationCopy ch r) s = .next s) ∧
    (x.st = .evacuating → granuleCount s ≤ nextGranule s n x.evacuated →
      ∀ r, exec (.evacuationCopy ch r) s = .next (finishRetire s n)) ∧
    (x.st = .evacuating → ∀ r,
      let g := nextGranule s n x.evacuated
      let a := ddrGranule n g
      g < granuleCount s →
      let u := ddrCommands (ddrRead s a 256 r 4) a 256
      let v := if r = .uncorrectable then u.withDdr { u.ddr with poison := poisonSet u.ddr.poison a 256 } else u
      let w := setDdrCh v n { ddrCh v n with evacuated := g + 1 }
      exec (.evacuationCopy ch r) s = .next (if granuleCount s ≤ nextGranule w n (g + 1) then finishRetire w n else w))

/-- R511, R604 to R612: the commands of the external memory, of the counters and of the performance counters. -/
def Obligations.MemoryAndCounterCommands : Prop :=
  ∀ (c : Cmd) (s : State) (a : Accepted),
    let s0 := begun c s a
    let done (u : State) (r : Reply) : Host.Outcome State Fault Refusal := .next (completeCmd u (asRun c a) r)
    (∀ ch : BitVec 16, ch.toNat < 32 →
      (∀ u vs, CmdRuns c 0x0C03 s a → sampleCounters s0 15 ch.toNat (List.range 5) = (u, vs) →
        exec (.ddrStatus c ch) s =
          done u { block := le 1 (ddrCode u ch.toNat) ++ vs.flatMap (le 8) ++ le 8 (ddrCh u ch.toNat).trainedAt }) ∧
      (CmdRuns c 0x0C04 s a → (ddrCh s0 ch.toNat).st = .inService → retraining s0 = false →
        (ddrCh s0 ch.toNat).trainAseq = none →
        let u := beginTraining s0 ch.toNat
        exec (.ddrRetrain c ch) s = .next (setDdrCh u ch.toNat { ddrCh u ch.toNat with trainAseq := some a.aseq })) ∧
      (CmdRuns c 0x0C04 s a → (ddrCh s0 ch.toNat).st ≠ .inService → (ddrCh s0 ch.toNat).st ≠ .retraining →
        exec (.ddrRetrain c ch) s = done s0 (err 5)) ∧
      (CmdRuns c 0x0C05 s a → retireRefusal s0 ch.toNat = none →
        exec (.ddrRetire c ch) s = .next (beginRetire s0 ch.toNat (some a.aseq)))) ∧
    (∀ ch : BitVec 16, 32 ≤ ch.toNat →
      (CmdRuns c 0x0C03 s a → exec (.ddrStatus c ch) s = done s0 (err 2)) ∧
      (CmdRuns c 0x0C04 s a → exec (.ddrRetrain c ch) s = done s0 (err 2)) ∧
      (CmdRuns c 0x0C05 s a → exec (.ddrRetire c ch) s = done s0 (err 2))) ∧
    (∀ (kind : BitVec 8) (num : BitVec 32) (clear : BitVec 8) (addr : BitVec 64), CmdRuns c 0x1101 s a → c.src ≠ .relay →
      exec (.counterRead c kind num clear addr) s = match groupVals s0 kind.toNat num.toNat with
        | none => done s0 (err 2)
        | some vs => done (sampleGroup s0 kind.toNat num.toNat (clear != 0) vs).1
            { block := (sampleGroup s0 kind.toNat num.toNat (clear != 0) vs).2, addr := some addr.toNat }) ∧
    (∀ (list : Bytes) (n clear : BitVec 8) (addr : BitVec 64), CmdRuns c 0x1102 s a → c.src ≠ .relay → n ≠ 0 → n.toNat ≤ 64 →
      (scanList list n.toNat).any (fun g => (groupVals s0 g.1 g.2).isNone) = false →
      let r := scanGroups s0 (clear != 0) (scanList list n.toNat)
      exec (.counterScan c list n clear addr) s = done r.1 { block := r.2, addr := some addr.toNat }) ∧
    (∀ (mask : BitVec 64) (action : BitVec 8) (start : BitVec 64), CmdRuns c 0x1103 s a → action.toNat ≤ 2 →
      action ≠ 0 ∨ (maskPmcs mask).any (badFilter s0) = false →
      exec (.pmcControl c mask action start) s =
        done ((maskPmcs mask).foldl (pmcAct action.toNat start.toNat) s0) {}) ∧
    exec .pmcStartTime s = .next (pmcStart s) ∧
    (∀ addr : BitVec 64, CmdRuns c 0x1104 s a → c.src ≠ .relay →
      let r := pmcEntries s0 (List.range 64)
      exec (.pmcRead c addr) s = done r.1 { result := timeNs r.1, block := r.2, addr := some addr.toNat })

/-- R407 to R431: the commands of the time domains, holdover, pulses and captures. An edge less than 1500 cycles after the
last one taken is counted and no capture. -/
def Obligations.Time : Prop :=
  ∀ (c : Cmd) (s : State) (a : Accepted),
    let s0 := begun c s a
    let done (u : State) (r : Reply) : Host.Outcome State Fault Refusal := .next (completeCmd u (asRun c a) r)
    (∀ (dom : BitVec 8) (off : BitVec 64), CmdRuns c 0x0A01 s a → dom.toNat < 2 →
      exec (.timeOffset c dom off) s =
        done (applySample s0 dom.toNat off.toInt) { block := domResult (applySample s0 dom.toNat off.toInt) dom.toNat }) ∧
    (∀ dom : BitVec 8, CmdRuns c 0x0A02 s a → dom.toNat < 2 →
      exec (.timeAcquire c dom) s = done (domTo s0 dom.toNat .acquire) {}) ∧
    (let alt := domainOf s0.time (1 - primaryDom s0)
     let lim : Int := ((max 1 (regField s0 .timeLimitCfg 0 20 12) * 1000 * 4294967296 : Nat) : Int)
     (CmdRuns c 0x0A03 s a → alt.st = .locked → timeGap alt.t (primaryTime s0) ≤ lim →
       exec (.timeSwitch c) s = done (switchPrimary s0) {}) ∧
     (CmdRuns c 0x0A03 s a → alt.st ≠ .locked → exec (.timeSwitch c) s = done s0 (err 5)) ∧
     (CmdRuns c 0x0A03 s a → lim < timeGap alt.t (primaryTime s0) → exec (.timeSwitch c) s = done s0 (err 5))) ∧
    (∀ addr : BitVec 64, CmdRuns c 0x0A04 s a → c.src ≠ .relay →
      let block := le 8 (nsOf s0.time.dom0.t) ++ le 8 (nsOf s0.time.dom1.t) ++ le 8 (timeNs s0) ++
        domResult s0 0 ++ domResult s0 1 ++ le 8 (ofSigned 64 s0.time.resid)
      exec (.timeStatus c addr) s = done s0 { block := block, addr := some addr.toNat }) ∧
    (∀ (out role mode : BitVec 8) (secs : BitVec 64) (ns period width : BitVec 32) (pol : BitVec 8), CmdRuns c 0x0A05 s a →
      out.toNat < 4 → role.toNat < 2 → mode.toNat < 3 → pol.toNat < 2 → ns.toNat < 1000000000 →
      let p : PulsePattern :=
        { alternate := role == 1, mode := mode.toNat, start := secs.toNat * 1000000000 + ns.toNat
          period := period.toNat, width := width.toNat, polarity := pol == 1 }
      let now := acceptTime s0 a.aseq p.alternate
      pulseOk p now = true →
      let at10 := if p.mode = 0 then now + 10000 else firstEdge p (now + 10000)
      exec (.timePulse c out role mode secs ns period width pol) s =
        done (setPulse s0 out.toNat (pulseWaits (pulseAt s0 out.toNat) p at10)) {}) ∧
    (∀ (inp edges role on : BitVec 8), CmdRuns c 0x0A06 s a → inp.toNat < 4 → edges.toNat < 3 → role.toNat < 2 → on.toNat < 2 →
      exec (.timeCapture c inp edges role on) s = done (setCapture s0 inp.toNat
        { captureAt s0 inp.toNat with enabled := on == 1, edges := edges.toNat, alternate := role == 1 }) {}) ∧
    (∀ dom : Fin 2,
      ((domainOf s.time dom.val).st = .locked → exec (.holdoverTimeout dom) s = .next (domTo s dom.val .holdover)) ∧
      ((domainOf s.time dom.val).st = .locking → exec (.holdoverTimeout dom) s = .next (domTo s dom.val .holdover))) ∧
    (∀ out : Fin 4, exec (.pulseEdge out) s = .next (pulseEdge s out.val)) ∧
    (regField s .timePpsCfg 0 0 1 ≠ 0 →
      exec .ppsEdge s = .next (emit (s.withTime { s.time with pps := true }) (.pin .pps true))) ∧
    (∀ (inp : Fin 4) (falling : Bool),
      let x := captureAt s inp.val
      x.enabled = true → x.edges = 2 →
      (∀ t, x.lastAt = some t → s.clk.cc < t + 1500 → exec (.captureEdge inp falling) s = .next (count s 14 0 (41 + inp.val) 1)) ∧
      (x.lastAt = none →
        let dom := if x.alternate then 1 - primaryDom s else primaryDom s
        exec (.captureEdge inp falling) s =
          .next (tsRecord (setCapture s inp.val { x with count := x.count + 1, lastAt := some s.clk.cc })
            (captureRecord inp.val falling dom (x.count + 1) (roleTime s x.alternate)))))

/-- R519 to R526, R529, R531: the wake budget and the sleep states, the health of the device, and the commands of both. -/
def Obligations.WakingAndSleep : Prop :=
  ∀ (s : State) (k : BlockKind) (n : Nat),
    let b := blkAt s k n
    (∀ (nums : List Nat) (sub : Bool), exec (.wakeRequest k nums sub) s = .next (wakeRequest s k (askable s k nums) sub)) ∧
    (∀ r, s.pwr.queue.find? (fun r => !passedOver s r) = some r →
      (s.pwr.used + r.credits ≤ 64 → exec .wakeGrant s = .next (grantReq s r)) ∧
      (64 < s.pwr.used + r.credits → exec .wakeGrant s = .next s)) ∧
    (∀ x xs, s.pwr.grants = x :: xs →
      exec .creditReturn s = .next (s.withPwr { s.pwr with grants := xs, used := s.pwr.used - x })) ∧
    (b.st ≠ .waking → exec (.blockReady k n) s = .next s ∧ exec (.wakeLate k n) s = .next s) ∧
    (b.st = .waking → k = .slice → exec (.blockReady k n) s = .next (sliceReady (blockReady s k n) n)) ∧
    (b.st = .waking → k ≠ .slice → k ≠ .engine → exec (.blockReady k n) s = .next (blockReady s k n)) ∧
    (b.st = .waking → b.late = false → exec (.wakeLate k n) s = .next (wakeLate s k n)) ∧
    (b.st = .waking → b.late = true →
      exec (.wakeLate k n) s =
        .next (finishAll (wakeFailure (setBlk s k n { b with wakers := [] }) k n) (err 5) b.wakers)) ∧
    (∀ power : Bool, n < kindCount k →
      let deep := sleepTarget k power == .powerGated
      (maySleep s k n = true → blockIdle s k n deep = true →
        exec (.sleepEntry k n power) s = .next (putBlk (sleepLoss s k n deep) k n (sleepTarget k power))) ∧
      (blockIdle s k n deep = false → exec (.sleepEntry k n power) s = .next s)) ∧
    (∀ (temps : List Int) (rails bad : List Nat), (∀ t ∈ temps, t < 115) →
      exec (.healthSample temps rails bad) s = .next (railSamples (sensorSamples (s.withPwr { s.pwr with
        sensors := temps, rails := rails, highest := maxTemp s.pwr.highest temps }) 0 temps) bad 0 rails)) ∧
    (∀ (c : Cmd) (a : Accepted) (kind : BitVec 8) (num : BitVec 16), namedBlock kind num = some k →
      let s0 := begun c s a
      let x := blkAt s0 k num.toNat
      let done (u : State) (r : Reply) : Host.Outcome State Fault Refusal := .next (completeCmd u (asRun c a) r)
      (CmdRuns c 0x0D01 s a →
        let block := le 1 (sleepCode x.st) ++ le 8 (ccNs (s0.clk.cc - x.since)) ++ le 2 (queuePlace k num.toNat 0 s0.pwr.queue)
        exec (.powerStatus c kind num) s = done s0 { block := block }) ∧
      (CmdRuns c 0x0D02 s a → x.st = .awake → exec (.powerWake c kind num) s = done s0 {}) ∧
      (CmdRuns c 0x0D02 s a → x.st = .gone → exec (.powerWake c kind num) s = done s0 (err 5)) ∧
      (CmdRuns c 0x0D02 s a → x.st ≠ .awake → askable s0 k [num.toNat] = [] → exec (.powerWake c kind num) s = done s0 (err 5)) ∧
      (CmdRuns c 0x0D02 s a → x.st ≠ .awake → x.st ≠ .gone → askable s0 k [num.toNat] ≠ [] →
        let u := wakeRequest s0 k [num.toNat] false
        exec (.powerWake c kind num) s =
          .next (setBlk u k num.toNat { blkAt u k num.toNat with wakers := (blkAt u k num.toNat).wakers ++ [a.aseq] })) ∧
      (∀ hold : BitVec 8, CmdRuns c 0x0D03 s a → hold.toNat < 2 →
        exec (.powerHold c kind num hold) s = done (setBlk s0 k num.toNat { x with hold := hold == 0 }) {}) ∧
      (∀ addr : BitVec 64, CmdRuns c 0x0D04 s a → c.src ≠ .relay →
        let block := (List.range 32).map (fun i => BitVec.ofNat 8 (ofSigned 8 (s0.pwr.sensors.getD i 0))) ++
          (List.range 7).flatMap (fun i => le 2 (s0.pwr.rails.getD i 0)) ++ le 1 (ofSigned 8 s0.pwr.highest)
        exec (.healthStatus c addr) s = done s0 { block := block, addr := some addr.toNat }) ∧
      (CmdRuns c 0x0D05 s a →
        let block := (upFrom 1 6).flatMap (fun k => le 2 (s0.pwr.queue.filter (fun r => r.cls == k)).length) ++
          le 1 s0.pwr.used ++ le 8 (ccNs s0.pwr.maxWait)
        exec (.wakeStatus c) s = done s0 { block := block }))

/-- R573 to R582: the ends of planned switches, self-tests, recalibrations and reclaim walks. -/
def Obligations.FaultEvents : Prop :=
  ∀ (s : State),
    (∀ m, s.ft.switch = some m → m.begun = true → holdsUnjudged s m.src = false →
      exec .sliceSwitchAdmit s = .next (endSwitch s m)) ∧
    (∀ m, s.ft.switch = some m → m.begun = false ∨ holdsUnjudged s m.src = true → exec .sliceSwitchAdmit s = .next s) ∧
    (s.ft.switch = none → exec .sliceSwitchAdmit s = .next s) ∧
    (∀ n aseq, s.ft.selfTest = some (n, aseq) →
      let u := s.withFt { s.ft with selfTest := none }
      exec (.sliceSelfTestDone false) s =
        .next (finish (setSlice u n { sliceAt u n with retired := true }) aseq (err 5)) ∧
      (servingSlice u n = some 16 → exec (.sliceSelfTestDone true) s = .next (planSwitch u n 16 n aseq)) ∧
      (servingSlice u n ≠ some 16 → exec (.sliceSelfTestDone true) s =
        .next (finish (postReturned (returnGroup u n n) n) aseq {}))) ∧
    (∀ (lane : LaneNo) (pass : Bool) (r : Recal) (rest : List Recal),
      takeFirst (fun (r : Recal) => r.port * 8 + r.lane == lane.val) s.ft.recals = some (r, rest) →
      laneSub s lane.val = none →
      let u := s.withFt { s.ft with recals := rest }
      let w := if r.path = 2 ∧ pass = true then restoreLane u lane.val else sleepLanes u [lane.val]
      exec (.recalibrationDone lane pass) s =
        .next (finish (postEvent w 0x0F 8 (laneOrigin w lane.val) (le 1 (if pass then 0 else 1) ++ le 1 r.path)) r.aseq
          { result := if pass then 0 else 1 })) ∧
    (∀ t aseq, s.ft.reclaim = some (t, aseq) →
      let cs := (s.buf.cells.filter (fun e => e.2.alloc && e.2.owner == t)).map (·.1)
      let r := cs.foldl reclaimCell (s.withFt { s.ft with reclaim := none }, 0)
      exec .reclaimWalkEnd s =
        .next (finish (postEvent r.1 0x0F 9 (origin r.1 25 1 0 0) (le 1 t ++ le 4 r.2)) aseq { result := r.2 }))

/-- R573 to R582: the commands of the fault machinery on units in the state that they need. -/
def Obligations.FaultCommands : Prop :=
  ∀ (c : Cmd) (s : State) (a : Accepted),
    let s0 := begun c s a
    let done (u : State) (r : Reply) : Host.Outcome State Fault Refusal := .next (completeCmd u (asRun c a) r)
    (∀ addr : BitVec 64, CmdRuns c 0x0F01 s a → c.src ≠ .relay →
      exec (.faultStatus c addr) s = done s0 { block := faultBlock s0, addr := some addr.toNat }) ∧
    (∀ slice : BitVec 8, CmdRuns c 0x0F02 s a → slice.toNat < 16 → (sliceAt s0 slice.toNat).retired = false →
      s0.ft.switch = none → s0.ft.selfTest = none → s0.ft.waitAseq = none →
      let n := slice.toNat
      let u := setBank (setBank s0 0 (copyBank n (bankOf s0 0))) 1 (copyBank n (bankOf s0 1))
      (spareFree s0 = false → exec (.sliceSwitch c slice 0) s = done s0 (err 5)) ∧
      (spareFree s0 = true → servingSlice s0 n = none →
        exec (.sliceSwitch c slice 0) s = .next (joinSpare s0 n (some a.aseq))) ∧
      (∀ k, spareFree s0 = true → servingSlice s0 n = some k →
        exec (.sliceSwitch c slice 0) s = .next (planSwitch s0 n n 16 a.aseq)) ∧
      (servingSlice s0 n ≠ some n →
        exec (.sliceSwitch c slice 1) s = .next (u.withFt { u.ft with selfTest := some (n, a.aseq) })) ∧
      (servingSlice s0 n = some n → exec (.sliceSwitch c slice 1) s = done s0 (err 5))) ∧
    (∀ cl : BitVec 8, CmdRuns c 0x0F03 s a → cl.toNat < 16 → clusterPhys s0 cl.toNat = none → spareWorks s0 = true →
      s0.ft.remap = none → (List.range 16).any (fun d => clusterPhys s0 d == some 16) = false →
      let u := (lentSpares s0 cl.toNat).foldl drainLent s0
      exec (.clusterRemap c cl) s = .next (advanceRemap (u.withFt { u.ft with remap := some (cl.toNat, a.aseq) }))) ∧
    (∀ (port : BitVec 16) (lane force : BitVec 8), CmdRuns c 0x0F05 s a → port.toNat < 96 → lane.toNat < 8 →
      let l := port.toNat * 8 + lane.toNat
      let inUse := (laneSub s0 l).filter (fun n => (subAt s0 n).up && (usedLanes s0 n).contains l)
      (s0.ft.recals.any (fun r => r.port == port.toNat) = true → exec (.laneRecal c port lane force) s = .next s) ∧
      (s0.ft.recals.any (fun r => r.port == port.toNat) = false →
        (inUse = none → exec (.laneRecal c port lane force) s =
          .next (wakeRequest (startRecal s0 port.toNat lane.toNat 0 a.aseq) .lane [l] false)) ∧
        (∀ n, inUse = some n → recalNarrows s0 n l = false →
          exec (.laneRecal c port lane 0) s = done s0 (err 5) ∧
          (force ≠ 0 → exec (.laneRecal c port lane force) s =
            .next (startRecal (failLane s0 l none) port.toNat lane.toNat 2 a.aseq))))) ∧
    (∀ (port : BitVec 16) (i : ImgInfo), CmdRuns c 0x0F06 s a → port.toNat < 96 → s0.img.staged = some i →
      let u := (upFrom (4 * port.toNat) 4).foldl linkDown s0
      let v := u.withImg { u.img with serdesPort := setAt none u.img.serdesPort port.toNat (some i) }
      exec (.serdesApply c port) s =
        done (imageActivated (wakePort v port.toNat (portWakes v port.toNat)) port.toNat i) {}) ∧
    (∀ port : BitVec 16, CmdRuns c 0x0F06 s a → port.toNat < 96 → s0.img.staged = none →
      exec (.serdesApply c port) s = done s0 (err 6)) ∧
    (∀ tag : BitVec 8, CmdRuns c 0x0F07 s a →
      (tagQuiet s0 tag.toNat = none → exec (.cellReclaim c tag) s = done s0 (err 2)) ∧
      (tagQuiet s0 tag.toNat = some true → s0.ft.reclaim = none →
        exec (.cellReclaim c tag) s = .next (s0.withFt { s0.ft with reclaim := some (tag.toNat, a.aseq) })) ∧
      (tagQuiet s0 tag.toNat = some false → s0.ft.reclaim = none → exec (.cellReclaim c tag) s = done s0 (err 5)))

/-- R591 to R603: images, the restart of the footing, the quote, the log and the identity. `takes` is the state in which an
image has been read and waits for its check. -/
def Obligations.Images : Prop :=
  ∀ (c : Cmd) (s : State) (a : Accepted) (image : ImageLoc) (takes : State),
    let s0 := begun c s a
    let done (u : State) (r : Reply) : Host.Outcome State Fault Refusal := .next (completeCmd u (asRun c a) r)
    (CmdRuns c 0x0201 s a → s0.seq.swap = none → queueCheck s0 a.aseq 2 0xFFFF c.src image = .later takes →
      exec (.seqLoad c image) s = .next (takes.withSeq { takes.seq with loading := true })) ∧
    (CmdRuns c 0x0201 s a → s0.seq.swap ≠ none → exec (.seqLoad c image) s = done s0 (err 5)) ∧
    (∀ en : BitVec 16, CmdRuns c 0x0802 s a → en.toNat < 128 → (physOf s0 en.toNat).isSome = true →
      (engDrained (engAt s0 en.toNat) = true → queueCheck s0 a.aseq 3 en.toNat c.src image = .later takes →
        exec (.engLoad c en image) s = .next takes) ∧
      (engDrained (engAt s0 en.toNat) = false → exec (.engLoad c en image) s = done s0 (err 5))) ∧
    (CmdRuns c 0x1001 s a → queueCheck s0 a.aseq 4 0xFFFF c.src image = .later takes →
      exec (.serdesLoad c image) s = .next takes) ∧
    (CmdRuns c 0x1002 s a → queueCheck s0 a.aseq 1 0 c.src image = .later takes →
      exec (.fwFlash c image) s = .next takes) ∧
    (CmdRuns c 0x1003 s a → s0.img.checks ≠ [] → exec (.fwActivate c) s = .next s) ∧
    (CmdRuns c 0x1003 s a → s0.img.checks = [] → s0.img.flashing = none →
      (s0.img.checked = none → exec (.fwActivate c) s = done s0 (err 5)) ∧
      (∀ i slot, s0.img.checked = some (i, slot) →
        exec (.fwActivate c) s = .next (s0.withImg { s0.img with restart := some (a.aseq, i, slot) }))) ∧
    (∀ aseq i slot, s.img.restart = some (aseq, i, slot) →
      (slot < 2 →
        let u := s.withImg { s.img with restart := none, running := i, pushed := false, runSlot := slot }
        exec .footingRestartReady s = .next (finish (showKeyStatus (imageActivated u slot i)) aseq {})) ∧
      (let u := s.withImg { s.img with restart := none }
       exec .footingFallback s = .next (finish (postEvent u 0x10 3 (origin u 19 5 0 0)
        (le 4 u.img.running.version ++ le 4 i.version)) aseq (err 5)))) ∧
    (∀ (nonce : Bytes) (addr : BitVec 64), CmdRuns c 0x1004 s a → s0.img.quote = none →
      let q : Quote := { aseq := a.aseq, body := quoteBody s0 nonce, addr := addr.toNat, draw := s0.free }
      exec (.attestQuote c nonce addr) s = .next ((draw s0).2.withImg { s0.img with quote := some q })) ∧
    (∀ q, s.img.quote = some q → s.img.restart = none →
      let sig := (List.range 96).map (Config.ecdsaSignByte (sha384 q.body) q.draw)
      exec .quoteSigned s =
        .next (finish (s.withImg { s.img with quote := none }) q.aseq { block := q.body ++ sig, addr := some q.addr })) ∧
    (∀ (first : BitVec 32) (n : BitVec 8) (addr : BitVec 64), CmdRuns c 0x1005 s a → c.src ≠ .relay → 0 < n.toNat → n.toNat ≤ 50 →
      let es := s0.img.log.filter (fun e => decide (wrapSub 32 (leAt e 0 4) first.toNat < n.toNat))
      let b := if first.toNat = oldestIndex s0 ∧ s0.img.log ≠ [] then cut s0.img.base 0 48 else []
      exec (.logRead c first n addr) s = done s0 { block := es.flatten ++ b, addr := some addr.toNat }) ∧
    (∀ addr : BitVec 64, CmdRuns c 0x1006 s a → c.src ≠ .relay →
      exec (.idRead c addr) s =
        done s0 { block := le 8 Config.serialNumber.toNat ++ identityKey ++ s0.img.cert, addr := some addr.toNat }) ∧
    (∀ addr : BitVec 64, CmdRuns c 0x1007 s a → c.src ≠ .relay → ∃ b : Bytes,
      cut b 0 56 = infoBytes (some s0.img.running) ∧
      exec (.imgStatus c addr) s = done s0 { block := b, addr := some addr.toNat }) ∧
    (∀ aseq slot, s.img.flashing = some (aseq, slot) → ∀ ok : Bool,
      let u := s.withImg { s.img with flashing := none }
      exec (.flashWriteComplete ok) s =
        .next (finish (setSlot u slot { slotAt s slot with bad := !ok }) aseq (if ok then { result := slot } else err 4)))

/-- R203, R248, R254, R285 to R288, R618: the commands on the flow store that keep or start work. R152, R203, R286, R289: the
commands that read the flow store and its accounts. -/
def Obligations.FlowCommands : Prop :=
  (∀ (c : Cmd) (s : State) (a : Accepted) (key : Bytes),
      let s0 := begun c s a
      let done (u : State) (r : Reply) : Host.Outcome State Fault Refusal := .next (completeCmd u (asRun c a) r)
      (CmdRuns c 0x0501 s a → s0.fs.formatting = none →
        (tierBOk s0 = true → exec (.fsFormat c) s = .next (formatStore s0 a.aseq)) ∧
        (tierBOk s0 = false → exec (.fsFormat c) s = done s0 (err 5))) ∧
      (∀ x, s.fs.formatting = some x →
        let u := s.withStk { s.stk with needFormat := false }
        exec .fsFormatComplete s =
          .next (finish (u.withFs { u.fs with formatting := none, formatted := true, round := 0 }) x {})) ∧
      (∀ n, promotingKey s0 key = none → demotingKey s0 key = none → placeOfKey s0 key = some (.hot n) →
        (CmdRuns c 0x0505 s a → bit (recFlags (recAt s0 n)) 1 = true → exec (.flowDemote c key) s = done s0 (err 5)) ∧
        (CmdRuns c 0x0505 s a → bit (recFlags (recAt s0 n)) 1 = false → tierAOnly s0 (recTenant (recAt s0 n)) = false →
          s0.fs.tbSize ≠ 0 → slotPend s0 n = false → takingCold s0 n = false →
          exec (.flowDemote c key) s = .next (startDemotion s0 n (.command a.aseq)))) ∧
      (CmdRuns c 0x0505 s a → promotingKey s0 key ≠ none ∨ demotingKey s0 key ≠ none →
        exec (.flowDemote c key) s = done s0 { status := stBusy }) ∧
      (∀ record : Bytes, CmdRuns c 0x0601 s a →
        exec (.flowInsert c record) s = .next (startInsert s0 (cut record 0 128) [] (.command a.aseq))) ∧
      (CmdRuns c 0x0602 s a →
        (delTarget s0 key = .missing → exec (.flowDelete c key) s = done s0 { status := stNotFound }) ∧
        (delTarget s0 key = .busy → exec (.flowDelete c key) s = done s0 { status := stBusy }) ∧
        (delTarget s0 key = .promoted → exec (.flowDelete c key) s = .next s) ∧
        (∀ n, delTarget s0 key = .hot n → exec (.flowDelete c key) s = .next (deleteSlot s0 n 2 (.command a.aseq))) ∧
        (∀ k, delTarget s0 key = .cold k → exec (.flowDelete c key) s = .next (deleteCold s0 k 2 (.command a.aseq)))) ∧
      (∀ ten : BitVec 16, CmdRuns c 0x0603 s a →
        let p : Purge := { tenant := ten.toNat, aseq := a.aseq, count := 0, left := purgeKeys s0 ten.toNat }
        (purgeKeys s0 ten.toNat = [] → exec (.tenantPurge c ten) s = done s0 {}) ∧
        (purgeKeys s0 ten.toNat ≠ [] →
          exec (.tenantPurge c ten) s = .next (s0.withFs { s0.fs with purges := s0.fs.purges ++ [p] }))) ∧
      (∀ (table : BitVec 16) (idx : BitVec 32) (data : Bytes) (t : TableInfo), CmdRuns c 0x0604 s a →
        s0.tbl.waits.any (fun w => w.inst == 0x30) = false → 0x30 ≤ table.toNat → table.toNat ≤ 0x33 →
        tableInfo table.toNat = some t → idx.toNat < t.count →
        policyOffset table.toNat + (idx.toNat + 1) * t.size ≤ (policyRegion s0).2 →
        let bytes := cut data 0 t.size
        let u := retireNow s0 0 table.toNat idx.toNat
        let w : TableWait := { aseq := a.aseq, inst := 0x30, fence := s0.tbl.epoch, batch := false
                               ops := [{ write := true, id := table.toNat, idx := idx.toNat, bytes := bytes }] }
        (isValid (entAt s0 table.toNat 0 idx.toNat) = false →
          exec (.policyWrite c table idx data) s = done (writeValidate s0 0 table.toNat idx.toNat bytes) {}) ∧
        (isValid (entAt s0 table.toNat 0 idx.toNat) = true →
          exec (.policyWrite c table idx data) s = .next (u.withTbl { u.tbl with waits := u.tbl.waits ++ [w] }))) ∧
      (∀ n, hotOf s0 key = some n → CmdRuns c 0x1105 s a →
        (foldOpen s0 n = true → exec (.flowExport c key) s = .next s) ∧
        (foldOpen s0 n = false → exec (.flowExport c key) s =
          done (if exports s0 (recAt s0 n) then exportSlot s0 n else s0) {})) ∧
      (∀ k, hotOf s0 key = none → coldOf s0 key = some k → CmdRuns c 0x1105 s a →
        exec (.flowExport c key) s = done (if exports s0 (coldRec (coldAt s0 k)) then exportCold s0 k else s0) {}) ∧
      (hotOf s0 key = none → coldOf s0 key = none → CmdRuns c 0x1105 s a →
        exec (.flowExport c key) s = done s0 { status := stNotFound })) ∧
  (∀ (c : Cmd) (s : State) (a : Accepted) (key : Bytes) (ten : BitVec 16) (addr : BitVec 64),
      let s0 := begun c s a
      let t := ten.toNat
      let done (u : State) (r : Reply) : Host.Outcome State Fault Refusal := .next (completeCmd u (asRun c a) r)
      (∀ n, CmdRuns c 0x0502 s a → c.src ≠ .relay → hotOf s0 key = some n → foldOpen s0 n = false →
        exec (.flowRead c key addr) s =
          done (touchRecord s0 1 (some (.hot n))) { block := flowBlock (recAt s0 n) (extAt s0 n) 0 n, addr := some addr.toNat }) ∧
      (∀ k, CmdRuns c 0x0502 s a → c.src ≠ .relay → hotOf s0 key = none → coldOf s0 key = some k →
        exec (.flowRead c key addr) s =
          done s0 { block := flowBlock (coldRec (coldAt s0 k)) (coldExt (coldAt s0 k)) 1 k, addr := some addr.toNat }) ∧
      (CmdRuns c 0x0502 s a → hotOf s0 key = none → coldOf s0 key = none →
        exec (.flowRead c key addr) s = done s0 { status := stNotFound }) ∧
      (CmdRuns c 0x0204 s a →
        let r := sampleCounters s0 5 t (List.range 5)
        let block := le 8 (bucketLevel r.1 0 t / 1000) ++ le 1 (flag (refusing r.1 t)) ++ le 8 (r.2.headD 0) ++
          le 8 (r.2.tail.foldl (· + ·) 0)
        exec (.dlBudgetStatus c ten) s = done r.1 { block := block }) ∧
      (∀ pier : BitVec 8, CmdRuns c 0x0503 s a → pier.toNat < 4 → ∃ b : Bytes,
        cut b 0 8 = le 8 (pierUsed s0 pier.toNat) ∧ exec (.fsStatus c pier) s = done (draw s0).2 { block := b }) ∧
      (CmdRuns c 0x0504 s a →
        let block := le 8 (bucketLevel s0 1 t / 1000) ++ le 8 (tierBCount s0 t) ++ le 8 (counter s0 5 t 14) ++ le 8 (tenCount s0 t)
        exec (.fsTenantStatus c ten) s = done s0 { block := block }) ∧
      (CmdRuns c 0x0605 s a →
        let block := le 8 (getAt 0 s0.ten.packets t) ++ le 8 (getAt 0 s0.ten.octets t) ++ le 8 (tenCount s0 t) ++
          le 8 (bucketLevel s0 2 t / 1000) ++ (upFrom 1 4).flatMap (fun k => le 8 (counter s0 5 t k))
        exec (.tenantAccount c ten) s = done s0 { block := block }))

/-- R620 to R648: the resets and the boot of the device, and the commands of the boot group. -/
def Obligations.Boot : Prop :=
  ∀ (s : State),
    (∀ code : Fin 4,
      (s.boot.phase = .ready ∨ s.boot.phase = .training →
        exec (.deviceFatal code) s = .next (resetDevice s 3 (code.val + 1))) ∧
      (s.boot.phase = .reset → exec (.deviceFatal code) s =
        .next (s.withBoot { s.boot with stickyCause := 3, stickyCode := code.val + 1 }))) ∧
    (∀ image cert : Bytes, exec (.imageCheckDone image cert) s =
      .next (if s.boot.phase = .pushing then endPush s image cert else endFirstCheck s)) ∧
    exec (.footingReset true) s = .next (resetDevice s 0 0) ∧
    exec (.footingReset false) s = .next (resetDevice s (pinCause s).1 (pinCause s).2) ∧
    exec .footclkLoss s = .next (resetDevice s (pinCause s).1 (pinCause s).2) ∧
    (∀ (straps : Straps) (slotA slotB cert : Bytes) (hot : Bool),
      (s.boot.phase ≠ .reset → exec (.footingResetRelease straps slotA slotB cert hot) s = .next s) ∧
      (s.boot.phase = .reset →
        let u := setRegField (setRegField s .bootStatus 0 4 4 s.boot.stickyCause) .bootStatus 0 8 8 s.boot.stickyCode
        let b := { latchStraps u.boot straps with hot := hot, stickyCause := 0, stickyCode := 0 }
        let w := stepEnds (applyStraps (u.withBoot b)) 1
        exec (.footingResetRelease straps slotA slotB cert hot) s =
          .next (if b.bootSrc = 1 ∨ b.bootSrc = 2 then setPhase w .pushWait else bootFlash w slotA slotB cert))) ∧
    (s.boot.phase = .hotHold → exec .thermalBootHoldEnd s = .next (beginRails (s.withBoot { s.boot with hot := false }))) ∧
    (∀ rail : Fin 7, s.boot.phase = .rails → railRaised s rail.val = true → s.boot.railsOk.contains rail.val = false →
      exec (.railTimeout rail) s = .next (setPhase (lowerRails s) .failed) ∧
      (let ok := s.boot.railsOk ++ [rail.val]
       let u := s.withBoot { s.boot with railsOk := ok }
       ((stepRails s.boot.railStep).all (fun r => ok.contains r) = false → exec (.railInRange rail) s = .next u) ∧
       ((stepRails s.boot.railStep).all (fun r => ok.contains r) = true → s.boot.nextRails = none →
        exec (.railInRange rail) s = .next (if s.boot.railStep = 4 then beginStepFour (stepEnds u 3)
          else u.withBoot { u.boot with nextRails := some (s.clk.cc + 150000) })))) ∧
    (∀ (m : Master) (len : BitVec 14), s.boot.phase ≠ .ready → masterPresent s m.val = true →
      exec (.bootPushGo m len) s =
        .next (writePushCtrl (dropOther s m.val (Reg.off .bootPushCtrl 0)) m.val (65536 * len.toNat + 1))) ∧
    (∀ (unit : TestUnit) (pass : Bool), s.boot.phase = .training → s.boot.tested.contains (testCode unit) = false →
      s.boot.heldOut.contains (testCode unit) = false →
      exec (.bootSelfTestDone unit pass) s = .next (stepEnds (s.withBoot { s.boot with
        tested := s.boot.tested ++ [testCode unit]
        failed := if pass then s.boot.failed else s.boot.failed ++ [testCode unit] }) 4)) ∧
    (∀ dir : List (BitVec 8 × Bytes), s.boot.phase = .training → s.boot.trained = true →
      let u := bootSubstitute s
      exec (.bootReady dir) s =
        .next (trainPorts (setPhase (stepEnds (if u.img.pushed then u else [4, 2, 3].foldl (bootKind dir) u) 5) .ready))) ∧
    (∀ (density : Fin 5) (two : Bool), s.boot.phase = .training → s.boot.trained = false →
      let u := setRegField (setRegField s .ddrCfg 0 0 3 density.val) .ddrCfg 0 3 1 (if two then 1 else 0)
      let w := (List.range 32).foldl
        (fun s c => setDdrCh s c { ddrCh s c with st := .inService, trainedAt := timeNs s }) u
      exec (.bootTrainingDone density two []) s = .next (stepEnds (w.withBoot { w.boot with trained := true }) 4)) ∧
    (∀ t, s.boot.coreReset = some t →
      let u := coreKept (cutFrames s)
      exec .coreResetBegin s =
        .next (beginStepFour (applyStraps (setRegField (setRegField u .bootStatus 0 4 4 4) .bootStatus 0 8 8 0)))) ∧
    (∀ (c : Cmd) (a : Accepted),
      let s0 := begun c s a
      let done (u : State) (r : Reply) : Host.Outcome State Fault Refusal := .next (completeCmd u (asRun c a) r)
      (∀ addr : BitVec 64, CmdRuns c 0x1201 s a → c.src ≠ .relay → ∃ b : Bytes,
        cut b 8 4 = le 4 (regVal s0 .bootStatus 0) ∧
        exec (.bootInfo c addr) s = done s0 { block := b, addr := some addr.toNat }) ∧
      (∀ (mask : BitVec 16) (form : BitVec 8), CmdRuns c 0x1202 s a → form.toNat ≤ 1 →
        let ns := (List.range 16).filter (fun n => bit mask.toNat n)
        ns.all (bankReady s0) = true →
        (form = 0 ∨ fullReady s0 = true → exec (.trafficOpen c mask form) s =
          done (ns.foldl (fun s n => setSlice s n { sliceAt s n with opened := form.toNat + 1 }) s0) {}) ∧
        (form = 1 → fullReady s0 = false → exec (.trafficOpen c mask form) s = done s0 (err 5))) ∧
      (CmdRuns c 0x1203 s a → s0.stk.alive = true → exec (.coreReset c) s = done s0 (err 5)) ∧
      (CmdRuns c 0x1203 s a → s0.stk.alive = false →
        exec (.coreReset c) s = done (s0.withBoot { s0.boot with coreReset := some (s0.clk.cc + 15000) }) {}))
end

