-- ==== Sys2Proof/Laws/Commands.lean ====
section
/-! SUPPORT. What a command row, and a thread that issues an instruction, come to: one lemma for each way that they end. -/

namespace Sys2Proof.Machine

/-- A command row that runs and completes at once. -/
theorem runCommand_done {c : Cmd} {op : Nat} {body : Nat → State → Effect} {s : State} {a : Accepted} {r : Reply} {t : State}
    (h : CmdRuns c op s a) (e : body a.aseq (begun c s a) = .done r t) (k : relayedOut (asRun c a) r = false) :
    runCommand c op body s = .next (completeCmd t (asRun c a) r) := by
  obtain ⟨h1, h2, h3, h4, h5⟩ := h
  unfold begun at e
  unfold asRun at k ⊢
  have h6 : ¬(a.src = .relay ∧ namesHost a.opcode = true) := fun h => by simp [h5 h.1] at h
  simp only [runCommand, h1, h2, startCmd, h3, h4, e]
  simp [h6, k]

/-- A command row that runs and goes on. -/
theorem runCommand_later {c : Cmd} {op : Nat} {body : Nat → State → Effect} {s : State} {a : Accepted} {t : State}
    (h : CmdRuns c op s a) (e : body a.aseq (begun c s a) = .later t) :
    runCommand c op body s = .next t := by
  obtain ⟨h1, h2, h3, h4, h5⟩ := h
  unfold begun at e
  have h6 : ¬(a.src = .relay ∧ namesHost a.opcode = true) := fun h => by simp [h5 h.1] at h
  simp only [runCommand, h1, h2, startCmd, h3, h4, e]
  simp [h6]

/-- A command row that runs and finds that it must wait its turn. -/
theorem runCommand_wait {c : Cmd} {op : Nat} {body : Nat → State → Effect} {s : State} {a : Accepted}
    (h : CmdRuns c op s a) (e : body a.aseq (begun c s a) = .wait) :
    runCommand c op body s = .next s := by
  obtain ⟨h1, h2, h3, h4, h5⟩ := h
  unfold begun at e
  have h6 : ¬(a.src = .relay ∧ namesHost a.opcode = true) := fun h => by simp [h5 h.1] at h
  simp only [runCommand, h1, h2, startCmd, h3, h4, e]
  simp [h6]

/-- A thread that stands before an instruction of an opcode issues it. -/
theorem issueOp_stands {s : State} {n : Fin 128} {t : Fin 8} {op : Nat} {eff : State → Thread → Ins → State}
    (h : Stands s n.val t.val op) :
    issueOp s n t op eff = .next (afterStep (eff (issued s n.val t.val) (threadAt s n.val t.val) (before s n.val t.val))
      n.val t.val (threadAt s n.val t.val).stepping) := by
  obtain ⟨h1, h2, h3⟩ := h
  unfold before issued
  simp [issueOp, issue, h1, Nat.not_le.mpr h2, h3]

end Sys2Proof.Machine
end

