-- ==== Sys2Proof/Laws/State.lean ====
section
/-! SUPPORT. What each update of one field of the state leaves every field at. -/

namespace Sys2Proof.Machine

@[simp] theorem State.withPending_pending (s : State) (v : List Instr) : (s.withPending v).pending = v := rfl
@[simp] theorem State.withPending_out (s : State) (v : List Instr) : (s.withPending v).out = s.out := rfl
@[simp] theorem State.withPending_free (s : State) (v : List Instr) : (s.withPending v).free = s.free := rfl
@[simp] theorem State.withPending_clk (s : State) (v : List Instr) : (s.withPending v).clk = s.clk := rfl
@[simp] theorem State.withPending_regs (s : State) (v : List Instr) : (s.withPending v).regs = s.regs := rfl
@[simp] theorem State.withPending_time (s : State) (v : List Instr) : (s.withPending v).time = s.time := rfl
@[simp] theorem State.withPending_own (s : State) (v : List Instr) : (s.withPending v).own = s.own := rfl
@[simp] theorem State.withPending_host (s : State) (v : List Instr) : (s.withPending v).host = s.host := rfl
@[simp] theorem State.withPending_ctr (s : State) (v : List Instr) : (s.withPending v).ctr = s.ctr := rfl
@[simp] theorem State.withPending_pmc (s : State) (v : List Instr) : (s.withPending v).pmc = s.pmc := rfl
@[simp] theorem State.withPending_ports (s : State) (v : List Instr) : (s.withPending v).ports = s.ports := rfl
@[simp] theorem State.withPending_slices (s : State) (v : List Instr) : (s.withPending v).slices = s.slices := rfl
@[simp] theorem State.withPending_seq (s : State) (v : List Instr) : (s.withPending v).seq = s.seq := rfl
@[simp] theorem State.withPending_ten (s : State) (v : List Instr) : (s.withPending v).ten = s.ten := rfl
@[simp] theorem State.withPending_fs (s : State) (v : List Instr) : (s.withPending v).fs = s.fs := rfl
@[simp] theorem State.withPending_tbl (s : State) (v : List Instr) : (s.withPending v).tbl = s.tbl := rfl
@[simp] theorem State.withPending_eng (s : State) (v : List Instr) : (s.withPending v).eng = s.eng := rfl
@[simp] theorem State.withPending_buf (s : State) (v : List Instr) : (s.withPending v).buf = s.buf := rfl
@[simp] theorem State.withPending_dma (s : State) (v : List Instr) : (s.withPending v).dma = s.dma := rfl
@[simp] theorem State.withPending_ddr (s : State) (v : List Instr) : (s.withPending v).ddr = s.ddr := rfl
@[simp] theorem State.withPending_pwr (s : State) (v : List Instr) : (s.withPending v).pwr = s.pwr := rfl
@[simp] theorem State.withPending_stk (s : State) (v : List Instr) : (s.withPending v).stk = s.stk := rfl
@[simp] theorem State.withPending_ft (s : State) (v : List Instr) : (s.withPending v).ft = s.ft := rfl
@[simp] theorem State.withPending_img (s : State) (v : List Instr) : (s.withPending v).img = s.img := rfl
@[simp] theorem State.withPending_boot (s : State) (v : List Instr) : (s.withPending v).boot = s.boot := rfl

@[simp] theorem State.withOut_pending (s : State) (v : List Out) : (s.withOut v).pending = s.pending := rfl
@[simp] theorem State.withOut_out (s : State) (v : List Out) : (s.withOut v).out = v := rfl
@[simp] theorem State.withOut_free (s : State) (v : List Out) : (s.withOut v).free = s.free := rfl
@[simp] theorem State.withOut_clk (s : State) (v : List Out) : (s.withOut v).clk = s.clk := rfl
@[simp] theorem State.withOut_regs (s : State) (v : List Out) : (s.withOut v).regs = s.regs := rfl
@[simp] theorem State.withOut_time (s : State) (v : List Out) : (s.withOut v).time = s.time := rfl
@[simp] theorem State.withOut_own (s : State) (v : List Out) : (s.withOut v).own = s.own := rfl
@[simp] theorem State.withOut_host (s : State) (v : List Out) : (s.withOut v).host = s.host := rfl
@[simp] theorem State.withOut_ctr (s : State) (v : List Out) : (s.withOut v).ctr = s.ctr := rfl
@[simp] theorem State.withOut_pmc (s : State) (v : List Out) : (s.withOut v).pmc = s.pmc := rfl
@[simp] theorem State.withOut_ports (s : State) (v : List Out) : (s.withOut v).ports = s.ports := rfl
@[simp] theorem State.withOut_slices (s : State) (v : List Out) : (s.withOut v).slices = s.slices := rfl
@[simp] theorem State.withOut_seq (s : State) (v : List Out) : (s.withOut v).seq = s.seq := rfl
@[simp] theorem State.withOut_ten (s : State) (v : List Out) : (s.withOut v).ten = s.ten := rfl
@[simp] theorem State.withOut_fs (s : State) (v : List Out) : (s.withOut v).fs = s.fs := rfl
@[simp] theorem State.withOut_tbl (s : State) (v : List Out) : (s.withOut v).tbl = s.tbl := rfl
@[simp] theorem State.withOut_eng (s : State) (v : List Out) : (s.withOut v).eng = s.eng := rfl
@[simp] theorem State.withOut_buf (s : State) (v : List Out) : (s.withOut v).buf = s.buf := rfl
@[simp] theorem State.withOut_dma (s : State) (v : List Out) : (s.withOut v).dma = s.dma := rfl
@[simp] theorem State.withOut_ddr (s : State) (v : List Out) : (s.withOut v).ddr = s.ddr := rfl
@[simp] theorem State.withOut_pwr (s : State) (v : List Out) : (s.withOut v).pwr = s.pwr := rfl
@[simp] theorem State.withOut_stk (s : State) (v : List Out) : (s.withOut v).stk = s.stk := rfl
@[simp] theorem State.withOut_ft (s : State) (v : List Out) : (s.withOut v).ft = s.ft := rfl
@[simp] theorem State.withOut_img (s : State) (v : List Out) : (s.withOut v).img = s.img := rfl
@[simp] theorem State.withOut_boot (s : State) (v : List Out) : (s.withOut v).boot = s.boot := rfl

@[simp] theorem State.withFree_pending (s : State) (v : Nat) : (s.withFree v).pending = s.pending := rfl
@[simp] theorem State.withFree_out (s : State) (v : Nat) : (s.withFree v).out = s.out := rfl
@[simp] theorem State.withFree_free (s : State) (v : Nat) : (s.withFree v).free = v := rfl
@[simp] theorem State.withFree_clk (s : State) (v : Nat) : (s.withFree v).clk = s.clk := rfl
@[simp] theorem State.withFree_regs (s : State) (v : Nat) : (s.withFree v).regs = s.regs := rfl
@[simp] theorem State.withFree_time (s : State) (v : Nat) : (s.withFree v).time = s.time := rfl
@[simp] theorem State.withFree_own (s : State) (v : Nat) : (s.withFree v).own = s.own := rfl
@[simp] theorem State.withFree_host (s : State) (v : Nat) : (s.withFree v).host = s.host := rfl
@[simp] theorem State.withFree_ctr (s : State) (v : Nat) : (s.withFree v).ctr = s.ctr := rfl
@[simp] theorem State.withFree_pmc (s : State) (v : Nat) : (s.withFree v).pmc = s.pmc := rfl
@[simp] theorem State.withFree_ports (s : State) (v : Nat) : (s.withFree v).ports = s.ports := rfl
@[simp] theorem State.withFree_slices (s : State) (v : Nat) : (s.withFree v).slices = s.slices := rfl
@[simp] theorem State.withFree_seq (s : State) (v : Nat) : (s.withFree v).seq = s.seq := rfl
@[simp] theorem State.withFree_ten (s : State) (v : Nat) : (s.withFree v).ten = s.ten := rfl
@[simp] theorem State.withFree_fs (s : State) (v : Nat) : (s.withFree v).fs = s.fs := rfl
@[simp] theorem State.withFree_tbl (s : State) (v : Nat) : (s.withFree v).tbl = s.tbl := rfl
@[simp] theorem State.withFree_eng (s : State) (v : Nat) : (s.withFree v).eng = s.eng := rfl
@[simp] theorem State.withFree_buf (s : State) (v : Nat) : (s.withFree v).buf = s.buf := rfl
@[simp] theorem State.withFree_dma (s : State) (v : Nat) : (s.withFree v).dma = s.dma := rfl
@[simp] theorem State.withFree_ddr (s : State) (v : Nat) : (s.withFree v).ddr = s.ddr := rfl
@[simp] theorem State.withFree_pwr (s : State) (v : Nat) : (s.withFree v).pwr = s.pwr := rfl
@[simp] theorem State.withFree_stk (s : State) (v : Nat) : (s.withFree v).stk = s.stk := rfl
@[simp] theorem State.withFree_ft (s : State) (v : Nat) : (s.withFree v).ft = s.ft := rfl
@[simp] theorem State.withFree_img (s : State) (v : Nat) : (s.withFree v).img = s.img := rfl
@[simp] theorem State.withFree_boot (s : State) (v : Nat) : (s.withFree v).boot = s.boot := rfl

@[simp] theorem State.withClk_pending (s : State) (v : Clk) : (s.withClk v).pending = s.pending := rfl
@[simp] theorem State.withClk_out (s : State) (v : Clk) : (s.withClk v).out = s.out := rfl
@[simp] theorem State.withClk_free (s : State) (v : Clk) : (s.withClk v).free = s.free := rfl
@[simp] theorem State.withClk_clk (s : State) (v : Clk) : (s.withClk v).clk = v := rfl
@[simp] theorem State.withClk_regs (s : State) (v : Clk) : (s.withClk v).regs = s.regs := rfl
@[simp] theorem State.withClk_time (s : State) (v : Clk) : (s.withClk v).time = s.time := rfl
@[simp] theorem State.withClk_own (s : State) (v : Clk) : (s.withClk v).own = s.own := rfl
@[simp] theorem State.withClk_host (s : State) (v : Clk) : (s.withClk v).host = s.host := rfl
@[simp] theorem State.withClk_ctr (s : State) (v : Clk) : (s.withClk v).ctr = s.ctr := rfl
@[simp] theorem State.withClk_pmc (s : State) (v : Clk) : (s.withClk v).pmc = s.pmc := rfl
@[simp] theorem State.withClk_ports (s : State) (v : Clk) : (s.withClk v).ports = s.ports := rfl
@[simp] theorem State.withClk_slices (s : State) (v : Clk) : (s.withClk v).slices = s.slices := rfl
@[simp] theorem State.withClk_seq (s : State) (v : Clk) : (s.withClk v).seq = s.seq := rfl
@[simp] theorem State.withClk_ten (s : State) (v : Clk) : (s.withClk v).ten = s.ten := rfl
@[simp] theorem State.withClk_fs (s : State) (v : Clk) : (s.withClk v).fs = s.fs := rfl
@[simp] theorem State.withClk_tbl (s : State) (v : Clk) : (s.withClk v).tbl = s.tbl := rfl
@[simp] theorem State.withClk_eng (s : State) (v : Clk) : (s.withClk v).eng = s.eng := rfl
@[simp] theorem State.withClk_buf (s : State) (v : Clk) : (s.withClk v).buf = s.buf := rfl
@[simp] theorem State.withClk_dma (s : State) (v : Clk) : (s.withClk v).dma = s.dma := rfl
@[simp] theorem State.withClk_ddr (s : State) (v : Clk) : (s.withClk v).ddr = s.ddr := rfl
@[simp] theorem State.withClk_pwr (s : State) (v : Clk) : (s.withClk v).pwr = s.pwr := rfl
@[simp] theorem State.withClk_stk (s : State) (v : Clk) : (s.withClk v).stk = s.stk := rfl
@[simp] theorem State.withClk_ft (s : State) (v : Clk) : (s.withClk v).ft = s.ft := rfl
@[simp] theorem State.withClk_img (s : State) (v : Clk) : (s.withClk v).img = s.img := rfl
@[simp] theorem State.withClk_boot (s : State) (v : Clk) : (s.withClk v).boot = s.boot := rfl

@[simp] theorem State.withRegs_pending (s : State) (v : Regs) : (s.withRegs v).pending = s.pending := rfl
@[simp] theorem State.withRegs_out (s : State) (v : Regs) : (s.withRegs v).out = s.out := rfl
@[simp] theorem State.withRegs_free (s : State) (v : Regs) : (s.withRegs v).free = s.free := rfl
@[simp] theorem State.withRegs_clk (s : State) (v : Regs) : (s.withRegs v).clk = s.clk := rfl
@[simp] theorem State.withRegs_regs (s : State) (v : Regs) : (s.withRegs v).regs = v := rfl
@[simp] theorem State.withRegs_time (s : State) (v : Regs) : (s.withRegs v).time = s.time := rfl
@[simp] theorem State.withRegs_own (s : State) (v : Regs) : (s.withRegs v).own = s.own := rfl
@[simp] theorem State.withRegs_host (s : State) (v : Regs) : (s.withRegs v).host = s.host := rfl
@[simp] theorem State.withRegs_ctr (s : State) (v : Regs) : (s.withRegs v).ctr = s.ctr := rfl
@[simp] theorem State.withRegs_pmc (s : State) (v : Regs) : (s.withRegs v).pmc = s.pmc := rfl
@[simp] theorem State.withRegs_ports (s : State) (v : Regs) : (s.withRegs v).ports = s.ports := rfl
@[simp] theorem State.withRegs_slices (s : State) (v : Regs) : (s.withRegs v).slices = s.slices := rfl
@[simp] theorem State.withRegs_seq (s : State) (v : Regs) : (s.withRegs v).seq = s.seq := rfl
@[simp] theorem State.withRegs_ten (s : State) (v : Regs) : (s.withRegs v).ten = s.ten := rfl
@[simp] theorem State.withRegs_fs (s : State) (v : Regs) : (s.withRegs v).fs = s.fs := rfl
@[simp] theorem State.withRegs_tbl (s : State) (v : Regs) : (s.withRegs v).tbl = s.tbl := rfl
@[simp] theorem State.withRegs_eng (s : State) (v : Regs) : (s.withRegs v).eng = s.eng := rfl
@[simp] theorem State.withRegs_buf (s : State) (v : Regs) : (s.withRegs v).buf = s.buf := rfl
@[simp] theorem State.withRegs_dma (s : State) (v : Regs) : (s.withRegs v).dma = s.dma := rfl
@[simp] theorem State.withRegs_ddr (s : State) (v : Regs) : (s.withRegs v).ddr = s.ddr := rfl
@[simp] theorem State.withRegs_pwr (s : State) (v : Regs) : (s.withRegs v).pwr = s.pwr := rfl
@[simp] theorem State.withRegs_stk (s : State) (v : Regs) : (s.withRegs v).stk = s.stk := rfl
@[simp] theorem State.withRegs_ft (s : State) (v : Regs) : (s.withRegs v).ft = s.ft := rfl
@[simp] theorem State.withRegs_img (s : State) (v : Regs) : (s.withRegs v).img = s.img := rfl
@[simp] theorem State.withRegs_boot (s : State) (v : Regs) : (s.withRegs v).boot = s.boot := rfl

@[simp] theorem State.withTime_pending (s : State) (v : TimeSt) : (s.withTime v).pending = s.pending := rfl
@[simp] theorem State.withTime_out (s : State) (v : TimeSt) : (s.withTime v).out = s.out := rfl
@[simp] theorem State.withTime_free (s : State) (v : TimeSt) : (s.withTime v).free = s.free := rfl
@[simp] theorem State.withTime_clk (s : State) (v : TimeSt) : (s.withTime v).clk = s.clk := rfl
@[simp] theorem State.withTime_regs (s : State) (v : TimeSt) : (s.withTime v).regs = s.regs := rfl
@[simp] theorem State.withTime_time (s : State) (v : TimeSt) : (s.withTime v).time = v := rfl
@[simp] theorem State.withTime_own (s : State) (v : TimeSt) : (s.withTime v).own = s.own := rfl
@[simp] theorem State.withTime_host (s : State) (v : TimeSt) : (s.withTime v).host = s.host := rfl
@[simp] theorem State.withTime_ctr (s : State) (v : TimeSt) : (s.withTime v).ctr = s.ctr := rfl
@[simp] theorem State.withTime_pmc (s : State) (v : TimeSt) : (s.withTime v).pmc = s.pmc := rfl
@[simp] theorem State.withTime_ports (s : State) (v : TimeSt) : (s.withTime v).ports = s.ports := rfl
@[simp] theorem State.withTime_slices (s : State) (v : TimeSt) : (s.withTime v).slices = s.slices := rfl
@[simp] theorem State.withTime_seq (s : State) (v : TimeSt) : (s.withTime v).seq = s.seq := rfl
@[simp] theorem State.withTime_ten (s : State) (v : TimeSt) : (s.withTime v).ten = s.ten := rfl
@[simp] theorem State.withTime_fs (s : State) (v : TimeSt) : (s.withTime v).fs = s.fs := rfl
@[simp] theorem State.withTime_tbl (s : State) (v : TimeSt) : (s.withTime v).tbl = s.tbl := rfl
@[simp] theorem State.withTime_eng (s : State) (v : TimeSt) : (s.withTime v).eng = s.eng := rfl
@[simp] theorem State.withTime_buf (s : State) (v : TimeSt) : (s.withTime v).buf = s.buf := rfl
@[simp] theorem State.withTime_dma (s : State) (v : TimeSt) : (s.withTime v).dma = s.dma := rfl
@[simp] theorem State.withTime_ddr (s : State) (v : TimeSt) : (s.withTime v).ddr = s.ddr := rfl
@[simp] theorem State.withTime_pwr (s : State) (v : TimeSt) : (s.withTime v).pwr = s.pwr := rfl
@[simp] theorem State.withTime_stk (s : State) (v : TimeSt) : (s.withTime v).stk = s.stk := rfl
@[simp] theorem State.withTime_ft (s : State) (v : TimeSt) : (s.withTime v).ft = s.ft := rfl
@[simp] theorem State.withTime_img (s : State) (v : TimeSt) : (s.withTime v).img = s.img := rfl
@[simp] theorem State.withTime_boot (s : State) (v : TimeSt) : (s.withTime v).boot = s.boot := rfl

@[simp] theorem State.withOwn_pending (s : State) (v : OwnSt) : (s.withOwn v).pending = s.pending := rfl
@[simp] theorem State.withOwn_out (s : State) (v : OwnSt) : (s.withOwn v).out = s.out := rfl
@[simp] theorem State.withOwn_free (s : State) (v : OwnSt) : (s.withOwn v).free = s.free := rfl
@[simp] theorem State.withOwn_clk (s : State) (v : OwnSt) : (s.withOwn v).clk = s.clk := rfl
@[simp] theorem State.withOwn_regs (s : State) (v : OwnSt) : (s.withOwn v).regs = s.regs := rfl
@[simp] theorem State.withOwn_time (s : State) (v : OwnSt) : (s.withOwn v).time = s.time := rfl
@[simp] theorem State.withOwn_own (s : State) (v : OwnSt) : (s.withOwn v).own = v := rfl
@[simp] theorem State.withOwn_host (s : State) (v : OwnSt) : (s.withOwn v).host = s.host := rfl
@[simp] theorem State.withOwn_ctr (s : State) (v : OwnSt) : (s.withOwn v).ctr = s.ctr := rfl
@[simp] theorem State.withOwn_pmc (s : State) (v : OwnSt) : (s.withOwn v).pmc = s.pmc := rfl
@[simp] theorem State.withOwn_ports (s : State) (v : OwnSt) : (s.withOwn v).ports = s.ports := rfl
@[simp] theorem State.withOwn_slices (s : State) (v : OwnSt) : (s.withOwn v).slices = s.slices := rfl
@[simp] theorem State.withOwn_seq (s : State) (v : OwnSt) : (s.withOwn v).seq = s.seq := rfl
@[simp] theorem State.withOwn_ten (s : State) (v : OwnSt) : (s.withOwn v).ten = s.ten := rfl
@[simp] theorem State.withOwn_fs (s : State) (v : OwnSt) : (s.withOwn v).fs = s.fs := rfl
@[simp] theorem State.withOwn_tbl (s : State) (v : OwnSt) : (s.withOwn v).tbl = s.tbl := rfl
@[simp] theorem State.withOwn_eng (s : State) (v : OwnSt) : (s.withOwn v).eng = s.eng := rfl
@[simp] theorem State.withOwn_buf (s : State) (v : OwnSt) : (s.withOwn v).buf = s.buf := rfl
@[simp] theorem State.withOwn_dma (s : State) (v : OwnSt) : (s.withOwn v).dma = s.dma := rfl
@[simp] theorem State.withOwn_ddr (s : State) (v : OwnSt) : (s.withOwn v).ddr = s.ddr := rfl
@[simp] theorem State.withOwn_pwr (s : State) (v : OwnSt) : (s.withOwn v).pwr = s.pwr := rfl
@[simp] theorem State.withOwn_stk (s : State) (v : OwnSt) : (s.withOwn v).stk = s.stk := rfl
@[simp] theorem State.withOwn_ft (s : State) (v : OwnSt) : (s.withOwn v).ft = s.ft := rfl
@[simp] theorem State.withOwn_img (s : State) (v : OwnSt) : (s.withOwn v).img = s.img := rfl
@[simp] theorem State.withOwn_boot (s : State) (v : OwnSt) : (s.withOwn v).boot = s.boot := rfl

@[simp] theorem State.withHost_pending (s : State) (v : HostSt) : (s.withHost v).pending = s.pending := rfl
@[simp] theorem State.withHost_out (s : State) (v : HostSt) : (s.withHost v).out = s.out := rfl
@[simp] theorem State.withHost_free (s : State) (v : HostSt) : (s.withHost v).free = s.free := rfl
@[simp] theorem State.withHost_clk (s : State) (v : HostSt) : (s.withHost v).clk = s.clk := rfl
@[simp] theorem State.withHost_regs (s : State) (v : HostSt) : (s.withHost v).regs = s.regs := rfl
@[simp] theorem State.withHost_time (s : State) (v : HostSt) : (s.withHost v).time = s.time := rfl
@[simp] theorem State.withHost_own (s : State) (v : HostSt) : (s.withHost v).own = s.own := rfl
@[simp] theorem State.withHost_host (s : State) (v : HostSt) : (s.withHost v).host = v := rfl
@[simp] theorem State.withHost_ctr (s : State) (v : HostSt) : (s.withHost v).ctr = s.ctr := rfl
@[simp] theorem State.withHost_pmc (s : State) (v : HostSt) : (s.withHost v).pmc = s.pmc := rfl
@[simp] theorem State.withHost_ports (s : State) (v : HostSt) : (s.withHost v).ports = s.ports := rfl
@[simp] theorem State.withHost_slices (s : State) (v : HostSt) : (s.withHost v).slices = s.slices := rfl
@[simp] theorem State.withHost_seq (s : State) (v : HostSt) : (s.withHost v).seq = s.seq := rfl
@[simp] theorem State.withHost_ten (s : State) (v : HostSt) : (s.withHost v).ten = s.ten := rfl
@[simp] theorem State.withHost_fs (s : State) (v : HostSt) : (s.withHost v).fs = s.fs := rfl
@[simp] theorem State.withHost_tbl (s : State) (v : HostSt) : (s.withHost v).tbl = s.tbl := rfl
@[simp] theorem State.withHost_eng (s : State) (v : HostSt) : (s.withHost v).eng = s.eng := rfl
@[simp] theorem State.withHost_buf (s : State) (v : HostSt) : (s.withHost v).buf = s.buf := rfl
@[simp] theorem State.withHost_dma (s : State) (v : HostSt) : (s.withHost v).dma = s.dma := rfl
@[simp] theorem State.withHost_ddr (s : State) (v : HostSt) : (s.withHost v).ddr = s.ddr := rfl
@[simp] theorem State.withHost_pwr (s : State) (v : HostSt) : (s.withHost v).pwr = s.pwr := rfl
@[simp] theorem State.withHost_stk (s : State) (v : HostSt) : (s.withHost v).stk = s.stk := rfl
@[simp] theorem State.withHost_ft (s : State) (v : HostSt) : (s.withHost v).ft = s.ft := rfl
@[simp] theorem State.withHost_img (s : State) (v : HostSt) : (s.withHost v).img = s.img := rfl
@[simp] theorem State.withHost_boot (s : State) (v : HostSt) : (s.withHost v).boot = s.boot := rfl

@[simp] theorem State.withCtr_pending (s : State) (v : CtrSt) : (s.withCtr v).pending = s.pending := rfl
@[simp] theorem State.withCtr_out (s : State) (v : CtrSt) : (s.withCtr v).out = s.out := rfl
@[simp] theorem State.withCtr_free (s : State) (v : CtrSt) : (s.withCtr v).free = s.free := rfl
@[simp] theorem State.withCtr_clk (s : State) (v : CtrSt) : (s.withCtr v).clk = s.clk := rfl
@[simp] theorem State.withCtr_regs (s : State) (v : CtrSt) : (s.withCtr v).regs = s.regs := rfl
@[simp] theorem State.withCtr_time (s : State) (v : CtrSt) : (s.withCtr v).time = s.time := rfl
@[simp] theorem State.withCtr_own (s : State) (v : CtrSt) : (s.withCtr v).own = s.own := rfl
@[simp] theorem State.withCtr_host (s : State) (v : CtrSt) : (s.withCtr v).host = s.host := rfl
@[simp] theorem State.withCtr_ctr (s : State) (v : CtrSt) : (s.withCtr v).ctr = v := rfl
@[simp] theorem State.withCtr_pmc (s : State) (v : CtrSt) : (s.withCtr v).pmc = s.pmc := rfl
@[simp] theorem State.withCtr_ports (s : State) (v : CtrSt) : (s.withCtr v).ports = s.ports := rfl
@[simp] theorem State.withCtr_slices (s : State) (v : CtrSt) : (s.withCtr v).slices = s.slices := rfl
@[simp] theorem State.withCtr_seq (s : State) (v : CtrSt) : (s.withCtr v).seq = s.seq := rfl
@[simp] theorem State.withCtr_ten (s : State) (v : CtrSt) : (s.withCtr v).ten = s.ten := rfl
@[simp] theorem State.withCtr_fs (s : State) (v : CtrSt) : (s.withCtr v).fs = s.fs := rfl
@[simp] theorem State.withCtr_tbl (s : State) (v : CtrSt) : (s.withCtr v).tbl = s.tbl := rfl
@[simp] theorem State.withCtr_eng (s : State) (v : CtrSt) : (s.withCtr v).eng = s.eng := rfl
@[simp] theorem State.withCtr_buf (s : State) (v : CtrSt) : (s.withCtr v).buf = s.buf := rfl
@[simp] theorem State.withCtr_dma (s : State) (v : CtrSt) : (s.withCtr v).dma = s.dma := rfl
@[simp] theorem State.withCtr_ddr (s : State) (v : CtrSt) : (s.withCtr v).ddr = s.ddr := rfl
@[simp] theorem State.withCtr_pwr (s : State) (v : CtrSt) : (s.withCtr v).pwr = s.pwr := rfl
@[simp] theorem State.withCtr_stk (s : State) (v : CtrSt) : (s.withCtr v).stk = s.stk := rfl
@[simp] theorem State.withCtr_ft (s : State) (v : CtrSt) : (s.withCtr v).ft = s.ft := rfl
@[simp] theorem State.withCtr_img (s : State) (v : CtrSt) : (s.withCtr v).img = s.img := rfl
@[simp] theorem State.withCtr_boot (s : State) (v : CtrSt) : (s.withCtr v).boot = s.boot := rfl

@[simp] theorem State.withPmc_pending (s : State) (v : Store Pmc) : (s.withPmc v).pending = s.pending := rfl
@[simp] theorem State.withPmc_out (s : State) (v : Store Pmc) : (s.withPmc v).out = s.out := rfl
@[simp] theorem State.withPmc_free (s : State) (v : Store Pmc) : (s.withPmc v).free = s.free := rfl
@[simp] theorem State.withPmc_clk (s : State) (v : Store Pmc) : (s.withPmc v).clk = s.clk := rfl
@[simp] theorem State.withPmc_regs (s : State) (v : Store Pmc) : (s.withPmc v).regs = s.regs := rfl
@[simp] theorem State.withPmc_time (s : State) (v : Store Pmc) : (s.withPmc v).time = s.time := rfl
@[simp] theorem State.withPmc_own (s : State) (v : Store Pmc) : (s.withPmc v).own = s.own := rfl
@[simp] theorem State.withPmc_host (s : State) (v : Store Pmc) : (s.withPmc v).host = s.host := rfl
@[simp] theorem State.withPmc_ctr (s : State) (v : Store Pmc) : (s.withPmc v).ctr = s.ctr := rfl
@[simp] theorem State.withPmc_pmc (s : State) (v : Store Pmc) : (s.withPmc v).pmc = v := rfl
@[simp] theorem State.withPmc_ports (s : State) (v : Store Pmc) : (s.withPmc v).ports = s.ports := rfl
@[simp] theorem State.withPmc_slices (s : State) (v : Store Pmc) : (s.withPmc v).slices = s.slices := rfl
@[simp] theorem State.withPmc_seq (s : State) (v : Store Pmc) : (s.withPmc v).seq = s.seq := rfl
@[simp] theorem State.withPmc_ten (s : State) (v : Store Pmc) : (s.withPmc v).ten = s.ten := rfl
@[simp] theorem State.withPmc_fs (s : State) (v : Store Pmc) : (s.withPmc v).fs = s.fs := rfl
@[simp] theorem State.withPmc_tbl (s : State) (v : Store Pmc) : (s.withPmc v).tbl = s.tbl := rfl
@[simp] theorem State.withPmc_eng (s : State) (v : Store Pmc) : (s.withPmc v).eng = s.eng := rfl
@[simp] theorem State.withPmc_buf (s : State) (v : Store Pmc) : (s.withPmc v).buf = s.buf := rfl
@[simp] theorem State.withPmc_dma (s : State) (v : Store Pmc) : (s.withPmc v).dma = s.dma := rfl
@[simp] theorem State.withPmc_ddr (s : State) (v : Store Pmc) : (s.withPmc v).ddr = s.ddr := rfl
@[simp] theorem State.withPmc_pwr (s : State) (v : Store Pmc) : (s.withPmc v).pwr = s.pwr := rfl
@[simp] theorem State.withPmc_stk (s : State) (v : Store Pmc) : (s.withPmc v).stk = s.stk := rfl
@[simp] theorem State.withPmc_ft (s : State) (v : Store Pmc) : (s.withPmc v).ft = s.ft := rfl
@[simp] theorem State.withPmc_img (s : State) (v : Store Pmc) : (s.withPmc v).img = s.img := rfl
@[simp] theorem State.withPmc_boot (s : State) (v : Store Pmc) : (s.withPmc v).boot = s.boot := rfl

@[simp] theorem State.withPorts_pending (s : State) (v : PortSt) : (s.withPorts v).pending = s.pending := rfl
@[simp] theorem State.withPorts_out (s : State) (v : PortSt) : (s.withPorts v).out = s.out := rfl
@[simp] theorem State.withPorts_free (s : State) (v : PortSt) : (s.withPorts v).free = s.free := rfl
@[simp] theorem State.withPorts_clk (s : State) (v : PortSt) : (s.withPorts v).clk = s.clk := rfl
@[simp] theorem State.withPorts_regs (s : State) (v : PortSt) : (s.withPorts v).regs = s.regs := rfl
@[simp] theorem State.withPorts_time (s : State) (v : PortSt) : (s.withPorts v).time = s.time := rfl
@[simp] theorem State.withPorts_own (s : State) (v : PortSt) : (s.withPorts v).own = s.own := rfl
@[simp] theorem State.withPorts_host (s : State) (v : PortSt) : (s.withPorts v).host = s.host := rfl
@[simp] theorem State.withPorts_ctr (s : State) (v : PortSt) : (s.withPorts v).ctr = s.ctr := rfl
@[simp] theorem State.withPorts_pmc (s : State) (v : PortSt) : (s.withPorts v).pmc = s.pmc := rfl
@[simp] theorem State.withPorts_ports (s : State) (v : PortSt) : (s.withPorts v).ports = v := rfl
@[simp] theorem State.withPorts_slices (s : State) (v : PortSt) : (s.withPorts v).slices = s.slices := rfl
@[simp] theorem State.withPorts_seq (s : State) (v : PortSt) : (s.withPorts v).seq = s.seq := rfl
@[simp] theorem State.withPorts_ten (s : State) (v : PortSt) : (s.withPorts v).ten = s.ten := rfl
@[simp] theorem State.withPorts_fs (s : State) (v : PortSt) : (s.withPorts v).fs = s.fs := rfl
@[simp] theorem State.withPorts_tbl (s : State) (v : PortSt) : (s.withPorts v).tbl = s.tbl := rfl
@[simp] theorem State.withPorts_eng (s : State) (v : PortSt) : (s.withPorts v).eng = s.eng := rfl
@[simp] theorem State.withPorts_buf (s : State) (v : PortSt) : (s.withPorts v).buf = s.buf := rfl
@[simp] theorem State.withPorts_dma (s : State) (v : PortSt) : (s.withPorts v).dma = s.dma := rfl
@[simp] theorem State.withPorts_ddr (s : State) (v : PortSt) : (s.withPorts v).ddr = s.ddr := rfl
@[simp] theorem State.withPorts_pwr (s : State) (v : PortSt) : (s.withPorts v).pwr = s.pwr := rfl
@[simp] theorem State.withPorts_stk (s : State) (v : PortSt) : (s.withPorts v).stk = s.stk := rfl
@[simp] theorem State.withPorts_ft (s : State) (v : PortSt) : (s.withPorts v).ft = s.ft := rfl
@[simp] theorem State.withPorts_img (s : State) (v : PortSt) : (s.withPorts v).img = s.img := rfl
@[simp] theorem State.withPorts_boot (s : State) (v : PortSt) : (s.withPorts v).boot = s.boot := rfl

@[simp] theorem State.withSlices_pending (s : State) (v : SliceSt) : (s.withSlices v).pending = s.pending := rfl
@[simp] theorem State.withSlices_out (s : State) (v : SliceSt) : (s.withSlices v).out = s.out := rfl
@[simp] theorem State.withSlices_free (s : State) (v : SliceSt) : (s.withSlices v).free = s.free := rfl
@[simp] theorem State.withSlices_clk (s : State) (v : SliceSt) : (s.withSlices v).clk = s.clk := rfl
@[simp] theorem State.withSlices_regs (s : State) (v : SliceSt) : (s.withSlices v).regs = s.regs := rfl
@[simp] theorem State.withSlices_time (s : State) (v : SliceSt) : (s.withSlices v).time = s.time := rfl
@[simp] theorem State.withSlices_own (s : State) (v : SliceSt) : (s.withSlices v).own = s.own := rfl
@[simp] theorem State.withSlices_host (s : State) (v : SliceSt) : (s.withSlices v).host = s.host := rfl
@[simp] theorem State.withSlices_ctr (s : State) (v : SliceSt) : (s.withSlices v).ctr = s.ctr := rfl
@[simp] theorem State.withSlices_pmc (s : State) (v : SliceSt) : (s.withSlices v).pmc = s.pmc := rfl
@[simp] theorem State.withSlices_ports (s : State) (v : SliceSt) : (s.withSlices v).ports = s.ports := rfl
@[simp] theorem State.withSlices_slices (s : State) (v : SliceSt) : (s.withSlices v).slices = v := rfl
@[simp] theorem State.withSlices_seq (s : State) (v : SliceSt) : (s.withSlices v).seq = s.seq := rfl
@[simp] theorem State.withSlices_ten (s : State) (v : SliceSt) : (s.withSlices v).ten = s.ten := rfl
@[simp] theorem State.withSlices_fs (s : State) (v : SliceSt) : (s.withSlices v).fs = s.fs := rfl
@[simp] theorem State.withSlices_tbl (s : State) (v : SliceSt) : (s.withSlices v).tbl = s.tbl := rfl
@[simp] theorem State.withSlices_eng (s : State) (v : SliceSt) : (s.withSlices v).eng = s.eng := rfl
@[simp] theorem State.withSlices_buf (s : State) (v : SliceSt) : (s.withSlices v).buf = s.buf := rfl
@[simp] theorem State.withSlices_dma (s : State) (v : SliceSt) : (s.withSlices v).dma = s.dma := rfl
@[simp] theorem State.withSlices_ddr (s : State) (v : SliceSt) : (s.withSlices v).ddr = s.ddr := rfl
@[simp] theorem State.withSlices_pwr (s : State) (v : SliceSt) : (s.withSlices v).pwr = s.pwr := rfl
@[simp] theorem State.withSlices_stk (s : State) (v : SliceSt) : (s.withSlices v).stk = s.stk := rfl
@[simp] theorem State.withSlices_ft (s : State) (v : SliceSt) : (s.withSlices v).ft = s.ft := rfl
@[simp] theorem State.withSlices_img (s : State) (v : SliceSt) : (s.withSlices v).img = s.img := rfl
@[simp] theorem State.withSlices_boot (s : State) (v : SliceSt) : (s.withSlices v).boot = s.boot := rfl

@[simp] theorem State.withSeq_pending (s : State) (v : SeqSt) : (s.withSeq v).pending = s.pending := rfl
@[simp] theorem State.withSeq_out (s : State) (v : SeqSt) : (s.withSeq v).out = s.out := rfl
@[simp] theorem State.withSeq_free (s : State) (v : SeqSt) : (s.withSeq v).free = s.free := rfl
@[simp] theorem State.withSeq_clk (s : State) (v : SeqSt) : (s.withSeq v).clk = s.clk := rfl
@[simp] theorem State.withSeq_regs (s : State) (v : SeqSt) : (s.withSeq v).regs = s.regs := rfl
@[simp] theorem State.withSeq_time (s : State) (v : SeqSt) : (s.withSeq v).time = s.time := rfl
@[simp] theorem State.withSeq_own (s : State) (v : SeqSt) : (s.withSeq v).own = s.own := rfl
@[simp] theorem State.withSeq_host (s : State) (v : SeqSt) : (s.withSeq v).host = s.host := rfl
@[simp] theorem State.withSeq_ctr (s : State) (v : SeqSt) : (s.withSeq v).ctr = s.ctr := rfl
@[simp] theorem State.withSeq_pmc (s : State) (v : SeqSt) : (s.withSeq v).pmc = s.pmc := rfl
@[simp] theorem State.withSeq_ports (s : State) (v : SeqSt) : (s.withSeq v).ports = s.ports := rfl
@[simp] theorem State.withSeq_slices (s : State) (v : SeqSt) : (s.withSeq v).slices = s.slices := rfl
@[simp] theorem State.withSeq_seq (s : State) (v : SeqSt) : (s.withSeq v).seq = v := rfl
@[simp] theorem State.withSeq_ten (s : State) (v : SeqSt) : (s.withSeq v).ten = s.ten := rfl
@[simp] theorem State.withSeq_fs (s : State) (v : SeqSt) : (s.withSeq v).fs = s.fs := rfl
@[simp] theorem State.withSeq_tbl (s : State) (v : SeqSt) : (s.withSeq v).tbl = s.tbl := rfl
@[simp] theorem State.withSeq_eng (s : State) (v : SeqSt) : (s.withSeq v).eng = s.eng := rfl
@[simp] theorem State.withSeq_buf (s : State) (v : SeqSt) : (s.withSeq v).buf = s.buf := rfl
@[simp] theorem State.withSeq_dma (s : State) (v : SeqSt) : (s.withSeq v).dma = s.dma := rfl
@[simp] theorem State.withSeq_ddr (s : State) (v : SeqSt) : (s.withSeq v).ddr = s.ddr := rfl
@[simp] theorem State.withSeq_pwr (s : State) (v : SeqSt) : (s.withSeq v).pwr = s.pwr := rfl
@[simp] theorem State.withSeq_stk (s : State) (v : SeqSt) : (s.withSeq v).stk = s.stk := rfl
@[simp] theorem State.withSeq_ft (s : State) (v : SeqSt) : (s.withSeq v).ft = s.ft := rfl
@[simp] theorem State.withSeq_img (s : State) (v : SeqSt) : (s.withSeq v).img = s.img := rfl
@[simp] theorem State.withSeq_boot (s : State) (v : SeqSt) : (s.withSeq v).boot = s.boot := rfl

@[simp] theorem State.withTen_pending (s : State) (v : TenSt) : (s.withTen v).pending = s.pending := rfl
@[simp] theorem State.withTen_out (s : State) (v : TenSt) : (s.withTen v).out = s.out := rfl
@[simp] theorem State.withTen_free (s : State) (v : TenSt) : (s.withTen v).free = s.free := rfl
@[simp] theorem State.withTen_clk (s : State) (v : TenSt) : (s.withTen v).clk = s.clk := rfl
@[simp] theorem State.withTen_regs (s : State) (v : TenSt) : (s.withTen v).regs = s.regs := rfl
@[simp] theorem State.withTen_time (s : State) (v : TenSt) : (s.withTen v).time = s.time := rfl
@[simp] theorem State.withTen_own (s : State) (v : TenSt) : (s.withTen v).own = s.own := rfl
@[simp] theorem State.withTen_host (s : State) (v : TenSt) : (s.withTen v).host = s.host := rfl
@[simp] theorem State.withTen_ctr (s : State) (v : TenSt) : (s.withTen v).ctr = s.ctr := rfl
@[simp] theorem State.withTen_pmc (s : State) (v : TenSt) : (s.withTen v).pmc = s.pmc := rfl
@[simp] theorem State.withTen_ports (s : State) (v : TenSt) : (s.withTen v).ports = s.ports := rfl
@[simp] theorem State.withTen_slices (s : State) (v : TenSt) : (s.withTen v).slices = s.slices := rfl
@[simp] theorem State.withTen_seq (s : State) (v : TenSt) : (s.withTen v).seq = s.seq := rfl
@[simp] theorem State.withTen_ten (s : State) (v : TenSt) : (s.withTen v).ten = v := rfl
@[simp] theorem State.withTen_fs (s : State) (v : TenSt) : (s.withTen v).fs = s.fs := rfl
@[simp] theorem State.withTen_tbl (s : State) (v : TenSt) : (s.withTen v).tbl = s.tbl := rfl
@[simp] theorem State.withTen_eng (s : State) (v : TenSt) : (s.withTen v).eng = s.eng := rfl
@[simp] theorem State.withTen_buf (s : State) (v : TenSt) : (s.withTen v).buf = s.buf := rfl
@[simp] theorem State.withTen_dma (s : State) (v : TenSt) : (s.withTen v).dma = s.dma := rfl
@[simp] theorem State.withTen_ddr (s : State) (v : TenSt) : (s.withTen v).ddr = s.ddr := rfl
@[simp] theorem State.withTen_pwr (s : State) (v : TenSt) : (s.withTen v).pwr = s.pwr := rfl
@[simp] theorem State.withTen_stk (s : State) (v : TenSt) : (s.withTen v).stk = s.stk := rfl
@[simp] theorem State.withTen_ft (s : State) (v : TenSt) : (s.withTen v).ft = s.ft := rfl
@[simp] theorem State.withTen_img (s : State) (v : TenSt) : (s.withTen v).img = s.img := rfl
@[simp] theorem State.withTen_boot (s : State) (v : TenSt) : (s.withTen v).boot = s.boot := rfl

@[simp] theorem State.withFs_pending (s : State) (v : FsSt) : (s.withFs v).pending = s.pending := rfl
@[simp] theorem State.withFs_out (s : State) (v : FsSt) : (s.withFs v).out = s.out := rfl
@[simp] theorem State.withFs_free (s : State) (v : FsSt) : (s.withFs v).free = s.free := rfl
@[simp] theorem State.withFs_clk (s : State) (v : FsSt) : (s.withFs v).clk = s.clk := rfl
@[simp] theorem State.withFs_regs (s : State) (v : FsSt) : (s.withFs v).regs = s.regs := rfl
@[simp] theorem State.withFs_time (s : State) (v : FsSt) : (s.withFs v).time = s.time := rfl
@[simp] theorem State.withFs_own (s : State) (v : FsSt) : (s.withFs v).own = s.own := rfl
@[simp] theorem State.withFs_host (s : State) (v : FsSt) : (s.withFs v).host = s.host := rfl
@[simp] theorem State.withFs_ctr (s : State) (v : FsSt) : (s.withFs v).ctr = s.ctr := rfl
@[simp] theorem State.withFs_pmc (s : State) (v : FsSt) : (s.withFs v).pmc = s.pmc := rfl
@[simp] theorem State.withFs_ports (s : State) (v : FsSt) : (s.withFs v).ports = s.ports := rfl
@[simp] theorem State.withFs_slices (s : State) (v : FsSt) : (s.withFs v).slices = s.slices := rfl
@[simp] theorem State.withFs_seq (s : State) (v : FsSt) : (s.withFs v).seq = s.seq := rfl
@[simp] theorem State.withFs_ten (s : State) (v : FsSt) : (s.withFs v).ten = s.ten := rfl
@[simp] theorem State.withFs_fs (s : State) (v : FsSt) : (s.withFs v).fs = v := rfl
@[simp] theorem State.withFs_tbl (s : State) (v : FsSt) : (s.withFs v).tbl = s.tbl := rfl
@[simp] theorem State.withFs_eng (s : State) (v : FsSt) : (s.withFs v).eng = s.eng := rfl
@[simp] theorem State.withFs_buf (s : State) (v : FsSt) : (s.withFs v).buf = s.buf := rfl
@[simp] theorem State.withFs_dma (s : State) (v : FsSt) : (s.withFs v).dma = s.dma := rfl
@[simp] theorem State.withFs_ddr (s : State) (v : FsSt) : (s.withFs v).ddr = s.ddr := rfl
@[simp] theorem State.withFs_pwr (s : State) (v : FsSt) : (s.withFs v).pwr = s.pwr := rfl
@[simp] theorem State.withFs_stk (s : State) (v : FsSt) : (s.withFs v).stk = s.stk := rfl
@[simp] theorem State.withFs_ft (s : State) (v : FsSt) : (s.withFs v).ft = s.ft := rfl
@[simp] theorem State.withFs_img (s : State) (v : FsSt) : (s.withFs v).img = s.img := rfl
@[simp] theorem State.withFs_boot (s : State) (v : FsSt) : (s.withFs v).boot = s.boot := rfl

@[simp] theorem State.withTbl_pending (s : State) (v : TblSt) : (s.withTbl v).pending = s.pending := rfl
@[simp] theorem State.withTbl_out (s : State) (v : TblSt) : (s.withTbl v).out = s.out := rfl
@[simp] theorem State.withTbl_free (s : State) (v : TblSt) : (s.withTbl v).free = s.free := rfl
@[simp] theorem State.withTbl_clk (s : State) (v : TblSt) : (s.withTbl v).clk = s.clk := rfl
@[simp] theorem State.withTbl_regs (s : State) (v : TblSt) : (s.withTbl v).regs = s.regs := rfl
@[simp] theorem State.withTbl_time (s : State) (v : TblSt) : (s.withTbl v).time = s.time := rfl
@[simp] theorem State.withTbl_own (s : State) (v : TblSt) : (s.withTbl v).own = s.own := rfl
@[simp] theorem State.withTbl_host (s : State) (v : TblSt) : (s.withTbl v).host = s.host := rfl
@[simp] theorem State.withTbl_ctr (s : State) (v : TblSt) : (s.withTbl v).ctr = s.ctr := rfl
@[simp] theorem State.withTbl_pmc (s : State) (v : TblSt) : (s.withTbl v).pmc = s.pmc := rfl
@[simp] theorem State.withTbl_ports (s : State) (v : TblSt) : (s.withTbl v).ports = s.ports := rfl
@[simp] theorem State.withTbl_slices (s : State) (v : TblSt) : (s.withTbl v).slices = s.slices := rfl
@[simp] theorem State.withTbl_seq (s : State) (v : TblSt) : (s.withTbl v).seq = s.seq := rfl
@[simp] theorem State.withTbl_ten (s : State) (v : TblSt) : (s.withTbl v).ten = s.ten := rfl
@[simp] theorem State.withTbl_fs (s : State) (v : TblSt) : (s.withTbl v).fs = s.fs := rfl
@[simp] theorem State.withTbl_tbl (s : State) (v : TblSt) : (s.withTbl v).tbl = v := rfl
@[simp] theorem State.withTbl_eng (s : State) (v : TblSt) : (s.withTbl v).eng = s.eng := rfl
@[simp] theorem State.withTbl_buf (s : State) (v : TblSt) : (s.withTbl v).buf = s.buf := rfl
@[simp] theorem State.withTbl_dma (s : State) (v : TblSt) : (s.withTbl v).dma = s.dma := rfl
@[simp] theorem State.withTbl_ddr (s : State) (v : TblSt) : (s.withTbl v).ddr = s.ddr := rfl
@[simp] theorem State.withTbl_pwr (s : State) (v : TblSt) : (s.withTbl v).pwr = s.pwr := rfl
@[simp] theorem State.withTbl_stk (s : State) (v : TblSt) : (s.withTbl v).stk = s.stk := rfl
@[simp] theorem State.withTbl_ft (s : State) (v : TblSt) : (s.withTbl v).ft = s.ft := rfl
@[simp] theorem State.withTbl_img (s : State) (v : TblSt) : (s.withTbl v).img = s.img := rfl
@[simp] theorem State.withTbl_boot (s : State) (v : TblSt) : (s.withTbl v).boot = s.boot := rfl

@[simp] theorem State.withEng_pending (s : State) (v : EngSt) : (s.withEng v).pending = s.pending := rfl
@[simp] theorem State.withEng_out (s : State) (v : EngSt) : (s.withEng v).out = s.out := rfl
@[simp] theorem State.withEng_free (s : State) (v : EngSt) : (s.withEng v).free = s.free := rfl
@[simp] theorem State.withEng_clk (s : State) (v : EngSt) : (s.withEng v).clk = s.clk := rfl
@[simp] theorem State.withEng_regs (s : State) (v : EngSt) : (s.withEng v).regs = s.regs := rfl
@[simp] theorem State.withEng_time (s : State) (v : EngSt) : (s.withEng v).time = s.time := rfl
@[simp] theorem State.withEng_own (s : State) (v : EngSt) : (s.withEng v).own = s.own := rfl
@[simp] theorem State.withEng_host (s : State) (v : EngSt) : (s.withEng v).host = s.host := rfl
@[simp] theorem State.withEng_ctr (s : State) (v : EngSt) : (s.withEng v).ctr = s.ctr := rfl
@[simp] theorem State.withEng_pmc (s : State) (v : EngSt) : (s.withEng v).pmc = s.pmc := rfl
@[simp] theorem State.withEng_ports (s : State) (v : EngSt) : (s.withEng v).ports = s.ports := rfl
@[simp] theorem State.withEng_slices (s : State) (v : EngSt) : (s.withEng v).slices = s.slices := rfl
@[simp] theorem State.withEng_seq (s : State) (v : EngSt) : (s.withEng v).seq = s.seq := rfl
@[simp] theorem State.withEng_ten (s : State) (v : EngSt) : (s.withEng v).ten = s.ten := rfl
@[simp] theorem State.withEng_fs (s : State) (v : EngSt) : (s.withEng v).fs = s.fs := rfl
@[simp] theorem State.withEng_tbl (s : State) (v : EngSt) : (s.withEng v).tbl = s.tbl := rfl
@[simp] theorem State.withEng_eng (s : State) (v : EngSt) : (s.withEng v).eng = v := rfl
@[simp] theorem State.withEng_buf (s : State) (v : EngSt) : (s.withEng v).buf = s.buf := rfl
@[simp] theorem State.withEng_dma (s : State) (v : EngSt) : (s.withEng v).dma = s.dma := rfl
@[simp] theorem State.withEng_ddr (s : State) (v : EngSt) : (s.withEng v).ddr = s.ddr := rfl
@[simp] theorem State.withEng_pwr (s : State) (v : EngSt) : (s.withEng v).pwr = s.pwr := rfl
@[simp] theorem State.withEng_stk (s : State) (v : EngSt) : (s.withEng v).stk = s.stk := rfl
@[simp] theorem State.withEng_ft (s : State) (v : EngSt) : (s.withEng v).ft = s.ft := rfl
@[simp] theorem State.withEng_img (s : State) (v : EngSt) : (s.withEng v).img = s.img := rfl
@[simp] theorem State.withEng_boot (s : State) (v : EngSt) : (s.withEng v).boot = s.boot := rfl

@[simp] theorem State.withBuf_pending (s : State) (v : BufSt) : (s.withBuf v).pending = s.pending := rfl
@[simp] theorem State.withBuf_out (s : State) (v : BufSt) : (s.withBuf v).out = s.out := rfl
@[simp] theorem State.withBuf_free (s : State) (v : BufSt) : (s.withBuf v).free = s.free := rfl
@[simp] theorem State.withBuf_clk (s : State) (v : BufSt) : (s.withBuf v).clk = s.clk := rfl
@[simp] theorem State.withBuf_regs (s : State) (v : BufSt) : (s.withBuf v).regs = s.regs := rfl
@[simp] theorem State.withBuf_time (s : State) (v : BufSt) : (s.withBuf v).time = s.time := rfl
@[simp] theorem State.withBuf_own (s : State) (v : BufSt) : (s.withBuf v).own = s.own := rfl
@[simp] theorem State.withBuf_host (s : State) (v : BufSt) : (s.withBuf v).host = s.host := rfl
@[simp] theorem State.withBuf_ctr (s : State) (v : BufSt) : (s.withBuf v).ctr = s.ctr := rfl
@[simp] theorem State.withBuf_pmc (s : State) (v : BufSt) : (s.withBuf v).pmc = s.pmc := rfl
@[simp] theorem State.withBuf_ports (s : State) (v : BufSt) : (s.withBuf v).ports = s.ports := rfl
@[simp] theorem State.withBuf_slices (s : State) (v : BufSt) : (s.withBuf v).slices = s.slices := rfl
@[simp] theorem State.withBuf_seq (s : State) (v : BufSt) : (s.withBuf v).seq = s.seq := rfl
@[simp] theorem State.withBuf_ten (s : State) (v : BufSt) : (s.withBuf v).ten = s.ten := rfl
@[simp] theorem State.withBuf_fs (s : State) (v : BufSt) : (s.withBuf v).fs = s.fs := rfl
@[simp] theorem State.withBuf_tbl (s : State) (v : BufSt) : (s.withBuf v).tbl = s.tbl := rfl
@[simp] theorem State.withBuf_eng (s : State) (v : BufSt) : (s.withBuf v).eng = s.eng := rfl
@[simp] theorem State.withBuf_buf (s : State) (v : BufSt) : (s.withBuf v).buf = v := rfl
@[simp] theorem State.withBuf_dma (s : State) (v : BufSt) : (s.withBuf v).dma = s.dma := rfl
@[simp] theorem State.withBuf_ddr (s : State) (v : BufSt) : (s.withBuf v).ddr = s.ddr := rfl
@[simp] theorem State.withBuf_pwr (s : State) (v : BufSt) : (s.withBuf v).pwr = s.pwr := rfl
@[simp] theorem State.withBuf_stk (s : State) (v : BufSt) : (s.withBuf v).stk = s.stk := rfl
@[simp] theorem State.withBuf_ft (s : State) (v : BufSt) : (s.withBuf v).ft = s.ft := rfl
@[simp] theorem State.withBuf_img (s : State) (v : BufSt) : (s.withBuf v).img = s.img := rfl
@[simp] theorem State.withBuf_boot (s : State) (v : BufSt) : (s.withBuf v).boot = s.boot := rfl

@[simp] theorem State.withDma_pending (s : State) (v : DmaStt) : (s.withDma v).pending = s.pending := rfl
@[simp] theorem State.withDma_out (s : State) (v : DmaStt) : (s.withDma v).out = s.out := rfl
@[simp] theorem State.withDma_free (s : State) (v : DmaStt) : (s.withDma v).free = s.free := rfl
@[simp] theorem State.withDma_clk (s : State) (v : DmaStt) : (s.withDma v).clk = s.clk := rfl
@[simp] theorem State.withDma_regs (s : State) (v : DmaStt) : (s.withDma v).regs = s.regs := rfl
@[simp] theorem State.withDma_time (s : State) (v : DmaStt) : (s.withDma v).time = s.time := rfl
@[simp] theorem State.withDma_own (s : State) (v : DmaStt) : (s.withDma v).own = s.own := rfl
@[simp] theorem State.withDma_host (s : State) (v : DmaStt) : (s.withDma v).host = s.host := rfl
@[simp] theorem State.withDma_ctr (s : State) (v : DmaStt) : (s.withDma v).ctr = s.ctr := rfl
@[simp] theorem State.withDma_pmc (s : State) (v : DmaStt) : (s.withDma v).pmc = s.pmc := rfl
@[simp] theorem State.withDma_ports (s : State) (v : DmaStt) : (s.withDma v).ports = s.ports := rfl
@[simp] theorem State.withDma_slices (s : State) (v : DmaStt) : (s.withDma v).slices = s.slices := rfl
@[simp] theorem State.withDma_seq (s : State) (v : DmaStt) : (s.withDma v).seq = s.seq := rfl
@[simp] theorem State.withDma_ten (s : State) (v : DmaStt) : (s.withDma v).ten = s.ten := rfl
@[simp] theorem State.withDma_fs (s : State) (v : DmaStt) : (s.withDma v).fs = s.fs := rfl
@[simp] theorem State.withDma_tbl (s : State) (v : DmaStt) : (s.withDma v).tbl = s.tbl := rfl
@[simp] theorem State.withDma_eng (s : State) (v : DmaStt) : (s.withDma v).eng = s.eng := rfl
@[simp] theorem State.withDma_buf (s : State) (v : DmaStt) : (s.withDma v).buf = s.buf := rfl
@[simp] theorem State.withDma_dma (s : State) (v : DmaStt) : (s.withDma v).dma = v := rfl
@[simp] theorem State.withDma_ddr (s : State) (v : DmaStt) : (s.withDma v).ddr = s.ddr := rfl
@[simp] theorem State.withDma_pwr (s : State) (v : DmaStt) : (s.withDma v).pwr = s.pwr := rfl
@[simp] theorem State.withDma_stk (s : State) (v : DmaStt) : (s.withDma v).stk = s.stk := rfl
@[simp] theorem State.withDma_ft (s : State) (v : DmaStt) : (s.withDma v).ft = s.ft := rfl
@[simp] theorem State.withDma_img (s : State) (v : DmaStt) : (s.withDma v).img = s.img := rfl
@[simp] theorem State.withDma_boot (s : State) (v : DmaStt) : (s.withDma v).boot = s.boot := rfl

@[simp] theorem State.withDdr_pending (s : State) (v : DdrStt) : (s.withDdr v).pending = s.pending := rfl
@[simp] theorem State.withDdr_out (s : State) (v : DdrStt) : (s.withDdr v).out = s.out := rfl
@[simp] theorem State.withDdr_free (s : State) (v : DdrStt) : (s.withDdr v).free = s.free := rfl
@[simp] theorem State.withDdr_clk (s : State) (v : DdrStt) : (s.withDdr v).clk = s.clk := rfl
@[simp] theorem State.withDdr_regs (s : State) (v : DdrStt) : (s.withDdr v).regs = s.regs := rfl
@[simp] theorem State.withDdr_time (s : State) (v : DdrStt) : (s.withDdr v).time = s.time := rfl
@[simp] theorem State.withDdr_own (s : State) (v : DdrStt) : (s.withDdr v).own = s.own := rfl
@[simp] theorem State.withDdr_host (s : State) (v : DdrStt) : (s.withDdr v).host = s.host := rfl
@[simp] theorem State.withDdr_ctr (s : State) (v : DdrStt) : (s.withDdr v).ctr = s.ctr := rfl
@[simp] theorem State.withDdr_pmc (s : State) (v : DdrStt) : (s.withDdr v).pmc = s.pmc := rfl
@[simp] theorem State.withDdr_ports (s : State) (v : DdrStt) : (s.withDdr v).ports = s.ports := rfl
@[simp] theorem State.withDdr_slices (s : State) (v : DdrStt) : (s.withDdr v).slices = s.slices := rfl
@[simp] theorem State.withDdr_seq (s : State) (v : DdrStt) : (s.withDdr v).seq = s.seq := rfl
@[simp] theorem State.withDdr_ten (s : State) (v : DdrStt) : (s.withDdr v).ten = s.ten := rfl
@[simp] theorem State.withDdr_fs (s : State) (v : DdrStt) : (s.withDdr v).fs = s.fs := rfl
@[simp] theorem State.withDdr_tbl (s : State) (v : DdrStt) : (s.withDdr v).tbl = s.tbl := rfl
@[simp] theorem State.withDdr_eng (s : State) (v : DdrStt) : (s.withDdr v).eng = s.eng := rfl
@[simp] theorem State.withDdr_buf (s : State) (v : DdrStt) : (s.withDdr v).buf = s.buf := rfl
@[simp] theorem State.withDdr_dma (s : State) (v : DdrStt) : (s.withDdr v).dma = s.dma := rfl
@[simp] theorem State.withDdr_ddr (s : State) (v : DdrStt) : (s.withDdr v).ddr = v := rfl
@[simp] theorem State.withDdr_pwr (s : State) (v : DdrStt) : (s.withDdr v).pwr = s.pwr := rfl
@[simp] theorem State.withDdr_stk (s : State) (v : DdrStt) : (s.withDdr v).stk = s.stk := rfl
@[simp] theorem State.withDdr_ft (s : State) (v : DdrStt) : (s.withDdr v).ft = s.ft := rfl
@[simp] theorem State.withDdr_img (s : State) (v : DdrStt) : (s.withDdr v).img = s.img := rfl
@[simp] theorem State.withDdr_boot (s : State) (v : DdrStt) : (s.withDdr v).boot = s.boot := rfl

@[simp] theorem State.withPwr_pending (s : State) (v : PwrSt) : (s.withPwr v).pending = s.pending := rfl
@[simp] theorem State.withPwr_out (s : State) (v : PwrSt) : (s.withPwr v).out = s.out := rfl
@[simp] theorem State.withPwr_free (s : State) (v : PwrSt) : (s.withPwr v).free = s.free := rfl
@[simp] theorem State.withPwr_clk (s : State) (v : PwrSt) : (s.withPwr v).clk = s.clk := rfl
@[simp] theorem State.withPwr_regs (s : State) (v : PwrSt) : (s.withPwr v).regs = s.regs := rfl
@[simp] theorem State.withPwr_time (s : State) (v : PwrSt) : (s.withPwr v).time = s.time := rfl
@[simp] theorem State.withPwr_own (s : State) (v : PwrSt) : (s.withPwr v).own = s.own := rfl
@[simp] theorem State.withPwr_host (s : State) (v : PwrSt) : (s.withPwr v).host = s.host := rfl
@[simp] theorem State.withPwr_ctr (s : State) (v : PwrSt) : (s.withPwr v).ctr = s.ctr := rfl
@[simp] theorem State.withPwr_pmc (s : State) (v : PwrSt) : (s.withPwr v).pmc = s.pmc := rfl
@[simp] theorem State.withPwr_ports (s : State) (v : PwrSt) : (s.withPwr v).ports = s.ports := rfl
@[simp] theorem State.withPwr_slices (s : State) (v : PwrSt) : (s.withPwr v).slices = s.slices := rfl
@[simp] theorem State.withPwr_seq (s : State) (v : PwrSt) : (s.withPwr v).seq = s.seq := rfl
@[simp] theorem State.withPwr_ten (s : State) (v : PwrSt) : (s.withPwr v).ten = s.ten := rfl
@[simp] theorem State.withPwr_fs (s : State) (v : PwrSt) : (s.withPwr v).fs = s.fs := rfl
@[simp] theorem State.withPwr_tbl (s : State) (v : PwrSt) : (s.withPwr v).tbl = s.tbl := rfl
@[simp] theorem State.withPwr_eng (s : State) (v : PwrSt) : (s.withPwr v).eng = s.eng := rfl
@[simp] theorem State.withPwr_buf (s : State) (v : PwrSt) : (s.withPwr v).buf = s.buf := rfl
@[simp] theorem State.withPwr_dma (s : State) (v : PwrSt) : (s.withPwr v).dma = s.dma := rfl
@[simp] theorem State.withPwr_ddr (s : State) (v : PwrSt) : (s.withPwr v).ddr = s.ddr := rfl
@[simp] theorem State.withPwr_pwr (s : State) (v : PwrSt) : (s.withPwr v).pwr = v := rfl
@[simp] theorem State.withPwr_stk (s : State) (v : PwrSt) : (s.withPwr v).stk = s.stk := rfl
@[simp] theorem State.withPwr_ft (s : State) (v : PwrSt) : (s.withPwr v).ft = s.ft := rfl
@[simp] theorem State.withPwr_img (s : State) (v : PwrSt) : (s.withPwr v).img = s.img := rfl
@[simp] theorem State.withPwr_boot (s : State) (v : PwrSt) : (s.withPwr v).boot = s.boot := rfl

@[simp] theorem State.withStk_pending (s : State) (v : StkSt) : (s.withStk v).pending = s.pending := rfl
@[simp] theorem State.withStk_out (s : State) (v : StkSt) : (s.withStk v).out = s.out := rfl
@[simp] theorem State.withStk_free (s : State) (v : StkSt) : (s.withStk v).free = s.free := rfl
@[simp] theorem State.withStk_clk (s : State) (v : StkSt) : (s.withStk v).clk = s.clk := rfl
@[simp] theorem State.withStk_regs (s : State) (v : StkSt) : (s.withStk v).regs = s.regs := rfl
@[simp] theorem State.withStk_time (s : State) (v : StkSt) : (s.withStk v).time = s.time := rfl
@[simp] theorem State.withStk_own (s : State) (v : StkSt) : (s.withStk v).own = s.own := rfl
@[simp] theorem State.withStk_host (s : State) (v : StkSt) : (s.withStk v).host = s.host := rfl
@[simp] theorem State.withStk_ctr (s : State) (v : StkSt) : (s.withStk v).ctr = s.ctr := rfl
@[simp] theorem State.withStk_pmc (s : State) (v : StkSt) : (s.withStk v).pmc = s.pmc := rfl
@[simp] theorem State.withStk_ports (s : State) (v : StkSt) : (s.withStk v).ports = s.ports := rfl
@[simp] theorem State.withStk_slices (s : State) (v : StkSt) : (s.withStk v).slices = s.slices := rfl
@[simp] theorem State.withStk_seq (s : State) (v : StkSt) : (s.withStk v).seq = s.seq := rfl
@[simp] theorem State.withStk_ten (s : State) (v : StkSt) : (s.withStk v).ten = s.ten := rfl
@[simp] theorem State.withStk_fs (s : State) (v : StkSt) : (s.withStk v).fs = s.fs := rfl
@[simp] theorem State.withStk_tbl (s : State) (v : StkSt) : (s.withStk v).tbl = s.tbl := rfl
@[simp] theorem State.withStk_eng (s : State) (v : StkSt) : (s.withStk v).eng = s.eng := rfl
@[simp] theorem State.withStk_buf (s : State) (v : StkSt) : (s.withStk v).buf = s.buf := rfl
@[simp] theorem State.withStk_dma (s : State) (v : StkSt) : (s.withStk v).dma = s.dma := rfl
@[simp] theorem State.withStk_ddr (s : State) (v : StkSt) : (s.withStk v).ddr = s.ddr := rfl
@[simp] theorem State.withStk_pwr (s : State) (v : StkSt) : (s.withStk v).pwr = s.pwr := rfl
@[simp] theorem State.withStk_stk (s : State) (v : StkSt) : (s.withStk v).stk = v := rfl
@[simp] theorem State.withStk_ft (s : State) (v : StkSt) : (s.withStk v).ft = s.ft := rfl
@[simp] theorem State.withStk_img (s : State) (v : StkSt) : (s.withStk v).img = s.img := rfl
@[simp] theorem State.withStk_boot (s : State) (v : StkSt) : (s.withStk v).boot = s.boot := rfl

@[simp] theorem State.withFt_pending (s : State) (v : FtSt) : (s.withFt v).pending = s.pending := rfl
@[simp] theorem State.withFt_out (s : State) (v : FtSt) : (s.withFt v).out = s.out := rfl
@[simp] theorem State.withFt_free (s : State) (v : FtSt) : (s.withFt v).free = s.free := rfl
@[simp] theorem State.withFt_clk (s : State) (v : FtSt) : (s.withFt v).clk = s.clk := rfl
@[simp] theorem State.withFt_regs (s : State) (v : FtSt) : (s.withFt v).regs = s.regs := rfl
@[simp] theorem State.withFt_time (s : State) (v : FtSt) : (s.withFt v).time = s.time := rfl
@[simp] theorem State.withFt_own (s : State) (v : FtSt) : (s.withFt v).own = s.own := rfl
@[simp] theorem State.withFt_host (s : State) (v : FtSt) : (s.withFt v).host = s.host := rfl
@[simp] theorem State.withFt_ctr (s : State) (v : FtSt) : (s.withFt v).ctr = s.ctr := rfl
@[simp] theorem State.withFt_pmc (s : State) (v : FtSt) : (s.withFt v).pmc = s.pmc := rfl
@[simp] theorem State.withFt_ports (s : State) (v : FtSt) : (s.withFt v).ports = s.ports := rfl
@[simp] theorem State.withFt_slices (s : State) (v : FtSt) : (s.withFt v).slices = s.slices := rfl
@[simp] theorem State.withFt_seq (s : State) (v : FtSt) : (s.withFt v).seq = s.seq := rfl
@[simp] theorem State.withFt_ten (s : State) (v : FtSt) : (s.withFt v).ten = s.ten := rfl
@[simp] theorem State.withFt_fs (s : State) (v : FtSt) : (s.withFt v).fs = s.fs := rfl
@[simp] theorem State.withFt_tbl (s : State) (v : FtSt) : (s.withFt v).tbl = s.tbl := rfl
@[simp] theorem State.withFt_eng (s : State) (v : FtSt) : (s.withFt v).eng = s.eng := rfl
@[simp] theorem State.withFt_buf (s : State) (v : FtSt) : (s.withFt v).buf = s.buf := rfl
@[simp] theorem State.withFt_dma (s : State) (v : FtSt) : (s.withFt v).dma = s.dma := rfl
@[simp] theorem State.withFt_ddr (s : State) (v : FtSt) : (s.withFt v).ddr = s.ddr := rfl
@[simp] theorem State.withFt_pwr (s : State) (v : FtSt) : (s.withFt v).pwr = s.pwr := rfl
@[simp] theorem State.withFt_stk (s : State) (v : FtSt) : (s.withFt v).stk = s.stk := rfl
@[simp] theorem State.withFt_ft (s : State) (v : FtSt) : (s.withFt v).ft = v := rfl
@[simp] theorem State.withFt_img (s : State) (v : FtSt) : (s.withFt v).img = s.img := rfl
@[simp] theorem State.withFt_boot (s : State) (v : FtSt) : (s.withFt v).boot = s.boot := rfl

@[simp] theorem State.withImg_pending (s : State) (v : ImgSt) : (s.withImg v).pending = s.pending := rfl
@[simp] theorem State.withImg_out (s : State) (v : ImgSt) : (s.withImg v).out = s.out := rfl
@[simp] theorem State.withImg_free (s : State) (v : ImgSt) : (s.withImg v).free = s.free := rfl
@[simp] theorem State.withImg_clk (s : State) (v : ImgSt) : (s.withImg v).clk = s.clk := rfl
@[simp] theorem State.withImg_regs (s : State) (v : ImgSt) : (s.withImg v).regs = s.regs := rfl
@[simp] theorem State.withImg_time (s : State) (v : ImgSt) : (s.withImg v).time = s.time := rfl
@[simp] theorem State.withImg_own (s : State) (v : ImgSt) : (s.withImg v).own = s.own := rfl
@[simp] theorem State.withImg_host (s : State) (v : ImgSt) : (s.withImg v).host = s.host := rfl
@[simp] theorem State.withImg_ctr (s : State) (v : ImgSt) : (s.withImg v).ctr = s.ctr := rfl
@[simp] theorem State.withImg_pmc (s : State) (v : ImgSt) : (s.withImg v).pmc = s.pmc := rfl
@[simp] theorem State.withImg_ports (s : State) (v : ImgSt) : (s.withImg v).ports = s.ports := rfl
@[simp] theorem State.withImg_slices (s : State) (v : ImgSt) : (s.withImg v).slices = s.slices := rfl
@[simp] theorem State.withImg_seq (s : State) (v : ImgSt) : (s.withImg v).seq = s.seq := rfl
@[simp] theorem State.withImg_ten (s : State) (v : ImgSt) : (s.withImg v).ten = s.ten := rfl
@[simp] theorem State.withImg_fs (s : State) (v : ImgSt) : (s.withImg v).fs = s.fs := rfl
@[simp] theorem State.withImg_tbl (s : State) (v : ImgSt) : (s.withImg v).tbl = s.tbl := rfl
@[simp] theorem State.withImg_eng (s : State) (v : ImgSt) : (s.withImg v).eng = s.eng := rfl
@[simp] theorem State.withImg_buf (s : State) (v : ImgSt) : (s.withImg v).buf = s.buf := rfl
@[simp] theorem State.withImg_dma (s : State) (v : ImgSt) : (s.withImg v).dma = s.dma := rfl
@[simp] theorem State.withImg_ddr (s : State) (v : ImgSt) : (s.withImg v).ddr = s.ddr := rfl
@[simp] theorem State.withImg_pwr (s : State) (v : ImgSt) : (s.withImg v).pwr = s.pwr := rfl
@[simp] theorem State.withImg_stk (s : State) (v : ImgSt) : (s.withImg v).stk = s.stk := rfl
@[simp] theorem State.withImg_ft (s : State) (v : ImgSt) : (s.withImg v).ft = s.ft := rfl
@[simp] theorem State.withImg_img (s : State) (v : ImgSt) : (s.withImg v).img = v := rfl
@[simp] theorem State.withImg_boot (s : State) (v : ImgSt) : (s.withImg v).boot = s.boot := rfl

@[simp] theorem State.withBoot_pending (s : State) (v : BootSt) : (s.withBoot v).pending = s.pending := rfl
@[simp] theorem State.withBoot_out (s : State) (v : BootSt) : (s.withBoot v).out = s.out := rfl
@[simp] theorem State.withBoot_free (s : State) (v : BootSt) : (s.withBoot v).free = s.free := rfl
@[simp] theorem State.withBoot_clk (s : State) (v : BootSt) : (s.withBoot v).clk = s.clk := rfl
@[simp] theorem State.withBoot_regs (s : State) (v : BootSt) : (s.withBoot v).regs = s.regs := rfl
@[simp] theorem State.withBoot_time (s : State) (v : BootSt) : (s.withBoot v).time = s.time := rfl
@[simp] theorem State.withBoot_own (s : State) (v : BootSt) : (s.withBoot v).own = s.own := rfl
@[simp] theorem State.withBoot_host (s : State) (v : BootSt) : (s.withBoot v).host = s.host := rfl
@[simp] theorem State.withBoot_ctr (s : State) (v : BootSt) : (s.withBoot v).ctr = s.ctr := rfl
@[simp] theorem State.withBoot_pmc (s : State) (v : BootSt) : (s.withBoot v).pmc = s.pmc := rfl
@[simp] theorem State.withBoot_ports (s : State) (v : BootSt) : (s.withBoot v).ports = s.ports := rfl
@[simp] theorem State.withBoot_slices (s : State) (v : BootSt) : (s.withBoot v).slices = s.slices := rfl
@[simp] theorem State.withBoot_seq (s : State) (v : BootSt) : (s.withBoot v).seq = s.seq := rfl
@[simp] theorem State.withBoot_ten (s : State) (v : BootSt) : (s.withBoot v).ten = s.ten := rfl
@[simp] theorem State.withBoot_fs (s : State) (v : BootSt) : (s.withBoot v).fs = s.fs := rfl
@[simp] theorem State.withBoot_tbl (s : State) (v : BootSt) : (s.withBoot v).tbl = s.tbl := rfl
@[simp] theorem State.withBoot_eng (s : State) (v : BootSt) : (s.withBoot v).eng = s.eng := rfl
@[simp] theorem State.withBoot_buf (s : State) (v : BootSt) : (s.withBoot v).buf = s.buf := rfl
@[simp] theorem State.withBoot_dma (s : State) (v : BootSt) : (s.withBoot v).dma = s.dma := rfl
@[simp] theorem State.withBoot_ddr (s : State) (v : BootSt) : (s.withBoot v).ddr = s.ddr := rfl
@[simp] theorem State.withBoot_pwr (s : State) (v : BootSt) : (s.withBoot v).pwr = s.pwr := rfl
@[simp] theorem State.withBoot_stk (s : State) (v : BootSt) : (s.withBoot v).stk = s.stk := rfl
@[simp] theorem State.withBoot_ft (s : State) (v : BootSt) : (s.withBoot v).ft = s.ft := rfl
@[simp] theorem State.withBoot_img (s : State) (v : BootSt) : (s.withBoot v).img = s.img := rfl
@[simp] theorem State.withBoot_boot (s : State) (v : BootSt) : (s.withBoot v).boot = v := rfl

end Sys2Proof.Machine
end

