-- ==== Sys2Proof/Laws/Store.lean ====
section
/-! SUPPORT. Laws of sparse stores and memories: read after write, and the canonical form. -/

namespace Sys2Proof.Machine

/-- A store whose keys rise from some bound rises from every lower one. -/
theorem risesFrom_mono {α : Type} {lo hi : Nat} (h : lo ≤ hi) :
    ∀ {m : Store α}, risesFrom hi m = true → risesFrom lo m = true
  | [], _ => rfl
  | (k, _) :: _, r => by
    simp only [risesFrom, Bool.and_eq_true, decide_eq_true_eq] at r ⊢
    exact ⟨Nat.le_trans h r.1, r.2⟩

/-- A key below every key of a store reads as the default. -/
theorem getAt_below {α : Type} (d : α) {n lo : Nat} (h : n < lo) :
    ∀ {m : Store α}, risesFrom lo m = true → getAt d m n = d
  | [], _ => rfl
  | (k, v) :: m, r => by
    simp only [risesFrom, Bool.and_eq_true, decide_eq_true_eq] at r
    have hk : k ≠ n := by omega
    have := getAt_below d (Nat.lt_succ_of_lt (Nat.lt_of_lt_of_le h r.1)) (m := m) r.2
    simp [getAt, hk, this]

/-- Putting keeps the keys rising. -/
theorem putAt_rises {α : Type} (n : Nat) (v : Option α) {lo : Nat} (h : lo ≤ n) :
    ∀ {m : Store α}, risesFrom lo m = true → risesFrom lo (putAt n v m) = true
  | [], _ => by cases v <;> simp [putAt, risesFrom, h]
  | (k, w) :: m, r => by
    simp only [risesFrom, Bool.and_eq_true, decide_eq_true_eq] at r
    unfold putAt
    split
    · cases v
      · simp [risesFrom, r]
      · simp only [risesFrom, Bool.and_eq_true, decide_eq_true_eq]
        exact ⟨h, by omega, r.2⟩
    · split
      · next hk =>
        cases v
        · exact risesFrom_mono (by omega) r.2
        · subst hk
          simp [risesFrom, h, r.2]
      · simp only [risesFrom, Bool.and_eq_true, decide_eq_true_eq]
        exact ⟨r.1, putAt_rises n v (by omega) r.2⟩

/-- What a put leaves at its key. -/
theorem getAt_putAt_same {α : Type} (d : α) (n : Nat) (v : Option α) {lo : Nat} :
    ∀ {m : Store α}, risesFrom lo m = true → getAt d (putAt n v m) n = v.getD d
  | [], _ => by cases v <;> simp [putAt, getAt]
  | (k, w) :: m, r => by
    simp only [risesFrom, Bool.and_eq_true, decide_eq_true_eq] at r
    unfold putAt
    split
    · next hlt =>
      cases v
      · have hk : k ≠ n := by omega
        simp [getAt, hk, getAt_below d (Nat.lt_succ_of_lt hlt) r.2]
      · simp [getAt]
    · split
      · next hk =>
        cases v
        · subst hk
          simp [getAt_below d (Nat.lt_succ_self k) r.2]
        · simp [getAt]
      · next hk =>
        simp [getAt, hk, getAt_putAt_same d n v r.2]

/-- A put changes no other key. -/
theorem getAt_putAt_other {α : Type} (d : α) {n k : Nat} (v : Option α) (h : k ≠ n) :
    ∀ (m : Store α), getAt d (putAt n v m) k = getAt d m k
  | [] => by cases v <;> simp [putAt, getAt, Ne.symm h]
  | (j, w) :: m => by
    unfold putAt
    split
    · cases v <;> simp [getAt, Ne.symm h]
    · split
      · next hj =>
        subst hj
        cases v <;> simp [getAt, Ne.symm h]
      · by_cases hjk : j = k <;> simp [getAt, hjk, getAt_putAt_other d v h m]

/-- Every entry of a store after a put is an old one or the one put. -/
theorem mem_putAt {α : Type} {n : Nat} {v : Option α} {e : Nat × α} :
    ∀ {m : Store α}, e ∈ putAt n v m → e ∈ m ∨ v = some e.2
  | [], h => by
    cases v
    · simp [putAt] at h
    · simp only [putAt, List.mem_singleton] at h
      subst h
      simp
  | (k, w) :: m, h => by
    unfold putAt at h
    split at h
    · cases v
      · exact .inl h
      · rcases List.mem_cons.mp h with rfl | h
        · exact .inr rfl
        · exact .inl h
    · split at h
      · cases v
        · exact .inl (List.mem_cons_of_mem _ h)
        · rcases List.mem_cons.mp h with rfl | h
          · exact .inr rfl
          · exact .inl (List.mem_cons_of_mem _ h)
      · rcases List.mem_cons.mp h with rfl | h
        · exact .inl (List.mem_cons_self ..)
        · exact (mem_putAt h).imp (List.mem_cons_of_mem _) id

/-- A store in canonical form rises. -/
theorem storeWf_rises {α : Type} [DecidableEq α] {d : α} {m : Store α} (h : storeWf d m = true) :
    risesFrom 0 m = true := by
  unfold storeWf at h
  exact (Bool.and_eq_true _ _ ▸ h).1

/-- Writing keeps the canonical form of a store. -/
theorem storeWf_setAt {α : Type} [DecidableEq α] {d : α} {m : Store α} (h : storeWf d m = true) (n : Nat) (v : α) :
    storeWf d (setAt d m n v) = true := by
  have hr := storeWf_rises h
  have ha : ∀ e ∈ m, e.2 ≠ d := by
    unfold storeWf at h
    have := (Bool.and_eq_true _ _ ▸ h).2
    simpa [List.all_eq_true] using this
  unfold setAt storeWf
  split
  · simp only [Bool.and_eq_true, List.all_eq_true, decide_eq_true_eq]
    refine ⟨putAt_rises n none (Nat.zero_le _) hr, fun e he => ?_⟩
    rcases mem_putAt he with h | h
    · exact ha e h
    · cases h
  · next hv =>
    simp only [Bool.and_eq_true, List.all_eq_true, decide_eq_true_eq]
    refine ⟨putAt_rises n (some v) (Nat.zero_le _) hr, fun e he => ?_⟩
    rcases mem_putAt he with h | h
    · exact ha e h
    · cases h
      exact hv

/-- What is written at a key is read there. -/
theorem getAt_setAt_same {α : Type} [DecidableEq α] {d : α} {m : Store α} (h : storeWf d m = true) (n : Nat) (v : α) :
    getAt d (setAt d m n v) n = v := by
  unfold setAt
  split
  · next hv => simp [getAt_putAt_same d n none (storeWf_rises h), hv]
  · simp [getAt_putAt_same d n (some v) (storeWf_rises h)]

/-- Writing one key leaves every other key alone. -/
theorem getAt_setAt_other {α : Type} [DecidableEq α] {d : α} {n k : Nat} (h : k ≠ n) (m : Store α) (v : α) :
    getAt d (setAt d m n v) k = getAt d m k := by
  unfold setAt
  split <;> exact getAt_putAt_other d _ h m

/-- The empty store is in canonical form. -/
@[simp] theorem storeWf_nil {α : Type} [DecidableEq α] (d : α) : storeWf d ([] : Store α) = true := rfl

/-- A memory with nothing listed is in canonical form. -/
@[simp] theorem Memory.wf_nil : Memory.wf [] = true := rfl

/-- A byte write keeps the canonical form. -/
theorem Memory.wf_write {m : Memory} (h : m.wf = true) (a : Nat) (b : BitVec 8) : (m.write a b).wf = true :=
  storeWf_setAt h a b

/-- A write of bytes keeps the canonical form. -/
theorem Memory.wf_writeN : ∀ {m : Memory}, m.wf = true → ∀ (a : Nat) (bs : Bytes), (m.writeN a bs).wf = true
  | _, h, _, [] => h
  | _, h, a, b :: bs => Memory.wf_writeN (Memory.wf_write h a b) (a + 1) bs

/-- The byte written at an address is read there. -/
theorem Memory.read_write_same {m : Memory} (h : m.wf = true) (a : Nat) (b : BitVec 8) : (m.write a b).read a = b :=
  getAt_setAt_same h a b

/-- A byte write leaves every other address alone. -/
theorem Memory.read_write_other {m : Memory} {a k : Nat} (h : k ≠ a) (b : BitVec 8) : (m.write a b).read k = m.read k :=
  getAt_setAt_other h m b

/-- A write of bytes leaves every address outside them alone. -/
theorem Memory.read_writeN_outside {k : Nat} :
    ∀ {m : Memory} {a : Nat} {bs : Bytes}, k < a ∨ a + bs.length ≤ k → (m.writeN a bs).read k = m.read k
  | _, _, [], _ => rfl
  | m, a, b :: bs, h => by
    have hk : k ≠ a := by
      simp only [List.length_cons] at h
      omega
    have hs : k < a + 1 ∨ a + 1 + bs.length ≤ k := by
      simp only [List.length_cons] at h
      omega
    show (Memory.writeN (m.write a b) (a + 1) bs).read k = m.read k
    rw [Memory.read_writeN_outside hs, Memory.read_write_other hk]

/-- A write of bytes is read back from its addresses. -/
theorem Memory.read_writeN_inside :
    ∀ {m : Memory} {a : Nat} {bs : Bytes} {i : Nat}, m.wf = true → i < bs.length →
      (m.writeN a bs).read (a + i) = bs.getD i 0
  | _, _, [], i, _, h => by simp at h
  | m, a, b :: bs, 0, hw, _ => by
    show (Memory.writeN (m.write a b) (a + 1) bs).read (a + 0) = _
    rw [Memory.read_writeN_outside (.inl (by omega))]
    simpa using Memory.read_write_same hw a b
  | m, a, b :: bs, i + 1, hw, h => by
    show (Memory.writeN (m.write a b) (a + 1) bs).read (a + (i + 1)) = _
    have := Memory.read_writeN_inside (a := a + 1) (bs := bs) (i := i) (Memory.wf_write hw a b)
      (by simpa using h)
    rw [show a + (i + 1) = a + 1 + i by omega, this]
    simp

/-- Reading `n` bytes gives `n` bytes. -/
@[simp] theorem Memory.readN_length (m : Memory) : ∀ (n a : Nat), (m.readN a n).length = n
  | 0, _ => rfl
  | n + 1, a => by simp [Memory.readN, Memory.readN_length m n (a + 1)]

/-- A part cut out of a string has the length asked for. -/
@[simp] theorem cut_length (bs : Bytes) (off n : Nat) : (cut bs off n).length = n := by
  simp only [cut, List.length_append, List.length_replicate, List.length_take]
  omega

/-- Little-endian bytes are as many as asked for. -/
@[simp] theorem le_length : ∀ (n v : Nat), (le n v).length = n
  | 0, _ => rfl
  | n + 1, v => by simp [le, le_length n]

/-- Big-endian bytes are as many as asked for. -/
@[simp] theorem be_length (n v : Nat) : (be n v).length = n := by simp [be]

/-- The value of little-endian bytes is the value they were made of, modulo their size. -/
theorem leVal_le : ∀ (n v : Nat), leVal (le n v) = v % 256 ^ n
  | 0, v => by simp [le, leVal, Nat.mod_one]
  | n + 1, v => by
    have h := leVal_le n (v / 256)
    simp only [le, leVal, h, BitVec.toNat_ofNat]
    show v % 256 + 256 * (v / 256 % 256 ^ n) = v % 256 ^ (n + 1)
    rw [show (256 : Nat) ^ (n + 1) = 256 * 256 ^ n from by rw [Nat.pow_succ, Nat.mul_comm], Nat.mod_mul]

/-- A field written into a value is read back. -/
theorem bits_putBits (v lo w x : Nat) : bits (putBits v lo w x) lo w = x % 2 ^ w := by
  unfold bits putBits
  unfold bits
  rw [Nat.mul_comm (2 ^ lo) (v / 2 ^ lo % 2 ^ w), Nat.mul_comm (2 ^ lo) (x % 2 ^ w)]
  have hp : 0 < 2 ^ lo := Nat.two_pow_pos lo
  have hw : 0 < 2 ^ w := Nat.two_pow_pos w
  have h1 : v / 2 ^ lo % 2 ^ w * 2 ^ lo ≤ v :=
    Nat.le_trans (Nat.mul_le_mul_right _ (Nat.mod_le _ _)) (Nat.div_mul_le_self v _)
  have h2 : (v - v / 2 ^ lo % 2 ^ w * 2 ^ lo + x % 2 ^ w * 2 ^ lo) / 2 ^ lo =
      v / 2 ^ lo - v / 2 ^ lo % 2 ^ w + x % 2 ^ w := by
    rw [Nat.add_mul_div_right _ _ hp, Nat.mul_comm _ (2 ^ lo), Nat.sub_mul_div_of_le]
    rwa [Nat.mul_comm] at h1
  rw [h2]
  have h3 : v / 2 ^ lo - v / 2 ^ lo % 2 ^ w = 2 ^ w * (v / 2 ^ lo / 2 ^ w) := by
    have := Nat.div_add_mod (v / 2 ^ lo) (2 ^ w)
    omega
  rw [h3, Nat.mul_add_mod, Nat.mod_mod]

end Sys2Proof.Machine
end

