-- ==== Sys2Proof/Laws/WatchBase.lean ====
section
/-! SUPPORT. What the watched part of a state (Safety) has to do with one update of the state: the lemmas from which the
files that follow show, operation by operation, that the watched part is left alone. -/

namespace Sys2Proof.Machine

/-- An outcome that leaves the watched part of a state as it was. -/
def outKeeps (o : Host.Outcome State Fault Refusal) (w : Watch) : Prop :=
  match o with
  | .next t => t.watch = w
  | _ => True

/-- An effect that leaves the watched part of a state as it was. -/
def Effect.Keeps (e : Effect) (w : Watch) : Prop :=
  match e with
  | .done _ t => t.watch = w
  | .later t => t.watch = w
  | .wait => True

@[simp ↓] theorem outKeeps_next (t : State) (w : Watch) : outKeeps (.next t) w = (t.watch = w) := rfl
@[simp ↓] theorem Effect.keeps_done (r : Reply) (t : State) (w : Watch) : (Effect.done r t).Keeps w = (t.watch = w) := rfl
@[simp ↓] theorem Effect.keeps_later (t : State) (w : Watch) : (Effect.later t).Keeps w = (t.watch = w) := rfl
@[simp ↓] theorem Effect.keeps_wait (w : Watch) : Effect.wait.Keeps w := True.intro

@[simp ↓] theorem State.withDma_watch (s : State) (v : DmaStt) (h : v.staging = s.dma.staging) :
    (s.withDma v).watch = s.watch := by
  simp [State.watch, h]
@[simp ↓] theorem State.withDdr_watch (s : State) (v : DdrStt) (h : v.mem = s.ddr.mem) :
    (s.withDdr v).watch = s.watch := by
  simp [State.watch, h]
@[simp ↓] theorem State.withPwr_watch (s : State) (v : PwrSt) (h : v.used = s.pwr.used) (h' : v.grants = s.pwr.grants) :
    (s.withPwr v).watch = s.watch := by
  simp [State.watch, h, h']
@[simp ↓] theorem State.withPending_watch (s : State) (v : List Instr) (h : v = s.pending) :
    (s.withPending v).watch = s.watch := by
  simp [State.watch, h]

@[simp ↓] theorem ite_watch (c : Prop) [Decidable c] (a b : State) :
    (if c then a else b).watch = if c then a.watch else b.watch := apply_ite ..

/-- A fold of updates that leave the watched part alone leaves it alone. -/
@[simp ↓] theorem foldl_watch {α : Type} (f : State → α → State) (l : List α) (s : State)
    (h : ∀ s a, (f s a).watch = s.watch) : (l.foldl f s).watch = s.watch := by
  induction l generalizing s with
  | nil => rfl
  | cons a l ih => simp [ih, h]

/-- The same of a fold from the right. -/
@[simp ↓] theorem foldr_watch {α : Type} (f : α → State → State) (l : List α) (s : State)
    (h : ∀ a s, (f a s).watch = s.watch) : (l.foldr f s).watch = s.watch := by
  induction l with
  | nil => rfl
  | cons a l ih => rw [List.foldr_cons, h, ih]

/-- The same of a fold whose accumulator holds the state first. -/
@[simp ↓] theorem foldl_fst_watch {α β : Type} (f : State × β → α → State × β) (l : List α) (p : State × β)
    (h : ∀ p a, (f p a).1.watch = p.1.watch) : (l.foldl f p).1.watch = p.1.watch := by
  induction l generalizing p with
  | nil => rfl
  | cons a l ih => simp only [List.foldl_cons, ih, h]

/-- The same of a fold whose accumulator holds the state last. -/
@[simp ↓] theorem foldl_snd_watch {α β : Type} (f : β × State → α → β × State) (l : List α) (p : β × State)
    (h : ∀ p a, (f p a).2.watch = p.2.watch) : (l.foldl f p).2.watch = p.2.watch := by
  induction l generalizing p with
  | nil => rfl
  | cons a l ih => simp only [List.foldl_cons, ih, h]

@[simp ↓] theorem State.withOut_watch (s : State) (v : List Out) : (s.withOut v).watch = s.watch := by cases s; rfl
@[simp ↓] theorem State.withFree_watch (s : State) (v : Nat) : (s.withFree v).watch = s.watch := by cases s; rfl
@[simp ↓] theorem State.withClk_watch (s : State) (v : Clk) : (s.withClk v).watch = s.watch := by cases s; rfl
@[simp ↓] theorem State.withRegs_watch (s : State) (v : Regs) : (s.withRegs v).watch = s.watch := by cases s; rfl
@[simp ↓] theorem State.withTime_watch (s : State) (v : TimeSt) : (s.withTime v).watch = s.watch := by cases s; rfl
@[simp ↓] theorem State.withOwn_watch (s : State) (v : OwnSt) : (s.withOwn v).watch = s.watch := by cases s; rfl
@[simp ↓] theorem State.withHost_watch (s : State) (v : HostSt) : (s.withHost v).watch = s.watch := by cases s; rfl
@[simp ↓] theorem State.withCtr_watch (s : State) (v : CtrSt) : (s.withCtr v).watch = s.watch := by cases s; rfl
@[simp ↓] theorem State.withPmc_watch (s : State) (v : Store Pmc) : (s.withPmc v).watch = s.watch := by cases s; rfl
@[simp ↓] theorem State.withPorts_watch (s : State) (v : PortSt) : (s.withPorts v).watch = s.watch := by cases s; rfl
@[simp ↓] theorem State.withSlices_watch (s : State) (v : SliceSt) : (s.withSlices v).watch = s.watch := by cases s; rfl
@[simp ↓] theorem State.withSeq_watch (s : State) (v : SeqSt) : (s.withSeq v).watch = s.watch := by cases s; rfl
@[simp ↓] theorem State.withTen_watch (s : State) (v : TenSt) : (s.withTen v).watch = s.watch := by cases s; rfl
@[simp ↓] theorem State.withFs_watch (s : State) (v : FsSt) : (s.withFs v).watch = s.watch := by cases s; rfl
@[simp ↓] theorem State.withTbl_watch (s : State) (v : TblSt) : (s.withTbl v).watch = s.watch := by cases s; rfl
@[simp ↓] theorem State.withEng_watch (s : State) (v : EngSt) : (s.withEng v).watch = s.watch := by cases s; rfl
@[simp ↓] theorem State.withBuf_watch (s : State) (v : BufSt) : (s.withBuf v).watch = s.watch := by cases s; rfl
@[simp ↓] theorem State.withStk_watch (s : State) (v : StkSt) : (s.withStk v).watch = s.watch := by cases s; rfl
@[simp ↓] theorem State.withFt_watch (s : State) (v : FtSt) : (s.withFt v).watch = s.watch := by cases s; rfl
@[simp ↓] theorem State.withImg_watch (s : State) (v : ImgSt) : (s.withImg v).watch = s.watch := by cases s; rfl
@[simp ↓] theorem State.withBoot_watch (s : State) (v : BootSt) : (s.withBoot v).watch = s.watch := by cases s; rfl

end Sys2Proof.Machine
end

