-- ==== Sys2Proof/Laws/WatchFrames.lean ====
section
/-! SUPPORT. That the shared operations, the rings, the ports and the frame path leave the watched part of a state (Safety) alone: one lemma for each definition. -/

namespace Sys2Proof.Machine

/-! Ops. -/

@[simp ↓] theorem setRing_watch (x0 : State) (x1 : Nat) (x2 : Nat) (x3 : Ring) :
    (setRing x0 x1 x2 x3).watch = x0.watch := by
  unfold setRing
  simp

@[simp ↓] theorem setSub_watch (x0 : State) (x1 : Nat) (x2 : Sub) :
    (setSub x0 x1 x2).watch = x0.watch := by
  unfold setSub
  simp

@[simp ↓] theorem setLane_watch (x0 : State) (x1 : Nat) (x2 : Lane) :
    (setLane x0 x1 x2).watch = x0.watch := by
  unfold setLane
  simp

@[simp ↓] theorem setSlice_watch (x0 : State) (x1 : Nat) (x2 : Slice) :
    (setSlice x0 x1 x2).watch = x0.watch := by
  unfold setSlice
  simp

@[simp ↓] theorem setFrame_watch (x0 : State) (x1 : Nat) (x2 : Option Frame) :
    (setFrame x0 x1 x2).watch = x0.watch := by
  unfold setFrame
  simp

@[simp ↓] theorem emit_watch (x0 : State) (x1 : Out) :
    (emit x0 x1).watch = x0.watch := by
  unfold emit
  simp

@[simp ↓] theorem draw_watch (x0 : State) :
    (draw x0).2.watch = x0.watch := by
  unfold draw
  simp

theorem draw_out (x0 : State) {t : State} {v} (h : draw x0 = (v, t)) : t.watch = x0.watch := by
  have e := draw_watch x0
  rw [h] at e
  exact e

@[simp ↓] theorem setReg_watch (x0 : State) (x1 : Reg) (x2 : Nat) (x3 : Nat) :
    (setReg x0 x1 x2 x3).watch = x0.watch := by
  unfold setReg
  simp

@[simp ↓] theorem setRegField_watch (x0 : State) (x1 : Reg) (x2 : Nat) (x3 : Nat) (x4 : Nat) (x5 : Nat) :
    (setRegField x0 x1 x2 x3 x4 x5).watch = x0.watch := by
  unfold setRegField
  simp

@[simp ↓] theorem setDomain_watch (x0 : State) (x1 : Nat) (x2 : Domain) :
    (setDomain x0 x1 x2).watch = x0.watch := by
  unfold setDomain
  simp

@[simp ↓] theorem count_watch (x0 : State) (x1 : Nat) (x2 : Nat) (x3 : Nat) (x4 : Nat) :
    (count x0 x1 x2 x3 x4).watch = x0.watch := by
  unfold count
  simp

@[simp ↓] theorem touch_watch (x0 : State) (x1 : Nat) (x2 : Nat) (x3 : Nat) :
    (touch x0 x1 x2 x3).watch = x0.watch := by
  unfold touch
  simp

@[simp ↓] theorem leaveOut_watch (x0 : Nat) (x1 : List LateCount) (x2 : State) :
    (leaveOut x0 x1 x2).1.watch = x2.watch := by
  fun_induction leaveOut x0 x1 x2 <;> (try simp_all +zetaDelta) <;> grind [draw_out]

theorem leaveOut_out (x0 : Nat) (x1 : List LateCount) (x2 : State) {t : State} {v} (h : leaveOut x0 x1 x2 = (t, v)) :
    t.watch = x2.watch := by
  have e := leaveOut_watch x0 x1 x2
  rw [h] at e
  exact e

@[simp ↓] theorem sampleCount_watch (x0 : State) (x1 : Nat) (x2 : Nat) (x3 : Nat) :
    (sampleCount x0 x1 x2 x3).1.watch = x0.watch := by
  unfold sampleCount
  simp

theorem sampleCount_out (x0 : State) (x1 : Nat) (x2 : Nat) (x3 : Nat) {t : State} {v} (h : sampleCount x0 x1 x2 x3 =
    (t, v)) : t.watch = x0.watch := by
  have e := sampleCount_watch x0 x1 x2 x3
  rw [h] at e
  exact e

@[simp ↓] theorem sampleCounter_watch (x0 : State) (x1 : Nat) (x2 : Nat) (x3 : Nat) :
    (sampleCounter x0 x1 x2 x3).1.watch = x0.watch := by
  unfold sampleCounter
  simp

theorem sampleCounter_out (x0 : State) (x1 : Nat) (x2 : Nat) (x3 : Nat) {t : State} {v} (h : sampleCounter x0 x1 x2 x3
    = (t, v)) : t.watch = x0.watch := by
  have e := sampleCounter_watch x0 x1 x2 x3
  rw [h] at e
  exact e

@[simp ↓] theorem sampleCounters_watch (x0 : State) (x1 : Nat) (x2 : Nat) (x3 : List Nat) :
    (sampleCounters x0 x1 x2 x3).1.watch = x0.watch := by
  fun_induction sampleCounters x0 x1 x2 x3 <;> (try simp_all +zetaDelta) <;> grind [sampleCounter_out]

theorem sampleCounters_out (x0 : State) (x1 : Nat) (x2 : Nat) (x3 : List Nat) {t : State} {v} (h : sampleCounters x0
    x1 x2 x3 = (t, v)) : t.watch = x0.watch := by
  have e := sampleCounters_watch x0 x1 x2 x3
  rw [h] at e
  exact e

@[simp ↓] theorem sampleGauge_watch (x0 : State) (x1 : Nat) (x2 : Nat) (x3 : Nat) (x4 : Nat) :
    (sampleGauge x0 x1 x2 x3 x4).1.watch = x0.watch := by
  unfold sampleGauge
  (try dsimp only)
  (repeat' split) <;> simp

theorem sampleGauge_out (x0 : State) (x1 : Nat) (x2 : Nat) (x3 : Nat) (x4 : Nat) {t : State} {v} (h : sampleGauge x0
    x1 x2 x3 x4 = (t, v)) : t.watch = x0.watch := by
  have e := sampleGauge_watch x0 x1 x2 x3 x4
  rw [h] at e
  exact e

@[simp ↓] theorem countReserved_watch (x0 : State) (x1 : Nat) (x2 : Nat) :
    (countReserved x0 x1 x2).watch = x0.watch := by
  unfold countReserved
  simp

@[simp ↓] theorem countNonOwner_watch (x0 : State) (x1 : Nat) :
    (countNonOwner x0 x1).watch = x0.watch := by
  unfold countNonOwner
  simp

@[simp ↓] theorem hostWrite_watch (x0 : State) (x1 : Nat) (x2 : Nat) (x3 : Bytes) :
    (hostWrite x0 x1 x2 x3).watch = x0.watch := by
  unfold hostWrite
  simp

@[simp ↓] theorem writeBack_watch (x0 : State) (x1 : Nat) (x2 : Nat) (x3 : Nat) :
    (writeBack x0 x1 x2 x3).watch = x0.watch := by
  unfold writeBack
  simp

@[simp ↓] theorem sendMsix_watch (x0 : State) (x1 : Nat) (x2 : Nat) :
    (sendMsix x0 x1 x2).watch = x0.watch := by
  unfold sendMsix
  simp

@[simp ↓] theorem signal_watch (x0 : State) (x1 : Nat) (x2 : Nat) (x3 : Nat) :
    (signal x0 x1 x2 x3).watch = x0.watch := by
  unfold signal
  simp

@[simp ↓] theorem putEntries_watch (x0 : State) (x1 : Nat) (x2 : Nat) (x3 : List (Nat → Bytes)) :
    (putEntries x0 x1 x2 x3).watch = x0.watch := by
  fun_induction putEntries x0 x1 x2 x3 <;> simp_all +zetaDelta

@[simp ↓] theorem post_watch (x0 : State) (x1 : Nat) (x2 : Nat) (x3 : List (Nat → Bytes)) :
    (post x0 x1 x2 x3).watch = x0.watch := by
  unfold post
  simp

@[simp ↓] theorem discardOn_watch (x0 : State) (x1 : Nat) (x2 : Nat) :
    (discardOn x0 x1 x2).watch = x0.watch := by
  unfold discardOn
  simp

@[simp ↓] theorem telPost_watch (x0 : State) (x1 : Nat) (x2 : Nat) (x3 : Bytes) :
    (telPost x0 x1 x2 x3).1.watch = x0.watch := by
  unfold telPost
  (try dsimp only)
  (repeat' split) <;> simp

theorem telPost_out (x0 : State) (x1 : Nat) (x2 : Nat) (x3 : Bytes) {t : State} {v} (h : telPost x0 x1 x2 x3 = (t, v))
    : t.watch = x0.watch := by
  have e := telPost_watch x0 x1 x2 x3
  rw [h] at e
  exact e

@[simp ↓] theorem setBond_watch (x0 : State) (x1 : Nat) (x2 : Bond) :
    (setBond x0 x1 x2).watch = x0.watch := by
  unfold setBond
  simp

@[simp ↓] theorem sendCell_watch (x0 : State) (x1 : Nat) (x2 : Nat) (x3 : Bytes) :
    (sendCell x0 x1 x2 x3).watch = x0.watch := by
  unfold sendCell
  simp

@[simp ↓] theorem sendRelayCells_watch (x0 : State) (x1 : Nat) (x2 : Nat) (x3 : Nat) (x4 : Nat) (x5 : Bool) (x6 : List
    Bytes) :
    (sendRelayCells x0 x1 x2 x3 x4 x5 x6).watch = x0.watch := by
  fun_induction sendRelayCells x0 x1 x2 x3 x4 x5 x6 <;> simp_all +zetaDelta

@[simp ↓] theorem relayTo_watch (x0 : State) (x1 : Nat) (x2 : Nat) (x3 : Nat) (x4 : Nat) (x5 : Bytes) :
    (relayTo x0 x1 x2 x3 x4 x5).watch = x0.watch := by
  unfold relayTo
  (repeat' split) <;> simp

@[simp ↓] theorem postEventOn_watch (x0 : State) (x1 : Nat) (x2 : Nat) (x3 : Nat) (x4 : Nat) (x5 : Nat) (x6 : Nat) (x7
    : Bytes) :
    (postEventOn x0 x1 x2 x3 x4 x5 x6 x7).watch = x0.watch := by
  unfold postEventOn
  simp

@[simp ↓] theorem routeEvent_watch (x0 : State) (x1 : Nat) (x2 : Nat) (x3 : Nat) (x4 : Nat) (x5 : Bytes) :
    (routeEvent x0 x1 x2 x3 x4 x5).watch = x0.watch := by
  unfold routeEvent
  simp

@[simp ↓] theorem postEvent_watch (x0 : State) (x1 : Nat) (x2 : Nat) (x3 : Nat) (x4 : Bytes) :
    (postEvent x0 x1 x2 x3 x4).watch = x0.watch := by
  unfold postEvent
  (repeat' split) <;> simp

@[simp ↓] theorem setPmc_watch (x0 : State) (x1 : Nat) (x2 : Pmc) :
    (setPmc x0 x1 x2).watch = x0.watch := by
  unfold setPmc
  simp

@[simp ↓] theorem pmcAdd_watch (x0 : State) (x1 : Nat) (x2 : Nat) :
    (pmcAdd x0 x1 x2).watch = x0.watch := by
  unfold pmcAdd
  simp

@[simp ↓] theorem countPmc_watch (x0 : State) (x1 : PmcEvent) (x2 : Nat) :
    (countPmc x0 x1 x2).watch = x0.watch := by
  unfold countPmc
  simp

@[simp ↓] theorem nonOwner_watch (x0 : State) (x1 : Nat) (x2 : Option Nat) :
    (nonOwner x0 x1 x2).watch = x0.watch := by
  unfold nonOwner
  simp

@[simp ↓] theorem stopRing_watch (x0 : State) (x1 : Nat) (x2 : Nat) (x3 : Nat) :
    (stopRing x0 x1 x2 x3).watch = x0.watch := by
  unfold stopRing
  simp

@[simp ↓] theorem ringError_watch (x0 : State) (x1 : Nat) (x2 : Nat) (x3 : Nat) :
    (ringError x0 x1 x2 x3).watch = x0.watch := by
  unfold ringError
  simp

@[simp ↓] theorem writeResult_watch (x0 : State) (x1 : Accepted) (x2 : Reply) :
    (writeResult x0 x1 x2).watch = x0.watch := by
  unfold writeResult
  (repeat' split) <;> simp

@[simp ↓] theorem postCompletion_watch (x0 : State) (x1 : Accepted) (x2 : Reply) :
    (postCompletion x0 x1 x2).watch = x0.watch := by
  unfold postCompletion
  (repeat' split) <;> simp

@[simp ↓] theorem completeCmd_watch (x0 : State) (x1 : Accepted) (x2 : Reply) :
    (completeCmd x0 x1 x2).watch = x0.watch := by
  unfold completeCmd
  simp

@[simp ↓] theorem finish_watch (x0 : State) (x1 : Nat) (x2 : Reply) :
    (finish x0 x1 x2).watch = x0.watch := by
  unfold finish
  (repeat' split) <;> simp

@[simp ↓] theorem consumeDesc_watch (x0 : State) (x1 : Source) :
    (consumeDesc x0 x1).watch = x0.watch := by
  unfold consumeDesc
  (repeat' split) <;> simp

@[simp ↓] theorem accept_watch (x0 : State) (x1 : Source) (x2 : Nat) (x3 : Nat) (x4 : Nat) (x5 : Bool) (x6 : Bool) (x7
    : Nat) (x8 : Nat) (x9 : Nat) (x10 : Bool) :
    (accept x0 x1 x2 x3 x4 x5 x6 x7 x8 x9 x10).1.watch = x0.watch := by
  unfold accept
  (try dsimp only)
  (repeat' split) <;> simp

theorem accept_out (x0 : State) (x1 : Source) (x2 : Nat) (x3 : Nat) (x4 : Nat) (x5 : Bool) (x6 : Bool) (x7 : Nat) (x8
    : Nat) (x9 : Nat) (x10 : Bool) {t : State} {v} (h : accept x0 x1 x2 x3 x4 x5 x6 x7 x8 x9 x10 = (t, v)) : t.watch =
    x0.watch := by
  have e := accept_watch x0 x1 x2 x3 x4 x5 x6 x7 x8 x9 x10
  rw [h] at e
  exact e

@[simp ↓] theorem startCmd_watch (s : State) (a : Accepted) (x y : Bool) (body : Nat → State → Effect)
    (h : ∀ n t, (body n t).Keeps t.watch) : (startCmd s a x y body).watch = s.watch := by
  unfold startCmd
  dsimp only
  split
  · rfl
  · split
    · simp
    · split
      · simp
      · split
        · next r t e =>
          have k := h a.aseq (s.withHost { s.host with
            accepted := s.host.accepted.map (fun b =>
              if b.aseq = a.aseq then { b with started := true, resultOk := y } else b) })
          simp only [e, Effect.keeps_done] at k
          split <;> simp [k]
        · next t e =>
          have k := h a.aseq (s.withHost { s.host with
            accepted := s.host.accepted.map (fun b =>
              if b.aseq = a.aseq then { b with started := true, resultOk := y } else b) })
          simp only [e, Effect.keeps_later] at k
          simp [k]
        · rfl

@[simp ↓] theorem runCommand_watch (c : Cmd) (op : Nat) (body : Nat → State → Effect) (s : State)
    (h : ∀ n t, (body n t).Keeps t.watch) : outKeeps (runCommand c op body s) s.watch := by
  unfold runCommand
  split
  · rfl
  · split
    · exact startCmd_watch _ _ _ _ _ h
    · split
      · next e => simp [startCmd_watch _ _ _ _ _ h, accept_out _ _ _ _ _ _ _ _ _ _ _ e]
      · next e => simp [accept_out _ _ _ _ _ _ _ _ _ _ _ e]

/-! Power. -/

@[simp ↓] theorem setBlk_watch (x0 : State) (x1 : BlockKind) (x2 : Nat) (x3 : Blk) :
    (setBlk x0 x1 x2 x3).watch = x0.watch := by
  unfold setBlk
  simp

@[simp ↓] theorem putBlk_watch (x0 : State) (x1 : BlockKind) (x2 : Nat) (x3 : SleepSt) :
    (putBlk x0 x1 x2 x3).watch = x0.watch := by
  unfold putBlk
  simp

@[simp ↓] theorem wakeRequest_watch (x0 : State) (x1 : BlockKind) (x2 : List Nat) (x3 : Bool) :
    (wakeRequest x0 x1 x2 x3).watch = x0.watch := by
  unfold wakeRequest
  (repeat' split) <;> simp

@[simp ↓] theorem execWakeRequest_watch (x0 : BlockKind) (x1 : List Nat) (x2 : Bool) (x3 : State) :
    outKeeps (execWakeRequest x0 x1 x2 x3) x3.watch := by
  unfold execWakeRequest
  simp

@[simp ↓] theorem withdrawLanes_watch (x0 : State) (x1 : List Nat) :
    (withdrawLanes x0 x1).watch = x0.watch := by
  unfold withdrawLanes
  simp

@[simp ↓] theorem wakeWithin_watch (x0 : State) (x1 : BlockKind) (x2 : Nat) (x3 : Nat) :
    (wakeWithin x0 x1 x2 x3).watch = x0.watch := by
  unfold wakeWithin
  simp

@[simp ↓] theorem beginWake_watch (x0 : State) (x1 : BlockKind) (x2 : Nat) :
    (beginWake x0 x1 x2).watch = x0.watch := by
  unfold beginWake
  simp

@[simp ↓] theorem finishAll_watch (x0 : State) (x1 : Reply) (x2 : List Nat) :
    (finishAll x0 x1 x2).watch = x0.watch := by
  fun_induction finishAll x0 x1 x2 <;> simp_all +zetaDelta

@[simp ↓] theorem blockReady_watch (x0 : State) (x1 : BlockKind) (x2 : Nat) :
    (blockReady x0 x1 x2).watch = x0.watch := by
  unfold blockReady
  simp

@[simp ↓] theorem retireBlk_watch (x0 : State) (x1 : BlockKind) (x2 : Nat) :
    (retireBlk x0 x1 x2).watch = x0.watch := by
  unfold retireBlk
  simp

@[simp ↓] theorem wakeLate_watch (x0 : State) (x1 : BlockKind) (x2 : Nat) :
    (wakeLate x0 x1 x2).watch = x0.watch := by
  unfold wakeLate
  simp

@[simp ↓] theorem sensorSample_watch (x0 : State) (x1 : Nat) (x2 : Int) :
    (sensorSample x0 x1 x2).watch = x0.watch := by
  unfold sensorSample
  simp

@[simp ↓] theorem sensorSamples_watch (x0 : State) (x1 : Nat) (x2 : List Int) :
    (sensorSamples x0 x1 x2).watch = x0.watch := by
  fun_induction sensorSamples x0 x1 x2 <;> simp_all +zetaDelta

@[simp ↓] theorem railSample_watch (x0 : State) (x1 : List Nat) (x2 : Nat) (x3 : Nat) :
    (railSample x0 x1 x2 x3).watch = x0.watch := by
  unfold railSample
  simp

@[simp ↓] theorem railSamples_watch (x0 : State) (x1 : List Nat) (x2 : Nat) (x3 : List Nat) :
    (railSamples x0 x1 x2 x3).watch = x0.watch := by
  fun_induction railSamples x0 x1 x2 x3 <;> simp_all +zetaDelta

@[simp ↓] theorem lowerRails_watch (x0 : State) :
    (lowerRails x0).watch = x0.watch := by
  unfold lowerRails
  simp

@[simp ↓] theorem driveAlive_watch (x0 : State) (x1 : Bool) :
    (driveAlive x0 x1).watch = x0.watch := by
  unfold driveAlive
  simp

@[simp ↓] theorem thermalTrip_watch (x0 : State) :
    (thermalTrip x0).watch = x0.watch := by
  unfold thermalTrip
  simp

@[simp ↓] theorem execHealthSample_watch (x0 : List Int) (x1 : List Nat) (x2 : List Nat) (x3 : State) :
    outKeeps (execHealthSample x0 x1 x2 x3) x3.watch := by
  unfold execHealthSample
  (try dsimp only)
  (repeat' split) <;> simp

@[simp ↓] theorem execPowerStatus_watch (x0 : Cmd) (x1 : BitVec 8) (x2 : BitVec 16) (x3 : State) :
    outKeeps (execPowerStatus x0 x1 x2 x3) x3.watch := by
  unfold execPowerStatus
  refine runCommand_watch _ _ _ _ (fun aseq s => ?_)
  (try dsimp only)
  (repeat' split) <;> simp

@[simp ↓] theorem execPowerWake_watch (x0 : Cmd) (x1 : BitVec 8) (x2 : BitVec 16) (x3 : State) :
    outKeeps (execPowerWake x0 x1 x2 x3) x3.watch := by
  unfold execPowerWake
  refine runCommand_watch _ _ _ _ (fun aseq s => ?_)
  (try dsimp only)
  (repeat' split) <;> simp

@[simp ↓] theorem execPowerHold_watch (x0 : Cmd) (x1 : BitVec 8) (x2 : BitVec 16) (x3 : BitVec 8) (x4 : State) :
    outKeeps (execPowerHold x0 x1 x2 x3 x4) x4.watch := by
  unfold execPowerHold
  refine runCommand_watch _ _ _ _ (fun aseq s => ?_)
  (try dsimp only)
  (repeat' split) <;> simp

@[simp ↓] theorem execHealthStatus_watch (x0 : Cmd) (x1 : BitVec 64) (x2 : State) :
    outKeeps (execHealthStatus x0 x1 x2) x2.watch := by
  unfold execHealthStatus
  refine runCommand_watch _ _ _ _ (fun aseq s => ?_)
  (try dsimp only)
  (repeat' split) <;> simp

@[simp ↓] theorem execWakeStatus_watch (x0 : Cmd) (x1 : State) :
    outKeeps (execWakeStatus x0 x1) x1.watch := by
  unfold execWakeStatus
  refine runCommand_watch _ _ _ _ (fun aseq s => ?_)
  (try dsimp only)
  (repeat' split) <;> simp

/-! Joint. -/

@[simp ↓] theorem setEnt_watch (x0 : State) (x1 : Nat) (x2 : Nat) (x3 : Nat) (x4 : Ent) :
    (setEnt x0 x1 x2 x3 x4).watch = x0.watch := by
  unfold setEnt
  simp

@[simp ↓] theorem setBuckets_watch (x0 : State) (x1 : Nat) (x2 : Buckets) :
    (setBuckets x0 x1 x2).watch = x0.watch := by
  unfold setBuckets
  simp

@[simp ↓] theorem setLevel_watch (x0 : State) (x1 : Nat) (x2 : Nat) (x3 : Nat) :
    (setLevel x0 x1 x2 x3).watch = x0.watch := by
  unfold setLevel
  simp

@[simp ↓] theorem setRefusing_watch (x0 : State) (x1 : Nat) (x2 : Bool) :
    (setRefusing x0 x1 x2).watch = x0.watch := by
  unfold setRefusing
  simp

@[simp ↓] theorem checkRestored_watch (x0 : State) (x1 : Nat) :
    (checkRestored x0 x1).watch = x0.watch := by
  unfold checkRestored
  simp

@[simp ↓] theorem checkExhausted_watch (x0 : State) (x1 : Nat) (x2 : Nat) :
    (checkExhausted x0 x1 x2).watch = x0.watch := by
  unfold checkExhausted
  simp

@[simp ↓] theorem takeToken_watch (x0 : State) (x1 : Nat) (x2 : Nat) :
    (takeToken x0 x1 x2).watch = x0.watch := by
  unfold takeToken
  simp

@[simp ↓] theorem returnToken_watch (x0 : State) (x1 : Nat) (x2 : Nat) :
    (returnToken x0 x1 x2).watch = x0.watch := by
  unfold returnToken
  simp

@[simp ↓] theorem fillBucket_watch (x0 : State) (x1 : Nat) (x2 : Nat) :
    (fillBucket x0 x1 x2).watch = x0.watch := by
  unfold fillBucket
  simp

@[simp ↓] theorem bucketTick_watch (x0 : State) (x1 : Nat) (x2 : Bool) (x3 : Nat) :
    (bucketTick x0 x1 x2 x3).watch = x0.watch := by
  unfold bucketTick
  simp

@[simp ↓] theorem othersEmpty_watch (x0 : State) (x1 : Nat) :
    (othersEmpty x0 x1).watch = x0.watch := by
  unfold othersEmpty
  simp

@[simp ↓] theorem bucketsTick_watch (x0 : State) (x1 : Nat) (x2 : Bool) :
    (bucketsTick x0 x1 x2).watch = x0.watch := by
  unfold bucketsTick
  simp

/-! Shed. -/

@[simp ↓] theorem startLpiExit_watch (x0 : State) (x1 : Nat) :
    (startLpiExit x0 x1).watch = x0.watch := by
  unfold startLpiExit
  simp

@[simp ↓] theorem beginShed_watch (x0 : State) (x1 : Nat) (x2 : Bytes) :
    (beginShed x0 x1 x2).watch = x0.watch := by
  unfold beginShed
  simp

@[simp ↓] theorem sendShed_watch (x0 : State) (x1 : Nat) (x2 : Nat) (x3 : Nat) (x4 : Nat) (x5 : Nat) (x6 : Nat) :
    (sendShed x0 x1 x2 x3 x4 x5 x6).watch = x0.watch := by
  unfold sendShed
  simp

@[simp ↓] theorem flushShed_watch (x0 : State) (x1 : Nat) :
    (flushShed x0 x1).watch = x0.watch := by
  unfold flushShed
  simp

@[simp ↓] theorem sendHello_watch (x0 : State) (x1 : Nat) :
    (sendHello x0 x1).watch = x0.watch := by
  unfold sendHello
  simp

@[simp ↓] theorem requestStep_watch (x0 : State) (x1 : Nat) (x2 : Nat) :
    (requestStep x0 x1 x2).watch = x0.watch := by
  unfold requestStep
  simp

@[simp ↓] theorem widenStep_watch (x0 : State) (x1 : Nat) :
    (widenStep x0 x1).watch = x0.watch := by
  unfold widenStep
  simp

@[simp ↓] theorem sleepLane_watch (x0 : State) (x1 : Nat) :
    (sleepLane x0 x1).watch = x0.watch := by
  unfold sleepLane
  simp

@[simp ↓] theorem sleepLanes_watch (x0 : State) (x1 : List Nat) :
    (sleepLanes x0 x1).watch = x0.watch := by
  unfold sleepLanes
  simp

/-! Buffer. -/

@[simp ↓] theorem setCell_watch (x0 : State) (x1 : Nat) (x2 : CellHdr) :
    (setCell x0 x1 x2).watch = x0.watch := by
  unfold setCell
  simp

@[simp ↓] theorem setQueue_watch (x0 : State) (x1 : Nat) (x2 : Queue) :
    (setQueue x0 x1 x2).watch = x0.watch := by
  unfold setQueue
  simp

@[simp ↓] theorem updateXoff_watch (x0 : State) (x1 : Nat) :
    (updateXoff x0 x1).watch = x0.watch := by
  unfold updateXoff
  simp

@[simp ↓] theorem touchCells_watch (x0 : State) (x1 : Nat) :
    (touchCells x0 x1).watch = x0.watch := by
  unfold touchCells
  simp

@[simp ↓] theorem takeCell_watch (x0 : State) (x1 : Nat) (x2 : Option (Nat × Nat)) (x3 : Bool) :
    (takeCell x0 x1 x2 x3).1.watch = x0.watch := by
  unfold takeCell
  (try dsimp only)
  (repeat' split) <;> simp

theorem takeCell_out (x0 : State) (x1 : Nat) (x2 : Option (Nat × Nat)) (x3 : Bool) {t : State} {v} (h : takeCell x0 x1
    x2 x3 = (t, v)) : t.watch = x0.watch := by
  have e := takeCell_watch x0 x1 x2 x3
  rw [h] at e
  exact e

@[simp ↓] theorem takeCells_watch (x0 : State) (x1 : Nat) (x2 : Option (Nat × Nat)) (x3 : Nat) :
    (takeCells x0 x1 x2 x3).1.watch = x0.watch := by
  fun_induction takeCells x0 x1 x2 x3 <;> (try simp_all +zetaDelta) <;> grind [takeCell_out]

theorem takeCells_out (x0 : State) (x1 : Nat) (x2 : Option (Nat × Nat)) (x3 : Nat) {t : State} {v} (h : takeCells x0
    x1 x2 x3 = (t, v)) : t.watch = x0.watch := by
  have e := takeCells_watch x0 x1 x2 x3
  rw [h] at e
  exact e

@[simp ↓] theorem setPol_watch (x0 : State) (x1 : Nat) (x2 : Policer) :
    (setPol x0 x1 x2).watch = x0.watch := by
  unfold setPol
  simp

@[simp ↓] theorem police_watch (x0 : State) (x1 : Frame) :
    (police x0 x1).1.watch = x0.watch := by
  unfold police
  (repeat' split) <;> simp

theorem police_out (x0 : State) (x1 : Frame) {t : State} {v} (h : police x0 x1 = (t, v)) : t.watch = x0.watch := by
  have e := police_watch x0 x1
  rw [h] at e
  exact e

@[simp ↓] theorem ingFree_watch (x0 : State) (x1 : Nat) :
    (ingFree x0 x1).watch = x0.watch := by
  unfold ingFree
  simp

@[simp ↓] theorem orphanRequest_watch (x0 : State) (x1 : Nat) :
    (orphanRequest x0 x1).watch = x0.watch := by
  unfold orphanRequest
  (repeat' split) <;> simp

@[simp ↓] theorem forgetFrame_watch (x0 : State) (x1 : Nat) :
    (forgetFrame x0 x1).watch = x0.watch := by
  unfold forgetFrame
  simp

@[simp ↓] theorem freeCell_watch (x0 : State) (x1 : Nat) :
    (freeCell x0 x1).watch = x0.watch := by
  unfold freeCell
  simp

@[simp ↓] theorem rejectRelease_watch (x0 : State) (x1 : Nat) (x2 : Nat) (x3 : Nat) :
    (rejectRelease x0 x1 x2 x3).watch = x0.watch := by
  unfold rejectRelease
  simp

@[simp ↓] theorem releaseCell_watch (x0 : State) (x1 : Nat) (x2 : Nat) :
    (releaseCell x0 x1 x2).watch = x0.watch := by
  unfold releaseCell
  simp

@[simp ↓] theorem releaseCells_watch (x0 : State) (x1 : Nat) (x2 : List Nat) :
    (releaseCells x0 x1 x2).watch = x0.watch := by
  unfold releaseCells
  simp

@[simp ↓] theorem dropFrame_watch (x0 : State) (x1 : Nat) :
    (dropFrame x0 x1).watch = x0.watch := by
  unfold dropFrame
  (repeat' split) <;> simp

@[simp ↓] theorem joinRound_watch (x0 : State) (x1 : Nat) (x2 : Nat) :
    (joinRound x0 x1 x2).watch = x0.watch := by
  unfold joinRound
  simp

@[simp ↓] theorem notePeak_watch (x0 : State) (x1 : Nat) :
    (notePeak x0 x1).watch = x0.watch := by
  unfold notePeak
  simp

@[simp ↓] theorem countQ_watch (x0 : State) (x1 : Nat) (x2 : Nat) (x3 : Nat) :
    (countQ x0 x1 x2 x3).watch = x0.watch := by
  unfold countQ
  simp

@[simp ↓] theorem pushCopy_watch (x0 : State) (x1 : Nat) (x2 : Frame) (x3 : CopyReq) :
    (pushCopy x0 x1 x2 x3).watch = x0.watch := by
  unfold pushCopy
  simp

@[simp ↓] theorem offerCopy_watch (x0 : State) (x1 : Nat) (x2 : CopyReq) :
    (offerCopy x0 x1 x2).1.watch = x0.watch := by
  unfold offerCopy
  (repeat' split) <;> simp

theorem offerCopy_out (x0 : State) (x1 : Nat) (x2 : CopyReq) {t : State} {v} (h : offerCopy x0 x1 x2 = (t, v)) :
    t.watch = x0.watch := by
  have e := offerCopy_watch x0 x1 x2
  rw [h] at e
  exact e

@[simp ↓] theorem offerCopies_watch (x0 : State) (x1 : Nat) (x2 : List CopyReq) :
    (offerCopies x0 x1 x2).1.watch = x0.watch := by
  fun_induction offerCopies x0 x1 x2 <;> (try simp_all +zetaDelta) <;> grind [offerCopy_out]

theorem offerCopies_out (x0 : State) (x1 : Nat) (x2 : List CopyReq) {t : State} {v} (h : offerCopies x0 x1 x2 = (t,
    v)) : t.watch = x0.watch := by
  have e := offerCopies_watch x0 x1 x2
  rw [h] at e
  exact e

@[simp ↓] theorem assignCell_watch (x0 : State) (x1 : Nat) (x2 : Nat) (x3 : Nat) (x4 : Frame) (x5 : List CopyReq) :
    (assignCell x0 x1 x2 x3 x4 x5).watch = x0.watch := by
  unfold assignCell
  simp

@[simp ↓] theorem assignCells_watch (x0 : State) (x1 : Nat) (x2 : Nat) (x3 : Frame) (x4 : List CopyReq) (x5 : List
    Nat) :
    (assignCells x0 x1 x2 x3 x4 x5).watch = x0.watch := by
  fun_induction assignCells x0 x1 x2 x3 x4 x5 <;> simp_all +zetaDelta

@[simp ↓] theorem settleFrame_watch (x0 : State) (x1 : Nat) :
    (settleFrame x0 x1).watch = x0.watch := by
  unfold settleFrame
  (repeat' split) <;> simp

@[simp ↓] theorem wakeSubs_watch (x0 : State) (x1 : List CopyReq) :
    (wakeSubs x0 x1).watch = x0.watch := by
  unfold wakeSubs
  simp

@[simp ↓] theorem enqueueFrame_watch (x0 : State) (x1 : Nat) (x2 : Nat) (x3 : List CopyReq) :
    (enqueueFrame x0 x1 x2 x3).watch = x0.watch := by
  unfold enqueueFrame
  (try dsimp only)
  (repeat' split) <;> simp

@[simp ↓] theorem popCopy_watch (x0 : State) (x1 : Nat) (x2 : Copy) :
    (popCopy x0 x1 x2).watch = x0.watch := by
  unfold popCopy
  simp

@[simp ↓] theorem releaseCopy_watch (x0 : State) (x1 : Nat) (x2 : Copy) :
    (releaseCopy x0 x1 x2).watch = x0.watch := by
  unfold releaseCopy
  (repeat' split) <;> simp

@[simp ↓] theorem flushCopies_watch (x0 : State) (x1 : Nat) (x2 : List Copy) :
    (flushCopies x0 x1 x2).watch = x0.watch := by
  fun_induction flushCopies x0 x1 x2 <;> simp_all +zetaDelta

@[simp ↓] theorem flushSub_watch (x0 : State) (x1 : Nat) :
    (flushSub x0 x1).1.watch = x0.watch := by
  unfold flushSub
  simp

theorem flushSub_out (x0 : State) (x1 : Nat) {t : State} {v} (h : flushSub x0 x1 = (t, v)) : t.watch = x0.watch := by
  have e := flushSub_watch x0 x1
  rw [h] at e
  exact e

@[simp ↓] theorem allocDrop_watch (x0 : State) (x1 : Frame) :
    (allocDrop x0 x1).watch = x0.watch := by
  unfold allocDrop
  (repeat' split) <;> simp

@[simp ↓] theorem bufferFrame_watch (x0 : State) (x1 : Frame) :
    (bufferFrame x0 x1).1.watch = x0.watch := by
  unfold bufferFrame
  (try dsimp only)
  (repeat' split) <;> simp

theorem bufferFrame_out (x0 : State) (x1 : Frame) {t : State} {v} (h : bufferFrame x0 x1 = (t, v)) : t.watch =
    x0.watch := by
  have e := bufferFrame_watch x0 x1
  rw [h] at e
  exact e

@[simp ↓] theorem lateCell_watch (x0 : State) (x1 : Frame) (x2 : List Copy) (x3 : Nat) (x4 : Nat) :
    (lateCell x0 x1 x2 x3 x4).watch = x0.watch := by
  unfold lateCell
  (repeat' split) <;> simp

@[simp ↓] theorem lateCells_watch (x0 : Frame) (x1 : List Copy) (x2 : Nat) (x3 : List Nat) (x4 : State) :
    (lateCells x0 x1 x2 x3 x4).watch = x4.watch := by
  fun_induction lateCells x0 x1 x2 x3 x4 <;> simp_all +zetaDelta

@[simp ↓] theorem growQueue_watch (x0 : Nat) (x1 : Frame) (x2 : State) (x3 : Nat) :
    (growQueue x0 x1 x2 x3).watch = x2.watch := by
  unfold growQueue
  simp

@[simp ↓] theorem growFrame_watch (x0 : State) (x1 : Nat) :
    (growFrame x0 x1).1.watch = x0.watch := by
  unfold growFrame
  (repeat' split) <;> simp

theorem growFrame_out (x0 : State) (x1 : Nat) {t : State} {v} (h : growFrame x0 x1 = (t, v)) : t.watch = x0.watch := by
  have e := growFrame_watch x0 x1
  rw [h] at e
  exact e

/-! Time. -/

@[simp ↓] theorem setPulse_watch (x0 : State) (x1 : Nat) (x2 : Pulse) :
    (setPulse x0 x1 x2).watch = x0.watch := by
  unfold setPulse
  simp

@[simp ↓] theorem setCapture_watch (x0 : State) (x1 : Nat) (x2 : Capture) :
    (setCapture x0 x1 x2).watch = x0.watch := by
  unfold setCapture
  simp

@[simp ↓] theorem skipEdges_watch (x0 : State) (x1 : Bool) (x2 : Nat) (x3 : Nat) (x4 : Nat) :
    (skipEdges x0 x1 x2 x3 x4).watch = x0.watch := by
  unfold skipEdges
  simp

@[simp ↓] theorem skipAll_watch (x0 : State) (x1 : Bool) (x2 : Nat) (x3 : Nat) :
    (skipAll x0 x1 x2 x3).watch = x0.watch := by
  unfold skipAll
  simp

@[simp ↓] theorem domTo_watch (x0 : State) (x1 : Nat) (x2 : DomState) :
    (domTo x0 x1 x2).watch = x0.watch := by
  unfold domTo
  simp

@[simp ↓] theorem stepDomain_watch (x0 : State) (x1 : Nat) (x2 : Int) :
    (stepDomain x0 x1 x2).watch = x0.watch := by
  unfold stepDomain
  simp

@[simp ↓] theorem servoSample_watch (x0 : State) (x1 : Nat) (x2 : Int) :
    (servoSample x0 x1 x2).watch = x0.watch := by
  unfold servoSample
  simp

@[simp ↓] theorem applySample_watch (x0 : State) (x1 : Nat) (x2 : Int) :
    (applySample x0 x1 x2).watch = x0.watch := by
  unfold applySample
  simp

@[simp ↓] theorem execTimeOffset_watch (x0 : Cmd) (x1 : BitVec 8) (x2 : BitVec 64) (x3 : State) :
    outKeeps (execTimeOffset x0 x1 x2 x3) x3.watch := by
  unfold execTimeOffset
  refine runCommand_watch _ _ _ _ (fun aseq s => ?_)
  (try dsimp only)
  (repeat' split) <;> simp

@[simp ↓] theorem execTimeAcquire_watch (x0 : Cmd) (x1 : BitVec 8) (x2 : State) :
    outKeeps (execTimeAcquire x0 x1 x2) x2.watch := by
  unfold execTimeAcquire
  refine runCommand_watch _ _ _ _ (fun aseq s => ?_)
  (try dsimp only)
  (repeat' split) <;> simp

@[simp ↓] theorem switchPrimary_watch (x0 : State) :
    (switchPrimary x0).watch = x0.watch := by
  unfold switchPrimary
  simp

@[simp ↓] theorem execTimeSwitch_watch (x0 : Cmd) (x1 : State) :
    outKeeps (execTimeSwitch x0 x1) x1.watch := by
  unfold execTimeSwitch
  refine runCommand_watch _ _ _ _ (fun aseq s => ?_)
  (try dsimp only)
  (repeat' split) <;> simp

@[simp ↓] theorem execTimeStatus_watch (x0 : Cmd) (x1 : BitVec 64) (x2 : State) :
    outKeeps (execTimeStatus x0 x1 x2) x2.watch := by
  unfold execTimeStatus
  refine runCommand_watch _ _ _ _ (fun aseq s => ?_)
  (try dsimp only)
  (repeat' split) <;> simp

@[simp ↓] theorem execTimePulse_watch (x0 : Cmd) (x1 : BitVec 8) (x2 : BitVec 8) (x3 : BitVec 8) (x4 : BitVec 64) (x5
    : BitVec 32) (x6 : BitVec 32) (x7 : BitVec 32) (x8 : BitVec 8) (x9 : State) :
    outKeeps (execTimePulse x0 x1 x2 x3 x4 x5 x6 x7 x8 x9) x9.watch := by
  unfold execTimePulse
  refine runCommand_watch _ _ _ _ (fun aseq s => ?_)
  (try dsimp only)
  (repeat' split) <;> simp

@[simp ↓] theorem execTimeCapture_watch (x0 : Cmd) (x1 : BitVec 8) (x2 : BitVec 8) (x3 : BitVec 8) (x4 : BitVec 8) (x5
    : State) :
    outKeeps (execTimeCapture x0 x1 x2 x3 x4 x5) x5.watch := by
  unfold execTimeCapture
  refine runCommand_watch _ _ _ _ (fun aseq s => ?_)
  (try dsimp only)
  (repeat' split) <;> simp

@[simp ↓] theorem execHoldoverTimeout_watch (x0 : Fin 2) (x1 : State) :
    outKeeps (execHoldoverTimeout x0 x1) x1.watch := by
  unfold execHoldoverTimeout
  (repeat' split) <;> simp

@[simp ↓] theorem pulseEdge_watch (x0 : State) (x1 : Nat) :
    (pulseEdge x0 x1).watch = x0.watch := by
  unfold pulseEdge
  simp

@[simp ↓] theorem execPulseEdge_watch (x0 : Fin 4) (x1 : State) :
    outKeeps (execPulseEdge x0 x1) x1.watch := by
  unfold execPulseEdge
  simp

@[simp ↓] theorem execPpsEdge_watch (x0 : State) :
    outKeeps (execPpsEdge x0) x0.watch := by
  unfold execPpsEdge
  (repeat' split) <;> simp

@[simp ↓] theorem tsRecord_watch (x0 : State) (x1 : Bytes) :
    (tsRecord x0 x1).watch = x0.watch := by
  unfold tsRecord
  simp

@[simp ↓] theorem execCaptureEdge_watch (x0 : Fin 4) (x1 : Bool) (x2 : State) :
    outKeeps (execCaptureEdge x0 x1 x2) x2.watch := by
  unfold execCaptureEdge
  (try dsimp only)
  (repeat' split) <;> simp

@[simp ↓] theorem timeTick_watch (x0 : State) :
    (timeTick x0).watch = x0.watch := by
  unfold timeTick
  simp

@[simp ↓] theorem ppsEnd_watch (x0 : State) :
    (ppsEnd x0).watch = x0.watch := by
  unfold ppsEnd
  simp

/-! Egress. -/

@[simp ↓] theorem oneStep_watch (x0 : State) (x1 : Nat) (x2 : Frame) (x3 : Bytes) :
    (oneStep x0 x1 x2 x3).1.watch = x0.watch := by
  unfold oneStep
  (try dsimp only)
  (repeat' split) <;> simp

theorem oneStep_out (x0 : State) (x1 : Nat) (x2 : Frame) (x3 : Bytes) {t : State} {v} (h : oneStep x0 x1 x2 x3 = (t,
    v)) : t.watch = x0.watch := by
  have e := oneStep_watch x0 x1 x2 x3
  rw [h] at e
  exact e

@[simp ↓] theorem setSched_watch (x0 : State) (x1 : Nat) (x2 : Sched) :
    (setSched x0 x1 x2).watch = x0.watch := by
  unfold setSched
  simp

@[simp ↓] theorem chargeQueue_watch (x0 : State) (x1 : Nat) (x2 : Nat) :
    (chargeQueue x0 x1 x2).watch = x0.watch := by
  unfold chargeQueue
  simp

@[simp ↓] theorem chargeSub_watch (x0 : State) (x1 : Nat) (x2 : Nat) :
    (chargeSub x0 x1 x2).watch = x0.watch := by
  unfold chargeSub
  simp

@[simp ↓] theorem sendFrameCells_watch (x0 : Nat) (x1 : Nat) (x2 : Nat) (x3 : Bool) (x4 : Bool) (x5 : List Bytes) (x6
    : State) :
    (sendFrameCells x0 x1 x2 x3 x4 x5 x6).watch = x6.watch := by
  fun_induction sendFrameCells x0 x1 x2 x3 x4 x5 x6 <;> simp_all +zetaDelta

@[simp ↓] theorem sendBonded_watch (x0 : State) (x1 : Nat) (x2 : Nat) (x3 : Bytes) (x4 : Bool) :
    (sendBonded x0 x1 x2 x3 x4).watch = x0.watch := by
  unfold sendBonded
  simp

@[simp ↓] theorem clearVisit_watch (x0 : State) (x1 : Nat) :
    (clearVisit x0 x1).watch = x0.watch := by
  unfold clearVisit
  simp

@[simp ↓] theorem dwrr_watch (x0 : Nat) (x1 : List Cand) (x2 : Nat) (x3 : State) :
    (dwrr x0 x1 x2 x3).1.watch = x3.watch := by
  fun_induction dwrr x0 x1 x2 x3 <;> simp_all +zetaDelta

theorem dwrr_out (x0 : Nat) (x1 : List Cand) (x2 : Nat) (x3 : State) {t : State} {v} (h : dwrr x0 x1 x2 x3 = (t, v)) :
    t.watch = x3.watch := by
  have e := dwrr_watch x0 x1 x2 x3
  rw [h] at e
  exact e

@[simp ↓] theorem rejoin_watch (x0 : State) (x1 : Nat) :
    (rejoin x0 x1).watch = x0.watch := by
  unfold rejoin
  (repeat' split) <;> simp

@[simp ↓] theorem pick_watch (x0 : State) (x1 : Nat) :
    (pick x0 x1).1.watch = x0.watch := by
  unfold pick
  (try dsimp only)
  (repeat' split) <;> simp

theorem pick_out (x0 : State) (x1 : Nat) {t : State} {v} (h : pick x0 x1 = (t, v)) : t.watch = x0.watch := by
  have e := pick_watch x0 x1
  rw [h] at e
  exact e

@[simp ↓] theorem startTx_watch (x0 : State) (x1 : Nat) (x2 : Cand) (x3 : Bytes) (x4 : Bool) :
    (startTx x0 x1 x2 x3 x4).watch = x0.watch := by
  unfold startTx
  (try dsimp only)
  (repeat' split) <;> simp

@[simp ↓] theorem discardCopy_watch (x0 : State) (x1 : Cand) (x2 : Nat) :
    (discardCopy x0 x1 x2).watch = x0.watch := by
  unfold discardCopy
  simp

@[simp ↓] theorem selectNext_watch (x0 : Nat) (x1 : Nat) (x2 : State) :
    (selectNext x0 x1 x2).watch = x2.watch := by
  fun_induction selectNext x0 x1 x2 <;> (try simp_all +zetaDelta) <;> grind [pick_out]

@[simp ↓] theorem dropHead_watch (x0 : State) (x1 : Nat) (x2 : Nat) :
    (dropHead x0 x1 x2).watch = x0.watch := by
  unfold dropHead
  simp

@[simp ↓] theorem dropCopies_watch (x0 : State) (x1 : Nat) :
    (dropCopies x0 x1).watch = x0.watch := by
  unfold dropCopies
  simp

@[simp ↓] theorem stompTx_watch (x0 : State) (x1 : Nat) :
    (stompTx x0 x1).watch = x0.watch := by
  unfold stompTx
  simp

@[simp ↓] theorem abandonFrame_watch (x0 : State) (x1 : Nat) :
    (abandonFrame x0 x1).1.watch = x0.watch := by
  unfold abandonFrame
  (repeat' split) <;> simp

theorem abandonFrame_out (x0 : State) (x1 : Nat) {t : State} {v} (h : abandonFrame x0 x1 = (t, v)) : t.watch =
    x0.watch := by
  have e := abandonFrame_watch x0 x1
  rw [h] at e
  exact e

@[simp ↓] theorem countCause_watch (x0 : State) (x1 : Nat) (x2 : Nat) (x3 : Nat) (x4 : Bool) :
    (countCause x0 x1 x2 x3 x4).watch = x0.watch := by
  unfold countCause
  simp

@[simp ↓] theorem countLate_watch (x0 : State) (x1 : Nat) (x2 : Option (Nat × Nat × Bool)) :
    (countLate x0 x1 x2).watch = x0.watch := by
  unfold countLate
  (repeat' split) <;> simp

@[simp ↓] theorem endRx_watch (x0 : State) (x1 : Nat) :
    (endRx x0 x1).watch = x0.watch := by
  unfold endRx
  (try dsimp only)
  (repeat' split) <;> (try simp) <;> (repeat first | rfl | refine (abandonFrame_out _ _ (by assumption)).trans ?_ | refine (growFrame_out _ _ (by assumption)).trans ?_ | fail) <;> simp

@[simp ↓] theorem completeFrame_watch (x0 : State) (x1 : Nat) :
    (completeFrame x0 x1).watch = x0.watch := by
  unfold completeFrame
  (repeat' split) <;> simp

@[simp ↓] theorem endTx_watch (x0 : State) (x1 : Nat) :
    (endTx x0 x1).watch = x0.watch := by
  unfold endTx
  (repeat' split) <;> simp

@[simp ↓] theorem execEgressSelect_watch (x0 : SubNo) (x1 : State) :
    outKeeps (execEgressSelect x0 x1) x1.watch := by
  unfold execEgressSelect
  (try dsimp only)
  (repeat' split) <;> simp

@[simp ↓] theorem missedSpans_watch (x0 : State) (x1 : Nat) (x2 : Gate) (x3 : Gate) :
    (missedSpans x0 x1 x2 x3).watch = x0.watch := by
  unfold missedSpans
  (try dsimp only)
  (repeat' split) <;> simp (disch := first | (intros; (try dsimp only); (repeat' split) <;> simp) | fail)

@[simp ↓] theorem setGate_watch (x0 : State) (x1 : Nat) (x2 : Gate) :
    (setGate x0 x1 x2).watch = x0.watch := by
  unfold setGate
  simp

@[simp ↓] theorem execGateListChange_watch (x0 : SubNo) (x1 : State) :
    outKeeps (execGateListChange x0 x1) x1.watch := by
  unfold execGateListChange
  (try dsimp only)
  (repeat' split) <;> simp

@[simp ↓] theorem execGateEntryAdvance_watch (x0 : SubNo) (x1 : State) :
    outKeeps (execGateEntryAdvance x0 x1) x1.watch := by
  unfold execGateEntryAdvance
  (try dsimp only)
  (repeat' split) <;> simp

@[simp ↓] theorem gateValidated_watch (x0 : State) (x1 : Nat) (x2 : Bytes) :
    (gateValidated x0 x1 x2).watch = x0.watch := by
  unfold gateValidated
  simp

/-! Ports. -/

@[simp ↓] theorem receivePause_watch (x0 : State) (x1 : Nat) (x2 : Nat) (x3 : Bytes) :
    (receivePause x0 x1 x2 x3).watch = x0.watch := by
  unfold receivePause
  simp

@[simp ↓] theorem execPauseFrameReceive_watch (x0 : SubNo) (x1 : BitVec 16) (x2 : Bytes) (x3 : State) :
    outKeeps (execPauseFrameReceive x0 x1 x2 x3) x3.watch := by
  unfold execPauseFrameReceive
  (repeat' split) <;> simp

@[simp ↓] theorem startPause_watch (x0 : State) (x1 : Nat) (x2 : Nat × Nat) :
    (startPause x0 x1 x2).watch = x0.watch := by
  unfold startPause
  simp

@[simp ↓] theorem execPauseEffect_watch (x0 : SubNo) (x1 : State) :
    outKeeps (execPauseEffect x0 x1) x1.watch := by
  unfold execPauseEffect
  (try dsimp only)
  (repeat' split) <;> simp

@[simp ↓] theorem execPauseExpire_watch (x0 : SubNo) (x1 : Fin 9) (x2 : State) :
    outKeeps (execPauseExpire x0 x1 x2) x2.watch := by
  unfold execPauseExpire
  simp

@[simp ↓] theorem sendPause_watch (x0 : State) (x1 : Nat) (x2 : Nat) :
    (sendPause x0 x1 x2).watch = x0.watch := by
  unfold sendPause
  simp

@[simp ↓] theorem execPauseSend_watch (x0 : SubNo) (x1 : State) :
    outKeeps (execPauseSend x0 x1) x1.watch := by
  unfold execPauseSend
  (try dsimp only)
  (repeat' split) <;> simp

@[simp ↓] theorem execPauseRepeat_watch (x0 : SubNo) (x1 : State) :
    outKeeps (execPauseRepeat x0 x1) x1.watch := by
  unfold execPauseRepeat
  (try dsimp only)
  (repeat' split) <;> simp

@[simp ↓] theorem bondLeave_watch (x0 : State) (x1 : Nat) :
    (bondLeave x0 x1).watch = x0.watch := by
  unfold bondLeave
  simp

@[simp ↓] theorem cutTx_watch (x0 : State) (x1 : Nat) :
    (cutTx x0 x1).watch = x0.watch := by
  unfold cutTx
  (repeat' split) <;> simp

@[simp ↓] theorem cutRx_watch (x0 : State) (x1 : Nat) :
    (cutRx x0 x1).watch = x0.watch := by
  unfold cutRx
  (repeat' split) <;> simp

@[simp ↓] theorem dropLink_watch (x0 : State) (x1 : Nat) :
    (dropLink x0 x1).watch = x0.watch := by
  unfold dropLink
  simp

@[simp ↓] theorem expireHold_watch (x0 : State) (x1 : Nat) :
    (expireHold x0 x1).watch = x0.watch := by
  unfold expireHold
  simp

@[simp ↓] theorem startHold_watch (x0 : State) (x1 : Nat) :
    (startHold x0 x1).watch = x0.watch := by
  unfold startHold
  simp

@[simp ↓] theorem wakePort_watch (x0 : State) (x1 : Nat) (x2 : List Nat) :
    (wakePort x0 x1 x2).watch = x0.watch := by
  unfold wakePort
  simp

@[simp ↓] theorem linkDown_watch (x0 : State) (x1 : Nat) :
    (linkDown x0 x1).watch = x0.watch := by
  unfold linkDown
  simp

@[simp ↓] theorem startRecovery_watch (x0 : State) (x1 : Nat) :
    (startRecovery x0 x1).watch = x0.watch := by
  unfold startRecovery
  simp

@[simp ↓] theorem execLinkDown_watch (x0 : LinkLoss) (x1 : State) :
    outKeeps (execLinkDown x0 x1) x1.watch := by
  unfold execLinkDown
  (try dsimp only)
  (repeat' split) <;> simp

@[simp ↓] theorem adminDown_watch (x0 : State) (x1 : Nat) :
    (adminDown x0 x1).watch = x0.watch := by
  unfold adminDown
  simp

@[simp ↓] theorem execHoldExpire_watch (x0 : SubNo) (x1 : State) :
    outKeeps (execHoldExpire x0 x1) x1.watch := by
  unfold execHoldExpire
  (repeat' split) <;> simp

@[simp ↓] theorem execHoldReload_watch (x0 : SubNo) (x1 : State) :
    outKeeps (execHoldReload x0 x1) x1.watch := by
  unfold execHoldReload
  (try dsimp only)
  (repeat' split) <;> simp

@[simp ↓] theorem linkUp_watch (x0 : State) (x1 : Nat) :
    (linkUp x0 x1).watch = x0.watch := by
  unfold linkUp
  simp

@[simp ↓] theorem linkLocked_watch (x0 : State) (x1 : Nat) (x2 : List Nat) :
    (linkLocked x0 x1 x2).watch = x0.watch := by
  unfold linkLocked
  simp

@[simp ↓] theorem execLinkUp_watch (x0 : SubNo) (x1 : State) :
    outKeeps (execLinkUp x0 x1) x1.watch := by
  unfold execLinkUp
  (try dsimp only)
  (repeat' split) <;> simp

@[simp ↓] theorem execLpiEntry_watch (x0 : SubNo) (x1 : State) :
    outKeeps (execLpiEntry x0 x1) x1.watch := by
  unfold execLpiEntry
  (try dsimp only)
  (repeat' split) <;> simp

@[simp ↓] theorem execLpiWakeEnd_watch (x0 : SubNo) (x1 : State) :
    outKeeps (execLpiWakeEnd x0 x1) x1.watch := by
  unfold execLpiWakeEnd
  (try dsimp only)
  (repeat' split) <;> simp

@[simp ↓] theorem queueHead_watch (x0 : State) (x1 : Nat) (x2 : Bytes) (x3 : Bool) :
    (queueHead x0 x1 x2 x3).1.watch = x0.watch := by
  unfold queueHead
  (try dsimp only)
  (repeat' split) <;> (try simp_all) <;> grind [bufferFrame_out]

theorem queueHead_out (x0 : State) (x1 : Nat) (x2 : Bytes) (x3 : Bool) {t : State} {v} (h : queueHead x0 x1 x2 x3 =
    (t, v)) : t.watch = x0.watch := by
  have e := queueHead_watch x0 x1 x2 x3
  rw [h] at e
  exact e

@[simp ↓] theorem countCodewords_watch (x0 : State) (x1 : Nat) (x2 : List (BitVec 4)) :
    (countCodewords x0 x1 x2).watch = x0.watch := by
  unfold countCodewords
  simp

@[simp ↓] theorem countHead_watch (x0 : State) (x1 : Nat) (x2 : Nat) (x3 : Bytes) :
    (countHead x0 x1 x2 x3).watch = x0.watch := by
  unfold countHead
  simp

@[simp ↓] theorem dropBadFcs_watch (x0 : State) (x1 : Nat) (x2 : Bytes) :
    (dropBadFcs x0 x1 x2).watch = x0.watch := by
  unfold dropBadFcs
  (try dsimp only)
  (repeat' split) <;> simp

@[simp ↓] theorem acceptFrame_watch (x0 : State) (x1 : Nat) (x2 : Bytes) (x3 : Bool) :
    (acceptFrame x0 x1 x2 x3).watch = x0.watch := by
  unfold acceptFrame
  (try dsimp only)
  (repeat' split) <;> (try simp_all) <;> grind [queueHead_out]

/-! Lanes. -/

@[simp ↓] theorem ignoreShed_watch (x0 : State) (x1 : Nat) :
    (ignoreShed x0 x1).watch = x0.watch := by
  unfold ignoreShed
  simp

@[simp ↓] theorem noWidth_watch (x0 : State) (x1 : Nat) :
    (noWidth x0 x1).watch = x0.watch := by
  unfold noWidth
  simp

@[simp ↓] theorem finishRecovery_watch (x0 : State) (x1 : Nat) (x2 : Nat) :
    (finishRecovery x0 x1 x2).watch = x0.watch := by
  unfold finishRecovery
  simp

@[simp ↓] theorem askRecovery_watch (x0 : State) (x1 : Nat) (x2 : ShedMsg) :
    (askRecovery x0 x1 x2).watch = x0.watch := by
  unfold askRecovery
  (repeat' split) <;> simp

@[simp ↓] theorem receiveHello_watch (x0 : State) (x1 : Nat) (x2 : ShedMsg) :
    (receiveHello x0 x1 x2).watch = x0.watch := by
  unfold receiveHello
  simp

@[simp ↓] theorem execHello_watch (x0 : SubNo) (x1 : ShedMsg) (x2 : State) :
    outKeeps (execHello x0 x1 x2) x2.watch := by
  unfold execHello
  (repeat' split) <;> simp

@[simp ↓] theorem execHelloRetry_watch (x0 : SubNo) (x1 : State) :
    outKeeps (execHelloRetry x0 x1) x1.watch := by
  unfold execHelloRetry
  (try dsimp only)
  (repeat' split) <;> simp

@[simp ↓] theorem execHelloTimeout_watch (x0 : SubNo) (x1 : State) :
    outKeeps (execHelloTimeout x0 x1) x1.watch := by
  unfold execHelloTimeout
  (try dsimp only)
  (repeat' split) <;> simp

@[simp ↓] theorem acceptStep_watch (x0 : State) (x1 : Nat) (x2 : Nat) (x3 : Nat) :
    (acceptStep x0 x1 x2 x3).watch = x0.watch := by
  unfold acceptStep
  simp

@[simp ↓] theorem receiveReq_watch (x0 : State) (x1 : Nat) (x2 : ShedMsg) :
    (receiveReq x0 x1 x2).watch = x0.watch := by
  unfold receiveReq
  (try dsimp only)
  (repeat' split) <;> simp

@[simp ↓] theorem execReq_watch (x0 : SubNo) (x1 : ShedMsg) (x2 : State) :
    outKeeps (execReq x0 x1 x2) x2.watch := by
  unfold execReq
  (repeat' split) <;> simp

@[simp ↓] theorem receiveAck_watch (x0 : State) (x1 : Nat) (x2 : ShedMsg) :
    (receiveAck x0 x1 x2).watch = x0.watch := by
  unfold receiveAck
  (try dsimp only)
  (repeat' split) <;> simp

@[simp ↓] theorem execAck_watch (x0 : SubNo) (x1 : ShedMsg) (x2 : State) :
    outKeeps (execAck x0 x1 x2) x2.watch := by
  unfold execAck
  (repeat' split) <;> simp

@[simp ↓] theorem receiveNak_watch (x0 : State) (x1 : Nat) (x2 : ShedMsg) :
    (receiveNak x0 x1 x2).watch = x0.watch := by
  unfold receiveNak
  (try dsimp only)
  (repeat' split) <;> simp

@[simp ↓] theorem execNak_watch (x0 : SubNo) (x1 : ShedMsg) (x2 : State) :
    outKeeps (execNak x0 x1 x2) x2.watch := by
  unfold execNak
  (repeat' split) <;> simp

@[simp ↓] theorem receiveReady_watch (x0 : State) (x1 : Nat) (x2 : ShedMsg) :
    (receiveReady x0 x1 x2).watch = x0.watch := by
  unfold receiveReady
  simp

@[simp ↓] theorem execReady_watch (x0 : SubNo) (x1 : ShedMsg) (x2 : State) :
    outKeeps (execReady x0 x1 x2) x2.watch := by
  unfold execReady
  (repeat' split) <;> simp

@[simp ↓] theorem execReqRetry_watch (x0 : SubNo) (x1 : State) :
    outKeeps (execReqRetry x0 x1) x1.watch := by
  unfold execReqRetry
  (try dsimp only)
  (repeat' split) <;> simp

@[simp ↓] theorem execShedWindowEnd_watch (x0 : SubNo) (x1 : State) :
    outKeeps (execShedWindowEnd x0 x1) x1.watch := by
  unfold execShedWindowEnd
  (try dsimp only)
  (repeat' split) <;> simp

@[simp ↓] theorem execLanesLocked_watch (x0 : SubNo) (x1 : State) :
    outKeeps (execLanesLocked x0 x1) x1.watch := by
  unfold execLanesLocked
  (try dsimp only)
  (repeat' split) <;> simp

@[simp ↓] theorem execShedSwitch_watch (x0 : SubNo) (x1 : State) :
    outKeeps (execShedSwitch x0 x1) x1.watch := by
  unfold execShedSwitch
  (try dsimp only)
  (repeat' split) <;> simp

@[simp ↓] theorem execAlignmentRegained_watch (x0 : SubNo) (x1 : State) :
    outKeeps (execAlignmentRegained x0 x1) x1.watch := by
  unfold execAlignmentRegained
  (try dsimp only)
  (repeat' split) <;> simp

@[simp ↓] theorem execWidenTimeout_watch (x0 : SubNo) (x1 : List LaneNo) (x2 : State) :
    outKeeps (execWidenTimeout x0 x1 x2) x2.watch := by
  unfold execWidenTimeout
  (try dsimp only)
  (repeat' split) <;> simp

@[simp ↓] theorem holdReduced_watch (x0 : State) (x1 : Nat) :
    (holdReduced x0 x1).watch = x0.watch := by
  unfold holdReduced
  simp

@[simp ↓] theorem nextTrial_watch (x0 : State) (x1 : Nat) (x2 : Nat) :
    (nextTrial x0 x1 x2).watch = x0.watch := by
  unfold nextTrial
  simp

@[simp ↓] theorem loseLane_watch (x0 : State) (x1 : Nat) (x2 : Nat) :
    (loseLane x0 x1 x2).watch = x0.watch := by
  unfold loseLane
  simp

@[simp ↓] theorem endRecal_watch (x0 : State) (x1 : Nat) :
    (endRecal x0 x1).watch = x0.watch := by
  unfold endRecal
  (repeat' split) <;> simp

@[simp ↓] theorem failLane_watch (x0 : State) (x1 : Nat) (x2 : Option Nat) :
    (failLane x0 x1 x2).watch = x0.watch := by
  unfold failLane
  (try dsimp only)
  (repeat' split) <;> simp

@[simp ↓] theorem execLaneFail_watch (x0 : LaneNo) (x1 : State) :
    outKeeps (execLaneFail x0 x1) x1.watch := by
  unfold execLaneFail
  simp

@[simp ↓] theorem execLaneSerWindowEnd_watch (x0 : LaneNo) (x1 : Nat) (x2 : State) :
    outKeeps (execLaneSerWindowEnd x0 x1 x2) x2.watch := by
  unfold execLaneSerWindowEnd
  (try dsimp only)
  (repeat' split) <;> simp

@[simp ↓] theorem execRecoveryTrialTimeout_watch (x0 : SubNo) (x1 : State) :
    outKeeps (execRecoveryTrialTimeout x0 x1) x1.watch := by
  unfold execRecoveryTrialTimeout
  (try dsimp only)
  (repeat' split) <;> simp

@[simp ↓] theorem receiveShed_watch (x0 : State) (x1 : Nat) (x2 : Bytes) :
    (receiveShed x0 x1 x2).watch = x0.watch := by
  unfold receiveShed
  (repeat' split) <;> simp

@[simp ↓] theorem receiveFrame_watch (x0 : State) (x1 : Nat) (x2 : Bytes) (x3 : Bool) (x4 : Bool) :
    (receiveFrame x0 x1 x2 x3 x4).watch = x0.watch := by
  unfold receiveFrame
  simp

@[simp ↓] theorem execFrameArrival_watch (x0 : SubNo) (x1 : Bytes) (x2 : Bool) (x3 : Bool) (x4 : List (BitVec 4)) (x5
    : State) :
    outKeeps (execFrameArrival x0 x1 x2 x3 x4 x5) x5.watch := by
  unfold execFrameArrival
  (try dsimp only)
  (repeat' split) <;> simp

@[simp ↓] theorem execUncorrectableCodeword_watch (x0 : SubNo) (x1 : State) :
    outKeeps (execUncorrectableCodeword x0 x1) x1.watch := by
  unfold execUncorrectableCodeword
  (try dsimp only)
  (repeat' split) <;> simp

@[simp ↓] theorem applyMode_watch (x0 : State) (x1 : Nat) (x2 : Nat) (x3 : Nat) :
    (applyMode x0 x1 x2 x3).watch = x0.watch := by
  unfold applyMode
  simp

@[simp ↓] theorem execPortMode_watch (x0 : Cmd) (x1 : BitVec 16) (x2 : BitVec 8) (x3 : BitVec 32) (x4 : State) :
    outKeeps (execPortMode x0 x1 x2 x3 x4) x4.watch := by
  unfold execPortMode
  refine runCommand_watch _ _ _ _ (fun aseq s => ?_)
  (try dsimp only)
  (repeat' split) <;> simp

@[simp ↓] theorem execSubportAdmin_watch (x0 : Cmd) (x1 : BitVec 16) (x2 : BitVec 8) (x3 : State) :
    outKeeps (execSubportAdmin x0 x1 x2 x3) x3.watch := by
  unfold execSubportAdmin
  refine runCommand_watch _ _ _ _ (fun aseq s => ?_)
  (try dsimp only)
  (repeat' split) <;> simp

@[simp ↓] theorem execShedCtrl_watch (x0 : Cmd) (x1 : BitVec 16) (x2 : BitVec 8) (x3 : BitVec 8) (x4 : State) :
    outKeeps (execShedCtrl x0 x1 x2 x3 x4) x4.watch := by
  unfold execShedCtrl
  refine runCommand_watch _ _ _ _ (fun aseq s => ?_)
  (try dsimp only)
  (repeat' split) <;> simp

@[simp ↓] theorem restoreLane_watch (x0 : State) (x1 : Nat) :
    (restoreLane x0 x1).watch = x0.watch := by
  unfold restoreLane
  (try dsimp only)
  (repeat' split) <;> simp

@[simp ↓] theorem execLaneSet_watch (x0 : Cmd) (x1 : BitVec 16) (x2 : BitVec 8) (x3 : BitVec 8) (x4 : State) :
    outKeeps (execLaneSet x0 x1 x2 x3 x4) x4.watch := by
  unfold execLaneSet
  refine runCommand_watch _ _ _ _ (fun aseq s => ?_)
  (try dsimp only)
  (repeat' split) <;> simp

@[simp ↓] theorem execPortStatus_watch (x0 : Cmd) (x1 : BitVec 16) (x2 : State) :
    outKeeps (execPortStatus x0 x1 x2) x2.watch := by
  unfold execPortStatus
  refine runCommand_watch _ _ _ _ (fun aseq s => ?_)
  (try dsimp only)
  (repeat' split) <;> simp

@[simp ↓] theorem portEnabled_watch (x0 : State) (x1 : Nat) (x2 : Bool) :
    (portEnabled x0 x1 x2).watch = x0.watch := by
  unfold portEnabled
  simp

/-! Rings. -/

@[simp ↓] theorem chainDoorbell_watch (x0 : State) (x1 : Nat) (x2 : Nat) :
    (chainDoorbell x0 x1 x2).watch = x0.watch := by
  unfold chainDoorbell
  simp

@[simp ↓] theorem doorbell_watch (x0 : State) (x1 : Nat) (x2 : Nat) (x3 : Nat) :
    (doorbell x0 x1 x2 x3).watch = x0.watch := by
  unfold doorbell
  simp

@[simp ↓] theorem execDoorbell_watch (x0 : HostNo) (x1 : Fin 184) (x2 : BitVec 12) (x3 : Nat) (x4 : BitVec 32) (x5 :
    State) :
    outKeeps (execDoorbell x0 x1 x2 x3 x4 x5) x5.watch := by
  unfold execDoorbell
  (repeat' split) <;> simp

@[simp ↓] theorem startRing_watch (x0 : State) (x1 : Nat) (x2 : Nat) :
    (startRing x0 x1 x2).watch = x0.watch := by
  unfold startRing
  simp

@[simp ↓] theorem disableRing_watch (x0 : State) (x1 : Nat) (x2 : Nat) (x3 : Nat) :
    (disableRing x0 x1 x2 x3).watch = x0.watch := by
  unfold disableRing
  simp

@[simp ↓] theorem writeRingCfg_watch (x0 : State) (x1 : Nat) (x2 : Nat) (x3 : Nat) (x4 : Nat) :
    (writeRingCfg x0 x1 x2 x3 x4).watch = x0.watch := by
  unfold writeRingCfg
  simp

@[simp ↓] theorem writeRingAddr_watch (x0 : State) (x1 : Nat) (x2 : Reg) (x3 : Nat) (x4 : Nat) (x5 : Nat) :
    (writeRingAddr x0 x1 x2 x3 x4 x5).watch = x0.watch := by
  unfold writeRingAddr
  simp

@[simp ↓] theorem setHeld_watch (x0 : State) (x1 : Nat) (x2 : Option (Nat × BitVec 32)) :
    (setHeld x0 x1 x2).watch = x0.watch := by
  unfold setHeld
  simp

@[simp ↓] theorem dropOther_watch (x0 : State) (x1 : Nat) (x2 : Nat) :
    (dropOther x0 x1 x2).watch = x0.watch := by
  unfold dropOther
  (repeat' split) <;> simp

@[simp ↓] theorem regAccess_watch (s : State) (m addr : Nat) (f : State → State)
    (h : ∀ t, (f t).watch = t.watch) : (regAccess s m addr f).watch = s.watch := by
  unfold regAccess
  dsimp only
  split <;> simp [h]


@[simp ↓] theorem execRingEnable_watch (x0 : Master) (x1 : HostNo) (x2 : Fin 184) (x3 : BitVec 32) (x4 : State) :
    outKeeps (execRingEnable x0 x1 x2 x3 x4) x4.watch := by
  unfold execRingEnable
  (repeat' split) <;> simp

@[simp ↓] theorem execRingDisable_watch (x0 : Master) (x1 : HostNo) (x2 : Fin 184) (x3 : BitVec 32) (x4 : State) :
    outKeeps (execRingDisable x0 x1 x2 x3 x4) x4.watch := by
  unfold execRingDisable
  (repeat' split) <;> simp

@[simp ↓] theorem chainStep_watch (x0 : State) (x1 : Nat) (x2 : Nat) (x3 : Nat) :
    (chainStep x0 x1 x2 x3).watch = x0.watch := by
  unfold chainStep
  simp

@[simp ↓] theorem chainFetched_watch (x0 : State) (x1 : Nat) (x2 : Nat) (x3 : Nat) :
    (chainFetched x0 x1 x2 x3).watch = x0.watch := by
  unfold chainFetched
  simp

@[simp ↓] theorem ringChainReturn_watch (x0 : State) (x1 : Nat) (x2 : Nat) (x3 : Nat) (x4 : Bool) :
    (ringChainReturn x0 x1 x2 x3 x4).watch = x0.watch := by
  unfold ringChainReturn
  simp

@[simp ↓] theorem acceptDesc_watch (x0 : State) (x1 : Source) (x2 : Bytes) (x3 : Nat) :
    (acceptDesc x0 x1 x2 x3).1.watch = x0.watch := by
  unfold acceptDesc
  (try dsimp only)
  (repeat' split) <;> (try simp_all) <;> grind [accept_out]

theorem acceptDesc_out (x0 : State) (x1 : Source) (x2 : Bytes) (x3 : Nat) {t : State} {v} (h : acceptDesc x0 x1 x2 x3
    = (t, v)) : t.watch = x0.watch := by
  have e := acceptDesc_watch x0 x1 x2 x3
  rw [h] at e
  exact e

@[simp ↓] theorem execCommandAccept_watch (x0 : Source) (x1 : Bytes) (x2 : Bool) (x3 : State) :
    outKeeps (execCommandAccept x0 x1 x2 x3) x3.watch := by
  unfold execCommandAccept
  (try dsimp only)
  (repeat' split) <;> simp

@[simp ↓] theorem execInterruptModerationExpire_watch (x0 : HostNo) (x1 : Fin 184) (x2 : State) :
    outKeeps (execInterruptModerationExpire x0 x1 x2) x2.watch := by
  unfold execInterruptModerationExpire
  (try dsimp only)
  (repeat' split) <;> simp

@[simp ↓] theorem execMailboxWrite_watch (x0 : Bytes) (x1 : State) :
    outKeeps (execMailboxWrite x0 x1) x1.watch := by
  unfold execMailboxWrite
  (repeat' split) <;> simp

@[simp ↓] theorem execMsixUnmask_watch (x0 : HostNo) (x1 : BitVec 8) (x2 : State) :
    outKeeps (execMsixUnmask x0 x1 x2) x2.watch := by
  unfold execMsixUnmask
  (try dsimp only)
  (repeat' split) <;> simp

@[simp ↓] theorem execRingStatus_watch (x0 : Cmd) (x1 : BitVec 8) (x2 : BitVec 8) (x3 : BitVec 8) (x4 : State) :
    outKeeps (execRingStatus x0 x1 x2 x3 x4) x4.watch := by
  unfold execRingStatus
  refine runCommand_watch _ _ _ _ (fun aseq s => ?_)
  (try dsimp only)
  (repeat' split) <;> simp

@[simp ↓] theorem execHostStatus_watch (x0 : Cmd) (x1 : BitVec 8) (x2 : State) :
    outKeeps (execHostStatus x0 x1 x2) x2.watch := by
  unfold execHostStatus
  refine runCommand_watch _ _ _ _ (fun aseq s => ?_)
  (try dsimp only)
  (repeat' split) <;> simp

@[simp ↓] theorem execNop_watch (x0 : Cmd) (x1 : State) :
    outKeeps (execNop x0 x1) x1.watch := by
  unfold execNop
  refine runCommand_watch _ _ _ _ (fun aseq s => ?_)
  (try dsimp only)
  (repeat' split) <;> simp

/-! Traffic. -/

@[simp ↓] theorem censusTag_watch (x0 : State) (x1 : Nat) :
    (censusTag x0 x1).watch = x0.watch := by
  unfold censusTag
  simp

@[simp ↓] theorem execCensusWalkStart_watch (x0 : State) :
    outKeeps (execCensusWalkStart x0) x0.watch := by
  unfold execCensusWalkStart
  (repeat' split) <;> simp

@[simp ↓] theorem execCensusWalkEnd_watch (x0 : State) :
    outKeeps (execCensusWalkEnd x0) x0.watch := by
  unfold execCensusWalkEnd
  (repeat' split) <;> simp

@[simp ↓] theorem memberReq_watch (x0 : State) (x1 : Frame) (x2 : Copy) (x3 : Nat) (x4 : Bool) (x5 : Nat) :
    (memberReq x0 x1 x2 x3 x4 x5).1.watch = x0.watch := by
  unfold memberReq
  (try dsimp only)
  (repeat' split) <;> simp

theorem memberReq_out (x0 : State) (x1 : Frame) (x2 : Copy) (x3 : Nat) (x4 : Bool) (x5 : Nat) {t : State} {v} (h :
    memberReq x0 x1 x2 x3 x4 x5 = (t, v)) : t.watch = x0.watch := by
  have e := memberReq_watch x0 x1 x2 x3 x4 x5
  rw [h] at e
  exact e

@[simp ↓] theorem memberReqs_watch (x0 : State) (x1 : Frame) (x2 : Copy) (x3 : Nat) (x4 : Bool) (x5 : List Nat) :
    (memberReqs x0 x1 x2 x3 x4 x5).1.watch = x0.watch := by
  fun_induction memberReqs x0 x1 x2 x3 x4 x5 <;> (try simp_all +zetaDelta) <;> grind [memberReq_out]

theorem memberReqs_out (x0 : State) (x1 : Frame) (x2 : Copy) (x3 : Nat) (x4 : Bool) (x5 : List Nat) {t : State} {v} (h
    : memberReqs x0 x1 x2 x3 x4 x5 = (t, v)) : t.watch = x0.watch := by
  have e := memberReqs_watch x0 x1 x2 x3 x4 x5
  rw [h] at e
  exact e

@[simp ↓] theorem replicateCopy_watch (x0 : State) (x1 : Nat) (x2 : Copy) (x3 : Frame) :
    (replicateCopy x0 x1 x2 x3).watch = x0.watch := by
  unfold replicateCopy
  simp

@[simp ↓] theorem execReplicate_watch (x0 : State) :
    outKeeps (execReplicate x0) x0.watch := by
  unfold execReplicate
  (repeat' split) <;> simp

@[simp ↓] theorem puntData_watch (x0 : State) (x1 : Nat) (x2 : Nat) (x3 : List (BitVec 64)) (x4 : Bytes) :
    (puntData x0 x1 x2 x3 x4).watch = x0.watch := by
  fun_induction puntData x0 x1 x2 x3 x4 <;> simp_all +zetaDelta

@[simp ↓] theorem puntEntries_watch (x0 : State) (x1 : Nat) (x2 : Nat) (x3 : Nat) (x4 : Frame) (x5 : Copy) (x6 : Bool)
    (x7 : Nat) (x8 : Bytes) :
    (puntEntries x0 x1 x2 x3 x4 x5 x6 x7 x8).watch = x0.watch := by
  fun_induction puntEntries x0 x1 x2 x3 x4 x5 x6 x7 x8 <;> simp_all +zetaDelta

@[simp ↓] theorem puntFrame_watch (x0 : State) (x1 : Nat) (x2 : Copy) (x3 : Frame) (x4 : List (BitVec 64)) (x5 : Bool) :
    (puntFrame x0 x1 x2 x3 x4 x5).watch = x0.watch := by
  unfold puntFrame
  simp

@[simp ↓] theorem execPuntWrite_watch (x0 : Fin 16) (x1 : List (BitVec 64)) (x2 : Bool) (x3 : Bool) (x4 : State) :
    outKeeps (execPuntWrite x0 x1 x2 x3 x4) x4.watch := by
  unfold execPuntWrite
  (try dsimp only)
  (repeat' split) <;> simp

@[simp ↓] theorem consumeInj_watch (x0 : State) (x1 : Nat) (x2 : Nat) (x3 : Nat) :
    (consumeInj x0 x1 x2 x3).watch = x0.watch := by
  unfold consumeInj
  simp

@[simp ↓] theorem injectFrame_watch (x0 : State) (x1 : Nat) (x2 : Nat) (x3 : Nat) (x4 : Bytes) (x5 : Bytes) :
    (injectFrame x0 x1 x2 x3 x4 x5).watch = x0.watch := by
  unfold injectFrame
  (try dsimp only)
  (repeat' split) <;> (try simp_all) <;> grind [bufferFrame_out]

@[simp ↓] theorem execInjFetch_watch (x0 : HostNo) (x1 : Fin 16) (x2 : Bytes) (x3 : Bytes) (x4 : Bool) (x5 : Bool) (x6
    : State) :
    outKeeps (execInjFetch x0 x1 x2 x3 x4 x5 x6) x6.watch := by
  unfold execInjFetch
  (try dsimp only)
  (repeat' split) <;> simp

@[simp ↓] theorem execPolicerResult_watch (x0 : Nat) (x1 : State) :
    outKeeps (execPolicerResult x0 x1) x1.watch := by
  unfold execPolicerResult
  (try dsimp only)
  (repeat' split) <;> simp

@[simp ↓] theorem policerValidated_watch (x0 : State) (x1 : Nat) (x2 : Bytes) :
    (policerValidated x0 x1 x2).watch = x0.watch := by
  unfold policerValidated
  simp

@[simp ↓] theorem execQueueStatus_watch (x0 : Cmd) (x1 : BitVec 16) (x2 : State) :
    outKeeps (execQueueStatus x0 x1 x2) x2.watch := by
  unfold execQueueStatus
  refine runCommand_watch _ _ _ _ (fun aseq s => ?_)
  (try dsimp only)
  (repeat' split) <;> simp

@[simp ↓] theorem execBufStatus_watch (x0 : Cmd) (x1 : State) :
    outKeeps (execBufStatus x0 x1) x1.watch := by
  unfold execBufStatus
  refine runCommand_watch _ _ _ _ (fun aseq s => ?_)
  (try dsimp only)
  (repeat' split) <;> simp

@[simp ↓] theorem execPolicerRead_watch (x0 : Cmd) (x1 : BitVec 32) (x2 : State) :
    outKeeps (execPolicerRead x0 x1 x2) x2.watch := by
  unfold execPolicerRead
  refine runCommand_watch _ _ _ _ (fun aseq s => ?_)
  (try dsimp only)
  (repeat' split) <;> simp

@[simp ↓] theorem execGateStatus_watch (x0 : Cmd) (x1 : BitVec 16) (x2 : State) :
    outKeeps (execGateStatus x0 x1 x2) x2.watch := by
  unfold execGateStatus
  refine runCommand_watch _ _ _ _ (fun aseq s => ?_)
  (try dsimp only)
  (repeat' split) <;> simp

end Sys2Proof.Machine
end

