-- ==== Sys2Proof/Laws/WatchFlow.lean ====
section
/-! SUPPORT. That the tables and the flow store leave the watched part of a state (Safety) alone: one lemma for each definition. -/

namespace Sys2Proof.Machine

/-! Ddr. -/

@[simp ↓] theorem setDdrCh_watch (x0 : State) (x1 : Nat) (x2 : DdrCh) :
    (setDdrCh x0 x1 x2).watch = x0.watch := by
  unfold setDdrCh
  simp

@[simp ↓] theorem ddrCommandsBy_watch (x0 : State) (x1 : Nat) (x2 : Nat) (x3 : Nat) :
    (ddrCommandsBy x0 x1 x2 x3).watch = x0.watch := by
  unfold ddrCommandsBy
  simp

@[simp ↓] theorem ddrCommands_watch (x0 : State) (x1 : Nat) (x2 : Nat) :
    (ddrCommands x0 x1 x2).watch = x0.watch := by
  unfold ddrCommands
  simp

@[simp ↓] theorem ddrError_watch (x0 : State) (x1 : Nat) (x2 : ReadOutcome) (x3 : Nat) :
    (ddrError x0 x1 x2 x3).watch = x0.watch := by
  unfold ddrError
  (repeat' split) <;> simp

@[simp ↓] theorem ddrRead_watch (x0 : State) (x1 : Nat) (x2 : Nat) (x3 : ReadOutcome) (x4 : Nat) :
    (ddrRead x0 x1 x2 x3 x4).watch = x0.watch := by
  unfold ddrRead
  simp

@[simp ↓] theorem ddrReadTask_watch (x0 : State) (x1 : Nat) (x2 : Nat) (x3 : Nat) (x4 : ReadOutcome) :
    (ddrReadTask x0 x1 x2 x3 x4).watch = x0.watch := by
  unfold ddrReadTask
  simp

@[simp ↓] theorem ddrWrite_watch (x0 : State) (x1 : Nat) (x2 : Nat) :
    (ddrWrite x0 x1 x2).watch = x0.watch := by
  unfold ddrWrite
  simp

@[simp ↓] theorem updatePanic_watch (x0 : State) :
    (updatePanic x0).watch = x0.watch := by
  unfold updatePanic
  simp

/-! Piers. -/

@[simp ↓] theorem setPier_watch (x0 : State) (x1 : Nat) (x2 : Pier) :
    (setPier x0 x1 x2).watch = x0.watch := by
  unfold setPier
  simp

@[simp ↓] theorem checkWatermarks_watch (x0 : State) :
    (checkWatermarks x0).watch = x0.watch := by
  unfold checkWatermarks
  simp

@[simp ↓] theorem coldFull_watch (x0 : State) :
    (coldFull x0).watch = x0.watch := by
  unfold coldFull
  simp

/-! Epoch. -/

@[simp ↓] theorem beforeReg_watch (x0 : State) (x1 : Reg) (x2 : Nat) :
    (beforeReg x0 x1 x2).watch = x0.watch := by
  unfold beforeReg
  (repeat' split) <;> simp

@[simp ↓] theorem afterReg_watch (x0 : State) (x1 : Reg) (x2 : Nat) (x3 : Nat) :
    (afterReg x0 x1 x2 x3).watch = x0.watch := by
  unfold afterReg
  (repeat' split) <;> simp

@[simp ↓] theorem applyReg_watch (x0 : State) (x1 : Reg) (x2 : Nat) (x3 : Nat) :
    (applyReg x0 x1 x2 x3).watch = x0.watch := by
  unfold applyReg
  simp

@[simp ↓] theorem applyShadow_watch (x0 : Nat) (x1 : State) (x2 : Nat × Option (BitVec 64)) :
    (applyShadow x0 x1 x2).watch = x1.watch := by
  unfold applyShadow
  (repeat' split) <;> simp

@[simp ↓] theorem applyShadows_watch (x0 : State) (x1 : Nat) :
    (applyShadows x0 x1).watch = x0.watch := by
  unfold applyShadows
  simp

@[simp ↓] theorem settleStamps_watch (x0 : State) :
    (settleStamps x0).watch = x0.watch := by
  unfold settleStamps
  simp

@[simp ↓] theorem advanceEpoch_watch (x0 : State) :
    (advanceEpoch x0).watch = x0.watch := by
  unfold advanceEpoch
  simp

@[simp ↓] theorem execShadowApply_watch (x0 : State) :
    outKeeps (execShadowApply x0) x0.watch := by
  unfold execShadowApply
  (repeat' split) <;> simp

/-! Tables. -/

@[simp ↓] theorem modKey_watch (x0 : State) (x1 : Nat) (x2 : TableInfo) (x3 : Bytes) (x4 : Ent → Ent) :
    (modKey x0 x1 x2 x3 x4).watch = x0.watch := by
  unfold modKey
  simp

@[simp ↓] theorem startMove_watch (x0 : State) (x1 : HashedMove) :
    (startMove x0 x1).watch = x0.watch := by
  unfold startMove
  simp

@[simp ↓] theorem moveAll_watch (x0 : State) (x1 : Nat) (x2 : List Nat) :
    (moveAll x0 x1 x2).watch = x0.watch := by
  fun_induction moveAll x0 x1 x2 <;> simp_all +zetaDelta

@[simp ↓] theorem validated_watch (x0 : State) (x1 : Nat) (x2 : Nat) (x3 : Bytes) :
    (validated x0 x1 x2 x3).watch = x0.watch := by
  unfold validated
  (repeat' split) <;> simp

@[simp ↓] theorem writeEnt_watch (x0 : Nat) (x1 : State) (x2 : Nat) (x3 : Nat) (x4 : Nat) (x5 : Bytes) :
    (writeEnt x0 x1 x2 x3 x4 x5).watch = x1.watch := by
  unfold writeEnt
  simp

@[simp ↓] theorem writeValidate_watch (x0 : State) (x1 : Nat) (x2 : Nat) (x3 : Nat) (x4 : Bytes) :
    (writeValidate x0 x1 x2 x3 x4).watch = x0.watch := by
  unfold writeValidate
  simp

@[simp ↓] theorem retire_watch (x0 : State) (x1 : Nat) (x2 : Nat) (x3 : Nat) :
    (retire x0 x1 x2 x3).watch = x0.watch := by
  unfold retire
  simp

@[simp ↓] theorem retired_watch (x0 : State) (x1 : Nat) (x2 : Nat) :
    (retired x0 x1 x2).watch = x0.watch := by
  unfold retired
  (repeat' split) <;> simp

@[simp ↓] theorem retireNow_watch (x0 : State) (x1 : Nat) (x2 : Nat) (x3 : Nat) :
    (retireNow x0 x1 x2 x3).watch = x0.watch := by
  unfold retireNow
  simp

@[simp ↓] theorem updateEntry_watch (x0 : State) (x1 : Nat) (x2 : Nat) (x3 : Nat) (x4 : Nat) (x5 : Nat) (x6 : Bytes) :
    (updateEntry x0 x1 x2 x3 x4 x5 x6).Keeps x0.watch := by
  unfold updateEntry
  (repeat' split) <;> simp

theorem updateEntry_done (x0 : State) (x1 : Nat) (x2 : Nat) (x3 : Nat) (x4 : Nat) (x5 : Nat) (x6 : Bytes) {r : Reply}
    {t : State} (h : updateEntry x0 x1 x2 x3 x4 x5 x6 = .done r t) : t.watch = x0.watch := by
  have e := updateEntry_watch x0 x1 x2 x3 x4 x5 x6
  rw [h] at e
  exact e
theorem updateEntry_later (x0 : State) (x1 : Nat) (x2 : Nat) (x3 : Nat) (x4 : Nat) (x5 : Nat) (x6 : Bytes) {t : State}
    (h : updateEntry x0 x1 x2 x3 x4 x5 x6 = .later t) : t.watch = x0.watch := by
  have e := updateEntry_watch x0 x1 x2 x3 x4 x5 x6
  rw [h] at e
  exact e

@[simp ↓] theorem execTableWrite_watch (x0 : Cmd) (x1 : BitVec 16) (x2 : BitVec 32) (x3 : Bytes) (x4 : Bytes) (x5 :
    State) :
    outKeeps (execTableWrite x0 x1 x2 x3 x4 x5) x5.watch := by
  unfold execTableWrite
  refine runCommand_watch _ _ _ _ (fun aseq s => ?_)
  (try dsimp only)
  (repeat' split) <;> simp

@[simp ↓] theorem execTableDelete_watch (x0 : Cmd) (x1 : BitVec 16) (x2 : BitVec 32) (x3 : Bytes) (x4 : State) :
    outKeeps (execTableDelete x0 x1 x2 x3 x4) x4.watch := by
  unfold execTableDelete
  refine runCommand_watch _ _ _ _ (fun aseq s => ?_)
  (try dsimp only)
  (repeat' split) <;> simp

@[simp ↓] theorem emptied_watch (x0 : State) (x1 : Nat) (x2 : Nat) (x3 : Nat) :
    (emptied x0 x1 x2 x3).watch = x0.watch := by
  unfold emptied
  simp

@[simp ↓] theorem writeOps_watch (x0 : Nat) (x1 : Nat) (x2 : State) (x3 : List EntOp) :
    (writeOps x0 x1 x2 x3).watch = x2.watch := by
  fun_induction writeOps x0 x1 x2 x3 <;> simp_all +zetaDelta

@[simp ↓] theorem opsValidated_watch (x0 : State) (x1 : List EntOp) :
    (opsValidated x0 x1).watch = x0.watch := by
  fun_induction opsValidated x0 x1 <;> simp_all +zetaDelta

@[simp ↓] theorem waitDone_watch (x0 : State) (x1 : Nat) (x2 : Reply) :
    (waitDone x0 x1 x2).watch = x0.watch := by
  unfold waitDone
  simp

@[simp ↓] theorem endWait_watch (x0 : State) (x1 : TableWait) :
    (endWait x0 x1).watch = x0.watch := by
  unfold endWait
  simp

@[simp ↓] theorem fenceWaitEnd_watch (x0 : State) (x1 : Nat) (x2 : Bool) :
    (fenceWaitEnd x0 x1 x2).watch = x0.watch := by
  unfold fenceWaitEnd
  (repeat' split) <;> simp

@[simp ↓] theorem execBatchFenceWaitEnd_watch (x0 : BitVec 32) (x1 : State) :
    outKeeps (execBatchFenceWaitEnd x0 x1) x1.watch := by
  unfold execBatchFenceWaitEnd
  simp

theorem holdPlace_out (x0 : State) (x1 : Nat) (x2 : TableInfo) (x3 : Bytes) :
    ∀ t, holdPlace x0 x1 x2 x3 = some t → t.1.watch = x0.watch := by
  unfold holdPlace
  (repeat' split) <;> simp

theorem holdPlace_some (x0 : State) (x1 : Nat) (x2 : TableInfo) (x3 : Bytes) {t : State} {v} (h : holdPlace x0 x1 x2
    x3 = some (t, v)) : t.watch = x0.watch :=
  holdPlace_out x0 x1 x2 x3 _ h

@[simp ↓] theorem retireOps_watch (x0 : Nat) (x1 : State) (x2 : List EntOp) :
    (retireOps x0 x1 x2).watch = x1.watch := by
  fun_induction retireOps x0 x1 x2 <;> simp_all +zetaDelta

@[simp ↓] theorem opsRetired_watch (x0 : State) (x1 : List EntOp) :
    (opsRetired x0 x1).watch = x0.watch := by
  unfold opsRetired
  simp

theorem checkItem_watch (inst : Nat) (b : BatchCheck) (k : Nat) (it : BatchItem) :
    (checkItem inst b k it).s.watch = b.s.watch := by
  unfold checkItem
  dsimp only
  (repeat' split) <;> try simp
  next e => exact holdPlace_some _ _ _ _ e

theorem checkItems_watch (inst : Nat) (list : Bytes) (n : Nat) (b : BatchCheck) :
    (checkItems inst list n b).s.watch = b.s.watch := by
  induction n with
  | zero => rfl
  | succ n ih =>
    unfold checkItems
    rw [checkItem_watch, ih]

@[simp ↓] theorem execTableBatch_watch (c : Cmd) (list : Bytes) (count : BitVec 16) (s : State) :
    outKeeps (execTableBatch c list count s) s.watch := by
  unfold execTableBatch
  refine runCommand_watch _ _ _ _ (fun aseq s => ?_)
  dsimp only
  (repeat' split) <;> simp [checkItems_watch]


@[simp ↓] theorem execTableRead_watch (x0 : Cmd) (x1 : BitVec 16) (x2 : BitVec 32) (x3 : Bytes) (x4 : BitVec 64) (x5 :
    State) :
    outKeeps (execTableRead x0 x1 x2 x3 x4 x5) x5.watch := by
  unfold execTableRead
  refine runCommand_watch _ _ _ _ (fun aseq s => ?_)
  (try dsimp only)
  (repeat' split) <;> simp

@[simp ↓] theorem execDigestRead_watch (x0 : Cmd) (x1 : BitVec 64) (x2 : State) :
    outKeeps (execDigestRead x0 x1 x2) x2.watch := by
  unfold execDigestRead
  refine runCommand_watch _ _ _ _ (fun aseq s => ?_)
  (try dsimp only)
  (repeat' split) <;> simp

@[simp ↓] theorem execMacFlush_watch (x0 : Cmd) (x1 : Option (BitVec 16)) (x2 : Option (BitVec 16)) (x3 : State) :
    outKeeps (execMacFlush x0 x1 x2 x3) x3.watch := by
  unfold execMacFlush
  refine runCommand_watch _ _ _ _ (fun aseq s => ?_)
  (try dsimp only)
  (repeat' split) <;> simp

/-! Learn. -/

@[simp ↓] theorem modMac_watch (x0 : State) (x1 : Bytes) (x2 : Bytes → Bytes) :
    (modMac x0 x1 x2).watch = x0.watch := by
  unfold modMac
  simp

@[simp ↓] theorem postMove_watch (x0 : State) (x1 : Bytes) (x2 : Nat) (x3 : Nat) (x4 : Nat) (x5 : Nat) :
    (postMove x0 x1 x2 x3 x4 x5).watch = x0.watch := by
  unfold postMove
  simp

@[simp ↓] theorem moveEntry_watch (x0 : State) (x1 : Nat) (x2 : Bytes) (x3 : Nat) (x4 : Nat) (x5 : Bytes) :
    (moveEntry x0 x1 x2 x3 x4 x5).watch = x0.watch := by
  unfold moveEntry
  simp

@[simp ↓] theorem sightEntry_watch (x0 : State) (x1 : Nat) (x2 : Bytes) (x3 : Nat) (x4 : Nat) (x5 : Bytes) :
    (sightEntry x0 x1 x2 x3 x4 x5).watch = x0.watch := by
  unfold sightEntry
  (try dsimp only)
  (repeat' split) <;> simp

@[simp ↓] theorem sightLearn_watch (x0 : State) (x1 : Nat) (x2 : Learn) (x3 : Nat) (x4 : Bool) :
    (sightLearn x0 x1 x2 x3 x4).1.watch = x0.watch := by
  unfold sightLearn
  (repeat' split) <;> simp

theorem sightLearn_out (x0 : State) (x1 : Nat) (x2 : Learn) (x3 : Nat) (x4 : Bool) {t : State} {v} (h : sightLearn x0
    x1 x2 x3 x4 = (t, v)) : t.watch = x0.watch := by
  have e := sightLearn_watch x0 x1 x2 x3 x4
  rw [h] at e
  exact e

@[simp ↓] theorem missDirect_watch (x0 : State) (x1 : Nat) (x2 : Nat) (x3 : Bytes) (x4 : Nat) (x5 : Nat) :
    (missDirect x0 x1 x2 x3 x4 x5).watch = x0.watch := by
  unfold missDirect
  (try dsimp only)
  (repeat' split) <;> simp

@[simp ↓] theorem missNotify_watch (x0 : State) (x1 : Nat) (x2 : Nat) (x3 : Bytes) (x4 : Nat) (x5 : Nat) :
    (missNotify x0 x1 x2 x3 x4 x5).watch = x0.watch := by
  unfold missNotify
  (try dsimp only)
  (repeat' split) <;> simp

@[simp ↓] theorem sourceLookup_watch (x0 : State) (x1 : Nat) (x2 : Frame) (x3 : Nat) :
    (sourceLookup x0 x1 x2 x3).watch = x0.watch := by
  unfold sourceLookup
  (try dsimp only)
  (repeat' split) <;> simp

@[simp ↓] theorem refuseLearn_watch (x0 : State) (x1 : Learn) (x2 : Nat) :
    (refuseLearn x0 x1 x2).watch = x0.watch := by
  unfold refuseLearn
  (try dsimp only)
  (repeat' split) <;> simp

@[simp ↓] theorem dropFlight_watch (x0 : State) (x1 : Learn) :
    (dropFlight x0 x1).watch = x0.watch := by
  unfold dropFlight
  simp

@[simp ↓] theorem learnPlace_watch (x0 : State) (x1 : Learn) (x2 : Nat) :
    (learnPlace x0 x1 x2).watch = x0.watch := by
  unfold learnPlace
  (repeat' split) <;> simp

@[simp ↓] theorem execLearnInsertDone_watch (x0 : Bytes) (x1 : BitVec 16) (x2 : State) :
    outKeeps (execLearnInsertDone x0 x1 x2) x2.watch := by
  unfold execLearnInsertDone
  (repeat' split) <;> simp

@[simp ↓] theorem pathDone_watch (x0 : State) (x1 : HashedMove) :
    (pathDone x0 x1).watch = x0.watch := by
  unfold pathDone
  (repeat' split) <;> simp

@[simp ↓] theorem execHashedMoveFlip_watch (x0 : BitVec 8) (x1 : Nat) (x2 : State) :
    outKeeps (execHashedMoveFlip x0 x1 x2) x2.watch := by
  unfold execHashedMoveFlip
  (try dsimp only)
  (repeat' split) <;> simp

@[simp ↓] theorem execPendingEntryExpire_watch (x0 : Bytes) (x1 : BitVec 16) (x2 : State) :
    outKeeps (execPendingEntryExpire x0 x1 x2) x2.watch := by
  unfold execPendingEntryExpire
  simp

@[simp ↓] theorem execMoveCandidateExpire_watch (x0 : Bytes) (x1 : BitVec 16) (x2 : State) :
    outKeeps (execMoveCandidateExpire x0 x1 x2) x2.watch := by
  unfold execMoveCandidateExpire
  simp

@[simp ↓] theorem execMacSweepVisit_watch (x0 : Nat) (x1 : State) :
    outKeeps (execMacSweepVisit x0 x1) x1.watch := by
  unfold execMacSweepVisit
  (try dsimp only)
  (repeat' split) <;> simp

@[simp ↓] theorem postRepoint_watch (x0 : State) (x1 : Nat) (x2 : Nat) (x3 : Nat) (x4 : Nat) :
    (postRepoint x0 x1 x2 x3 x4).watch = x0.watch := by
  unfold postRepoint
  simp

@[simp ↓] theorem execRepointCompare_watch (x0 : BitVec 8) (x1 : Nat) (x2 : Bytes) (x3 : Bool) (x4 : State) :
    outKeeps (execRepointCompare x0 x1 x2 x3 x4) x4.watch := by
  unfold execRepointCompare
  (try dsimp only)
  (repeat' split) <;> simp

@[simp ↓] theorem execEmScrubRead_watch (x0 : BitVec 8) (x1 : BitVec 8) (x2 : Nat) (x3 : ReadOutcome) (x4 : State) :
    outKeeps (execEmScrubRead x0 x1 x2 x3 x4) x4.watch := by
  unfold execEmScrubRead
  (repeat' split) <;> simp

/-! FlowBase. -/

@[simp ↓] theorem setCourse_watch (x0 : State) (x1 : Nat) (x2 : Nat) (x3 : Course) :
    (setCourse x0 x1 x2 x3).watch = x0.watch := by
  unfold setCourse
  simp

@[simp ↓] theorem bankAccessBy_watch (x0 : State) (x1 : Nat) (x2 : Nat) (x3 : Nat) :
    (bankAccessBy x0 x1 x2 x3).watch = x0.watch := by
  unfold bankAccessBy
  simp

@[simp ↓] theorem bankAccess_watch (x0 : State) (x1 : Nat) (x2 : Nat) :
    (bankAccess x0 x1 x2).watch = x0.watch := by
  unfold bankAccess
  simp

@[simp ↓] theorem courseCorrected_watch (x0 : State) (x1 : Nat) (x2 : Nat) :
    (courseCorrected x0 x1 x2).watch = x0.watch := by
  unfold courseCorrected
  simp

@[simp ↓] theorem courseUncorrectable_watch (x0 : State) (x1 : Nat) (x2 : Nat) (x3 : Bool) :
    (courseUncorrectable x0 x1 x2 x3).watch = x0.watch := by
  unfold courseUncorrectable
  simp

@[simp ↓] theorem setIdx_watch (x0 : State) (x1 : Nat) (x2 : Nat) :
    (setIdx x0 x1 x2).watch = x0.watch := by
  unfold setIdx
  simp

@[simp ↓] theorem spillUp_watch (x0 : State) (x1 : Nat) :
    (spillUp x0 x1).watch = x0.watch := by
  unfold spillUp
  simp

@[simp ↓] theorem spillDown_watch (x0 : State) (x1 : Nat) :
    (spillDown x0 x1).watch = x0.watch := by
  unfold spillDown
  simp

@[simp ↓] theorem dropIdx_watch (x0 : State) (x1 : Nat) :
    (dropIdx x0 x1).watch = x0.watch := by
  unfold dropIdx
  simp

@[simp ↓] theorem setDir_watch (x0 : State) (x1 : Nat) (x2 : Nat) :
    (setDir x0 x1 x2).watch = x0.watch := by
  unfold setDir
  simp

@[simp ↓] theorem setRec_watch (x0 : State) (x1 : Nat) (x2 : Bytes) :
    (setRec x0 x1 x2).watch = x0.watch := by
  unfold setRec
  simp

@[simp ↓] theorem setExt_watch (x0 : State) (x1 : Nat) (x2 : Bytes) :
    (setExt x0 x1 x2).watch = x0.watch := by
  unfold setExt
  simp

@[simp ↓] theorem setCold_watch (x0 : State) (x1 : Nat) (x2 : Bytes) :
    (setCold x0 x1 x2).watch = x0.watch := by
  unfold setCold
  simp

@[simp ↓] theorem modCold_watch (x0 : State) (x1 : Nat) (x2 : Bytes → Bytes → Bytes × Bytes) :
    (modCold x0 x1 x2).watch = x0.watch := by
  unfold modCold
  simp

@[simp ↓] theorem setColdFlags_watch (x0 : State) (x1 : Nat) (x2 : Nat) :
    (setColdFlags x0 x1 x2).watch = x0.watch := by
  unfold setColdFlags
  simp

theorem allocSlot_out (x0 : State) (x1 : Bytes) :
    ∀ t, allocSlot x0 x1 = some t → t.1.watch = x0.watch := by
  unfold allocSlot
  (repeat' split) <;> simp

theorem allocSlot_some (x0 : State) (x1 : Bytes) {t : State} {v} (h : allocSlot x0 x1 = some (t, v)) : t.watch =
    x0.watch :=
  allocSlot_out x0 x1 _ h

@[simp ↓] theorem freeSlot_watch (x0 : State) (x1 : Nat) :
    (freeSlot x0 x1).watch = x0.watch := by
  unfold freeSlot
  simp

theorem allocCold_out (x0 : State) :
    ∀ t, allocCold x0 = some t → t.1.watch = x0.watch := by
  unfold allocCold
  (repeat' split) <;> simp

theorem allocCold_some (x0 : State) {t : State} {v} (h : allocCold x0 = some (t, v)) : t.watch = x0.watch :=
  allocCold_out x0 _ h

@[simp ↓] theorem freeCold_watch (x0 : State) (x1 : Nat) :
    (freeCold x0 x1).watch = x0.watch := by
  unfold freeCold
  simp

@[simp ↓] theorem postQuota_watch (x0 : State) (x1 : Nat) (x2 : Nat) (x3 : Nat) :
    (postQuota x0 x1 x2 x3).watch = x0.watch := by
  unfold postQuota
  simp

@[simp ↓] theorem checkQuota_watch (x0 : State) (x1 : Nat) :
    (checkQuota x0 x1).watch = x0.watch := by
  unfold checkQuota
  (repeat' split) <;> simp

@[simp ↓] theorem tenUp_watch (x0 : State) (x1 : Nat) :
    (tenUp x0 x1).watch = x0.watch := by
  unfold tenUp
  simp

@[simp ↓] theorem tenDown_watch (x0 : State) (x1 : Nat) :
    (tenDown x0 x1).watch = x0.watch := by
  unfold tenDown
  simp

@[simp ↓] theorem tierBUp_watch (x0 : State) (x1 : Nat) :
    (tierBUp x0 x1).watch = x0.watch := by
  unfold tierBUp
  simp

@[simp ↓] theorem tierBDown_watch (x0 : State) (x1 : Nat) :
    (tierBDown x0 x1).watch = x0.watch := by
  unfold tierBDown
  simp

@[simp ↓] theorem account_watch (x0 : State) (x1 : Nat) (x2 : Nat) (x3 : Nat) :
    (account x0 x1 x2 x3).watch = x0.watch := by
  unfold account
  simp

@[simp ↓] theorem modEntries_watch (x0 : State) (x1 : Nat) (x2 : Nat → Nat) :
    (modEntries x0 x1 x2).watch = x0.watch := by
  unfold modEntries
  simp

@[simp ↓] theorem dropEntries_watch (x0 : State) (x1 : Nat) :
    (dropEntries x0 x1).watch = x0.watch := by
  unfold dropEntries
  simp

@[simp ↓] theorem dropDir_watch (x0 : State) (x1 : Nat) (x2 : Bytes) :
    (dropDir x0 x1 x2).watch = x0.watch := by
  unfold dropDir
  simp

@[simp ↓] theorem markBad_watch (x0 : State) (x1 : Nat) (x2 : Bytes) (x3 : Bool) :
    (markBad x0 x1 x2 x3).watch = x0.watch := by
  unfold markBad
  simp

@[simp ↓] theorem touchRecord_watch (x0 : State) (x1 : Nat) (x2 : Option RecPlace) :
    (touchRecord x0 x1 x2).watch = x0.watch := by
  unfold touchRecord
  (repeat' split) <;> simp

/-! Mirror. -/

@[simp ↓] theorem sendRecord_watch (x0 : State) (x1 : Nat) (x2 : Nat) (x3 : Nat) (x4 : Bytes) (x5 : Bytes) (x6 : Bool) :
    (sendRecord x0 x1 x2 x3 x4 x5 x6).watch = x0.watch := by
  unfold sendRecord
  simp

@[simp ↓] theorem mirrorChange_watch (x0 : State) (x1 : Nat) (x2 : Nat) :
    (mirrorChange x0 x1 x2).watch = x0.watch := by
  unfold mirrorChange
  (try dsimp only)
  (repeat' split) <;> simp

@[simp ↓] theorem mirrorCold_watch (x0 : State) (x1 : Nat) (x2 : Nat) :
    (mirrorCold x0 x1 x2).watch = x0.watch := by
  unfold mirrorCold
  (try dsimp only)
  (repeat' split) <;> simp

/-! Flow. -/

@[simp ↓] theorem writeExport_watch (x0 : State) (x1 : Bytes) (x2 : Bytes) (x3 : Nat) :
    (writeExport x0 x1 x2 x3).watch = x0.watch := by
  unfold writeExport
  (try dsimp only)
  (repeat' split) <;> (try simp_all) <;> grind [telPost_out]

@[simp ↓] theorem exportSlot_watch (x0 : State) (x1 : Nat) :
    (exportSlot x0 x1).watch = x0.watch := by
  unfold exportSlot
  simp

@[simp ↓] theorem exportCold_watch (x0 : State) (x1 : Nat) :
    (exportCold x0 x1).watch = x0.watch := by
  unfold exportCold
  simp

@[simp ↓] theorem adopt_watch (x0 : State) (x1 : Bytes) :
    (adopt x0 x1).watch = x0.watch := by
  unfold adopt
  simp

@[simp ↓] theorem openFold_watch (x0 : State) (x1 : Nat) :
    (openFold x0 x1).watch = x0.watch := by
  unfold openFold
  simp

@[simp ↓] theorem writeSlot_watch (x0 : State) (x1 : Nat) (x2 : Nat) (x3 : Nat) (x4 : Nat) (x5 : Bool) :
    (writeSlot x0 x1 x2 x3 x4 x5).watch = x0.watch := by
  unfold writeSlot
  simp

@[simp ↓] theorem coldSaturates_watch (x0 : State) (x1 : Bytes) :
    (coldSaturates x0 x1).watch = x0.watch := by
  unfold coldSaturates
  simp

@[simp ↓] theorem writeColdCounts_watch (x0 : State) (x1 : Nat) (x2 : Nat) (x3 : Nat) (x4 : Bool) :
    (writeColdCounts x0 x1 x2 x3 x4).watch = x0.watch := by
  unfold writeColdCounts
  simp

@[simp ↓] theorem settleFetches_watch (x0 : State) :
    (settleFetches x0).watch = x0.watch := by
  unfold settleFetches
  simp

@[simp ↓] theorem applyComb_watch (x0 : State) (x1 : Comb) :
    (applyComb x0 x1).watch = x0.watch := by
  unfold applyComb
  (try dsimp only)
  (repeat' split) <;> simp

@[simp ↓] theorem writeBackRec_watch (x0 : State) (x1 : Nat) (x2 : Nat) (x3 : Bool) (x4 : Bool) (x5 : Nat) :
    (writeBackRec x0 x1 x2 x3 x4 x5).watch = x0.watch := by
  unfold writeBackRec
  (try dsimp only)
  (repeat' split) <;> simp

@[simp ↓] theorem flushComb_watch (x0 : State) (x1 : Nat) (x2 : Nat) :
    (flushComb x0 x1 x2).watch = x0.watch := by
  unfold flushComb
  (repeat' split) <;> simp

@[simp ↓] theorem execCombinerApply_watch (x0 : Nat) (x1 : Bool) (x2 : State) :
    outKeeps (execCombinerApply x0 x1 x2) x2.watch := by
  unfold execCombinerApply
  (repeat' split) <;> simp

@[simp ↓] theorem applyTrack_watch (x0 : State) (x1 : Track) :
    (applyTrack x0 x1).watch = x0.watch := by
  unfold applyTrack
  (repeat' split) <;> simp

@[simp ↓] theorem execTrackingUpdateApply_watch (x0 : State) :
    outKeeps (execTrackingUpdateApply x0) x0.watch := by
  unfold execTrackingUpdateApply
  (repeat' split) <;> simp

@[simp ↓] theorem flushTracks_watch (x0 : State) (x1 : Nat) (x2 : Nat) :
    (flushTracks x0 x1 x2).watch = x0.watch := by
  unfold flushTracks
  simp

@[simp ↓] theorem modFold_watch (x0 : State) (x1 : Nat) (x2 : Nat) (x3 : Fold → Fold) :
    (modFold x0 x1 x2 x3).watch = x0.watch := by
  unfold modFold
  simp

@[simp ↓] theorem takeCounts_watch (x0 : State) (x1 : Nat) (x2 : Nat) :
    (takeCounts x0 x1 x2).1.watch = x0.watch := by
  unfold takeCounts
  simp

theorem takeCounts_out (x0 : State) (x1 : Nat) (x2 : Nat) {t : State} {v} (h : takeCounts x0 x1 x2 = (t, v)) : t.watch
    = x0.watch := by
  have e := takeCounts_watch x0 x1 x2
  rw [h] at e
  exact e

@[simp ↓] theorem closeFold_watch (x0 : State) (x1 : Nat) (x2 : Nat) (x3 : Nat) (x4 : Nat) :
    (closeFold x0 x1 x2 x3 x4).watch = x0.watch := by
  unfold closeFold
  simp

@[simp ↓] theorem requeueFold_watch (x0 : State) (x1 : Nat) (x2 : Nat) :
    (requeueFold x0 x1 x2).watch = x0.watch := by
  unfold requeueFold
  (repeat' split) <;> simp

/-! Verdict. -/

@[simp ↓] theorem mirrorLost_watch (x0 : State) (x1 : Nat) :
    (mirrorLost x0 x1).watch = x0.watch := by
  unfold mirrorLost
  simp

@[simp ↓] theorem handOver_watch (x0 : State) (x1 : Nat) (x2 : Frame) (x3 : List CopyReq) :
    (handOver x0 x1 x2 x3).watch = x0.watch := by
  unfold handOver
  (try dsimp only)
  (repeat' split) <;> simp

@[simp ↓] theorem writeBackOf_watch (x0 : State) (x1 : Frame) :
    (writeBackOf x0 x1).watch = x0.watch := by
  unfold writeBackOf
  (repeat' split) <;> simp

@[simp ↓] theorem trackOf_watch (x0 : State) (x1 : Frame) :
    (trackOf x0 x1).watch = x0.watch := by
  unfold trackOf
  (repeat' split) <;> simp

@[simp ↓] theorem passVerdict_watch (x0 : State) (x1 : Nat) (x2 : Frame) :
    (passVerdict x0 x1 x2).watch = x0.watch := by
  unfold passVerdict
  (try dsimp only)
  (repeat' split) <;> simp

@[simp ↓] theorem releaseFrame_watch (x0 : State) (x1 : Nat) (x2 : RecPlace) :
    (releaseFrame x0 x1 x2).watch = x0.watch := by
  unfold releaseFrame
  (try dsimp only)
  (repeat' split) <;> simp

@[simp ↓] theorem unblock_watch (x0 : State) (x1 : Bytes) :
    (unblock x0 x1).watch = x0.watch := by
  unfold unblock
  (try dsimp only)
  (repeat' split) <;> simp (disch := first | (intros; (try dsimp only); (repeat' split) <;> simp) | fail)

@[simp ↓] theorem dropParked_watch (x0 : State) (x1 : Nat) :
    (dropParked x0 x1).watch = x0.watch := by
  unfold dropParked
  (repeat' split) <;> simp

@[simp ↓] theorem releaseParked_watch (x0 : State) (x1 : Nat) (x2 : RecPlace) :
    (releaseParked x0 x1 x2).watch = x0.watch := by
  unfold releaseParked
  (repeat' split) <;> simp

@[simp ↓] theorem releaseLate_watch (x0 : State) (x1 : Nat) :
    (releaseLate x0 x1).watch = x0.watch := by
  unfold releaseLate
  (repeat' split) <;> simp

@[simp ↓] theorem releaseHeld_watch (x0 : State) (x1 : Nat) :
    (releaseHeld x0 x1).watch = x0.watch := by
  unfold releaseHeld
  simp

@[simp ↓] theorem setTask_watch (x0 : State) (x1 : Nat) (x2 : Option Task) :
    (setTask x0 x1 x2).watch = x0.watch := by
  unfold setTask
  simp

@[simp ↓] theorem newTask_watch (x0 : State) (x1 : Task) :
    (newTask x0 x1).1.watch = x0.watch := by
  unfold newTask
  simp

theorem newTask_out (x0 : State) (x1 : Task) {t : State} {v} (h : newTask x0 x1 = (t, v)) : t.watch = x0.watch := by
  have e := newTask_watch x0 x1
  rw [h] at e
  exact e

@[simp ↓] theorem postAdmission_watch (x0 : State) (x1 : Nat) (x2 : Nat) (x3 : Nat) :
    (postAdmission x0 x1 x2 x3).watch = x0.watch := by
  unfold postAdmission
  simp

@[simp ↓] theorem closePort_watch (x0 : State) (x1 : Nat) (x2 : Nat) :
    (closePort x0 x1 x2).watch = x0.watch := by
  unfold closePort
  simp

@[simp ↓] theorem reopenPort_watch (x0 : State) (x1 : Nat) (x2 : Nat) :
    (reopenPort x0 x1 x2).watch = x0.watch := by
  unfold reopenPort
  simp

@[simp ↓] theorem checkAdmission_watch (x0 : State) (x1 : Nat) :
    (checkAdmission x0 x1).watch = x0.watch := by
  unfold checkAdmission
  simp

@[simp ↓] theorem returnAdmission_watch (x0 : State) (x1 : Frame) :
    (returnAdmission x0 x1).watch = x0.watch := by
  unfold returnAdmission
  simp

@[simp ↓] theorem parkSetup_watch (x0 : State) (x1 : Nat) (x2 : Frame) :
    (parkSetup x0 x1 x2).watch = x0.watch := by
  unfold parkSetup
  simp

@[simp ↓] theorem dropVerdict_watch (x0 : State) (x1 : Nat) (x2 : Frame) :
    (dropVerdict x0 x1 x2).watch = x0.watch := by
  unfold dropVerdict
  simp

@[simp ↓] theorem assemble_watch (x0 : State) (x1 : Nat) :
    (assemble x0 x1).watch = x0.watch := by
  unfold assemble
  (repeat' split) <;> simp

/-! Insert. -/

@[simp ↓] theorem beginMove_watch (x0 : State) (x1 : Move) :
    (beginMove x0 x1).watch = x0.watch := by
  unfold beginMove
  simp

@[simp ↓] theorem flipMove_watch (x0 : State) (x1 : Move) :
    (flipMove x0 x1).watch = x0.watch := by
  unfold flipMove
  simp

@[simp ↓] theorem voidMoves_watch (x0 : State) (x1 : Move → Bool) :
    (voidMoves x0 x1).watch = x0.watch := by
  unfold voidMoves
  simp

theorem placeKey_out (x0 : State) (x1 : Bytes) (x2 : Nat) (x3 : PlaceFor) :
    ∀ t, placeKey x0 x1 x2 x3 = some t → t.1.watch = x0.watch := by
  unfold placeKey
  (try dsimp only)
  (repeat' split) <;> simp

theorem placeKey_some (x0 : State) (x1 : Bytes) (x2 : Nat) (x3 : PlaceFor) {t : State} {v} (h : placeKey x0 x1 x2 x3 =
    some (t, v)) : t.watch = x0.watch :=
  placeKey_out x0 x1 x2 x3 _ h

theorem placeDir_out (x0 : State) (x1 : Bytes) (x2 : Nat) (x3 : Nat) :
    ∀ t, placeDir x0 x1 x2 x3 = some t → t.1.watch = x0.watch := by
  unfold placeDir
  (try dsimp only)
  (repeat' split) <;> simp

theorem placeDir_some (x0 : State) (x1 : Bytes) (x2 : Nat) (x3 : Nat) {t : State} {v} (h : placeDir x0 x1 x2 x3 = some
    (t, v)) : t.watch = x0.watch :=
  placeDir_out x0 x1 x2 x3 _ h

@[simp ↓] theorem modIns_watch (x0 : State) (x1 : Nat) (x2 : Insertion → Insertion) :
    (modIns x0 x1 x2).watch = x0.watch := by
  unfold modIns
  simp

@[simp ↓] theorem endIns_watch (x0 : State) (x1 : Nat) (x2 : Nat) :
    (endIns x0 x1 x2).watch = x0.watch := by
  unfold endIns
  simp

@[simp ↓] theorem postInsertFail_watch (x0 : State) (x1 : Bytes) (x2 : Nat) (x3 : Nat) :
    (postInsertFail x0 x1 x2 x3).watch = x0.watch := by
  unfold postInsertFail
  simp

@[simp ↓] theorem tellOrigin_watch (x0 : State) (x1 : Origin) (x2 : Reply) :
    (tellOrigin x0 x1 x2).watch = x0.watch := by
  unfold tellOrigin
  (repeat' split) <;> simp

@[simp ↓] theorem coldFails_watch (x0 : State) (x1 : Bytes) (x2 : ColdFor) :
    (coldFails x0 x1 x2).watch = x0.watch := by
  unfold coldFails
  (repeat' split) <;> simp

@[simp ↓] theorem enterDemotion_watch (x0 : State) (x1 : Nat) (x2 : Nat) (x3 : Origin) :
    (enterDemotion x0 x1 x2 x3).watch = x0.watch := by
  unfold enterDemotion
  simp

@[simp ↓] theorem giveBackCold_watch (x0 : State) (x1 : ColdPlace) :
    (giveBackCold x0 x1).watch = x0.watch := by
  unfold giveBackCold
  simp

@[simp ↓] theorem coldPlaced_watch (x0 : State) (x1 : ColdPlace) :
    (coldPlaced x0 x1).watch = x0.watch := by
  unfold coldPlaced
  (repeat' split) <;> simp

@[simp ↓] theorem placeDirs_watch (s : State) (p : ColdPlace) (n dir : Nat) : (placeDirs s p n dir).watch = s.watch :=
    by
  induction n generalizing s dir with
  | zero => simp [placeDirs]
  | succ n ih =>
    unfold placeDirs
    split
    · simp
    · next e => rw [ih, placeDir_some _ _ _ _ e]
    · next e => rw [placeDir_some _ _ _ _ e]


@[simp ↓] theorem takeCold_watch (x0 : State) (x1 : Bytes) (x2 : Bytes) (x3 : ColdFor) :
    (takeCold x0 x1 x2 x3).watch = x0.watch := by
  unfold takeCold
  (try dsimp only)
  (repeat' split) <;> (try simp) <;> (repeat first | rfl | refine (allocCold_some _ (by assumption)).trans ?_ | fail) <;> simp

@[simp ↓] theorem freeLater_watch (x0 : State) (x1 : Nat) (x2 : Nat) :
    (freeLater x0 x1 x2).watch = x0.watch := by
  unfold freeLater
  simp

@[simp ↓] theorem insertFails_watch (x0 : State) (x1 : Insertion) (x2 : Nat) :
    (insertFails x0 x1 x2).watch = x0.watch := by
  unfold insertFails
  simp

@[simp ↓] theorem placeReturnKey_watch (x0 : State) (x1 : Insertion) :
    (placeReturnKey x0 x1).watch = x0.watch := by
  unfold placeReturnKey
  (try dsimp only)
  (repeat' split) <;> (try simp) <;> (repeat first | rfl | refine (placeKey_some _ _ _ _ (by assumption)).trans ?_ | fail) <;> simp

@[simp ↓] theorem startInsert_watch (x0 : State) (x1 : Bytes) (x2 : Bytes) (x3 : Origin) :
    (startInsert x0 x1 x2 x3).watch = x0.watch := by
  unfold startInsert
  (try dsimp only)
  (repeat' split) <;> (try simp) <;> (repeat first | rfl | refine (allocSlot_some _ _ (by assumption)).trans ?_ | refine (placeKey_some _ _ _ _ (by assumption)).trans ?_ | fail | simp)

@[simp ↓] theorem setThread_watch (x0 : State) (x1 : Nat) (x2 : Nat) (x3 : Thread) :
    (setThread x0 x1 x2 x3).watch = x0.watch := by
  unfold setThread
  simp

@[simp ↓] theorem memResult_watch (x0 : State) (x1 : Nat) (x2 : Nat) (x3 : Nat) (x4 : Nat) (x5 : Bytes) :
    (memResult x0 x1 x2 x3 x4 x5).watch = x0.watch := by
  unfold memResult
  simp

@[simp ↓] theorem ackRecord_watch (x0 : State) (x1 : Nat) (x2 : Nat) (x3 : Nat) (x4 : Nat) :
    (ackRecord x0 x1 x2 x3 x4).watch = x0.watch := by
  unfold ackRecord
  simp

@[simp ↓] theorem countOutcome_watch (x0 : State) (x1 : Nat) (x2 : Nat) (x3 : Nat) :
    (countOutcome x0 x1 x2 x3).watch = x0.watch := by
  unfold countOutcome
  simp

@[simp ↓] theorem dropOnRecord_watch (x0 : State) (x1 : Nat) (x2 : Nat) :
    (dropOnRecord x0 x1 x2).watch = x0.watch := by
  unfold dropOnRecord
  (repeat' split) <;> simp

@[simp ↓] theorem releaseOrHold_watch (x0 : State) (x1 : List Nat) (x2 : RecPlace) (x3 : Option (Nat × Nat)) :
    (releaseOrHold x0 x1 x2 x3).watch = x0.watch := by
  unfold releaseOrHold
  (repeat' split) <;> simp

@[simp ↓] theorem sendInsert_watch (x0 : State) (x1 : Bytes) (x2 : Bytes) :
    (sendInsert x0 x1 x2).1.watch = x0.watch := by
  unfold sendInsert
  (repeat' split) <;> simp

theorem sendInsert_out (x0 : State) (x1 : Bytes) (x2 : Bytes) {t : State} {v} (h : sendInsert x0 x1 x2 = (t, v)) :
    t.watch = x0.watch := by
  have e := sendInsert_watch x0 x1 x2
  rw [h] at e
  exact e

@[simp ↓] theorem noteInserted_watch (x0 : State) (x1 : Insertion) (x2 : Nat) :
    (noteInserted x0 x1 x2).watch = x0.watch := by
  unfold noteInserted
  (repeat' split) <;> simp

@[simp ↓] theorem tellInserted_watch (x0 : State) (x1 : Insertion) (x2 : Nat) (x3 : Nat) :
    (tellInserted x0 x1 x2 x3).watch = x0.watch := by
  unfold tellInserted
  (repeat' split) <;> simp

@[simp ↓] theorem validateInsert_watch (x0 : State) (x1 : Insertion) :
    (validateInsert x0 x1).watch = x0.watch := by
  unfold validateInsert
  (repeat' split) <;> simp

@[simp ↓] theorem finishInsert_watch (x0 : State) (x1 : Insertion) (x2 : Nat) :
    (finishInsert x0 x1 x2).watch = x0.watch := by
  unfold finishInsert
  simp

@[simp ↓] theorem insertionEnd_watch (x0 : State) (x1 : Nat) :
    (insertionEnd x0 x1).watch = x0.watch := by
  unfold insertionEnd
  (repeat' split) <;> simp

@[simp ↓] theorem pruneMgmt_watch (x0 : State) :
    (pruneMgmt x0).watch = x0.watch := by
  unfold pruneMgmt
  simp

@[simp ↓] theorem carryMark_watch (x0 : State) (x1 : Bool) (x2 : Nat) (x3 : Nat) (x4 : Nat) (x5 : Nat) :
    (carryMark x0 x1 x2 x3 x4 x5).watch = x0.watch := by
  unfold carryMark
  simp

@[simp ↓] theorem execSpillCountDecrement_watch (x0 : Nat) (x1 : State) :
    outKeeps (execSpillCountDecrement x0 x1) x1.watch := by
  unfold execSpillCountDecrement
  (repeat' split) <;> simp

/-! Lookup. -/

@[simp ↓] theorem postDeadline_watch (x0 : State) (x1 : Frame) (x2 : Nat) (x3 : Nat) :
    (postDeadline x0 x1 x2 x3).watch = x0.watch := by
  unfold postDeadline
  simp

@[simp ↓] theorem leaveFetch_watch (x0 : State) (x1 : Nat) :
    (leaveFetch x0 x1).watch = x0.watch := by
  unfold leaveFetch
  simp

@[simp ↓] theorem deadlineFault_watch (x0 : State) (x1 : Nat) (x2 : Nat) :
    (deadlineFault x0 x1 x2).watch = x0.watch := by
  unfold deadlineFault
  (repeat' split) <;> simp

@[simp ↓] theorem execDeadlineFault_watch (x0 : Nat) (x1 : State) :
    outKeeps (execDeadlineFault x0 x1) x1.watch := by
  unfold execDeadlineFault
  (repeat' split) <;> simp

@[simp ↓] theorem setupCheck_watch (x0 : State) (x1 : Nat) :
    (setupCheck x0 x1).watch = x0.watch := by
  unfold setupCheck
  (try dsimp only)
  (repeat' split) <;> simp

@[simp ↓] theorem recordHit_watch (x0 : State) (x1 : Nat) (x2 : Bytes) (x3 : Nat) :
    (recordHit x0 x1 x2 x3).watch = x0.watch := by
  unfold recordHit
  (repeat' split) <;> simp

@[simp ↓] theorem serveFrame_watch (x0 : State) (x1 : Nat) (x2 : Bytes) (x3 : Nat) (x4 : Nat) (x5 : Bool) (x6 : Bool)
    (x7 : Bool) :
    (serveFrame x0 x1 x2 x3 x4 x5 x6 x7).watch = x0.watch := by
  unfold serveFrame
  (repeat' split) <;> simp

@[simp ↓] theorem serveHot_watch (x0 : Bool) (x1 : Nat) (x2 : State) (x3 : Nat) :
    (serveHot x0 x1 x2 x3).watch = x2.watch := by
  unfold serveHot
  simp

@[simp ↓] theorem serveCold_watch (x0 : Nat) (x1 : Nat) (x2 : State) (x3 : Nat) :
    (serveCold x0 x1 x2 x3).watch = x2.watch := by
  unfold serveCold
  simp

@[simp ↓] theorem modFetch_watch (x0 : State) (x1 : Nat) (x2 : Fetch → Fetch) :
    (modFetch x0 x1 x2).watch = x0.watch := by
  unfold modFetch
  simp

@[simp ↓] theorem dropFetch_watch (x0 : State) (x1 : Nat) :
    (dropFetch x0 x1).watch = x0.watch := by
  unfold dropFetch
  simp

@[simp ↓] theorem renewDem_watch (x0 : State) (x1 : Nat) :
    (renewDem x0 x1).watch = x0.watch := by
  unfold renewDem
  simp

@[simp ↓] theorem joinServed_watch (x0 : State) (x1 : Nat) (x2 : Fetch) :
    (joinServed x0 x1 x2).watch = x0.watch := by
  unfold joinServed
  (repeat' split) <;> simp

@[simp ↓] theorem startFetch_watch (x0 : State) (x1 : Nat) :
    (startFetch x0 x1).watch = x0.watch := by
  unfold startFetch
  (repeat' split) <;> simp

@[simp ↓] theorem finishPromotion_watch (x0 : State) (x1 : Fetch) (x2 : Nat) (x3 : Nat) :
    (finishPromotion x0 x1 x2 x3).watch = x0.watch := by
  unfold finishPromotion
  simp

@[simp ↓] theorem refusePromotion_watch (x0 : State) (x1 : Fetch) (x2 : Nat) (x3 : Nat) :
    (refusePromotion x0 x1 x2 x3).watch = x0.watch := by
  unfold refusePromotion
  simp

@[simp ↓] theorem promoteReturn_watch (x0 : State) (x1 : Fetch) (x2 : Nat) (x3 : Nat) :
    (promoteReturn x0 x1 x2 x3).watch = x0.watch := by
  unfold promoteReturn
  (try dsimp only)
  (repeat' split) <;> (try simp) <;> (repeat first | rfl | refine (placeKey_some _ _ _ _ (by assumption)).trans ?_ | fail) <;> simp

@[simp ↓] theorem promote_watch (x0 : State) (x1 : Fetch) (x2 : Nat) (x3 : Nat) (x4 : Nat) :
    (promote x0 x1 x2 x3 x4).watch = x0.watch := by
  unfold promote
  (try dsimp only)
  (repeat' split) <;> (try simp) <;> (repeat first | rfl | refine (placeKey_some _ _ _ _ (by assumption)).trans ?_ | fail) <;> simp

@[simp ↓] theorem fetchCold_watch (x0 : State) (x1 : Fetch) (x2 : Nat) :
    (fetchCold x0 x1 x2).watch = x0.watch := by
  unfold fetchCold
  simp

@[simp ↓] theorem fetchHit_watch (x0 : State) (x1 : Fetch) (x2 : Nat) :
    (fetchHit x0 x1 x2).watch = x0.watch := by
  unfold fetchHit
  (try dsimp only)
  (repeat' split) <;> (try simp) <;> (repeat first | rfl | refine (allocSlot_some _ _ (by assumption)).trans ?_ | fail) <;> simp

@[simp ↓] theorem fetchMiss_watch (x0 : State) (x1 : Fetch) :
    (fetchMiss x0 x1).watch = x0.watch := by
  unfold fetchMiss
  simp

@[simp ↓] theorem fetchBad_watch (x0 : State) (x1 : Fetch) (x2 : Option Nat) :
    (fetchBad x0 x1 x2).watch = x0.watch := by
  unfold fetchBad
  (repeat' split) <;> simp

@[simp ↓] theorem fetchMarked_watch (x0 : State) (x1 : Fetch) :
    (fetchMarked x0 x1).watch = x0.watch := by
  unfold fetchMarked
  simp

@[simp ↓] theorem reinserted_watch (x0 : State) (x1 : Nat) :
    (reinserted x0 x1).watch = x0.watch := by
  unfold reinserted
  (repeat' split) <;> simp

@[simp ↓] theorem reinsertFails_watch (x0 : State) (x1 : Nat) :
    (reinsertFails x0 x1).watch = x0.watch := by
  unfold reinsertFails
  simp

@[simp ↓] theorem reinsert_watch (slot n dir : Nat) (s : State) : (reinsert slot n dir s).watch = s.watch := by
  induction n generalizing s dir with
  | zero => simp [reinsert]
  | succ n ih =>
    unfold reinsert
    dsimp only
    split
    · simp
    · next e => rw [ih, placeKey_some _ _ _ _ e]
    · next e => rw [placeKey_some _ _ _ _ e]


@[simp ↓] theorem fetchDemoting_watch (x0 : State) (x1 : Fetch) (x2 : Dem) :
    (fetchDemoting x0 x1 x2).watch = x0.watch := by
  unfold fetchDemoting
  simp

@[simp ↓] theorem joinFetch_watch (x0 : State) (x1 : Fetch) (x2 : Fetch) :
    (joinFetch x0 x1 x2).watch = x0.watch := by
  unfold joinFetch
  (try dsimp only)
  (repeat' split) <;> simp (disch := first | (intros; (try dsimp only); (repeat' split) <;> simp) | fail)

@[simp ↓] theorem directoryBack_watch (x0 : State) (x1 : Fetch) :
    (directoryBack x0 x1).watch = x0.watch := by
  unfold directoryBack
  (try dsimp only)
  (repeat' split) <;> simp

@[simp ↓] theorem execTierBDirectoryReturn_watch (x0 : Nat) (x1 : ReadOutcome) (x2 : ReadOutcome) (x3 : State) :
    outKeeps (execTierBDirectoryReturn x0 x1 x2 x3) x3.watch := by
  unfold execTierBDirectoryReturn
  (repeat' split) <;> simp

@[simp ↓] theorem recordBack_watch (x0 : State) (x1 : Fetch) (x2 : Nat) (x3 : List Nat) (x4 : Bool) :
    (recordBack x0 x1 x2 x3 x4).watch = x0.watch := by
  unfold recordBack
  simp

@[simp ↓] theorem execTierBRecordReturn_watch (x0 : Nat) (x1 : ReadOutcome) (x2 : State) :
    outKeeps (execTierBRecordReturn x0 x1 x2) x2.watch := by
  unfold execTierBRecordReturn
  (repeat' split) <;> simp

@[simp ↓] theorem resolveMiss_watch (x0 : State) (x1 : Nat) (x2 : Frame) :
    (resolveMiss x0 x1 x2).watch = x0.watch := by
  unfold resolveMiss
  simp

@[simp ↓] theorem lookupDrop_watch (x0 : State) (x1 : Nat) :
    (lookupDrop x0 x1).watch = x0.watch := by
  unfold lookupDrop
  simp

@[simp ↓] theorem readAt_watch (x0 : State) (x1 : Nat) (x2 : Nat) (x3 : ReadOutcome) :
    (readAt x0 x1 x2 x3).watch = x0.watch := by
  unfold readAt
  simp

@[simp ↓] theorem inconsistent_watch (x0 : State) (x1 : Nat) :
    (inconsistent x0 x1).watch = x0.watch := by
  unfold inconsistent
  simp

@[simp ↓] theorem compareCands_watch (x0 : State) (x1 : Frame) (x2 : List Nat) :
    (compareCands x0 x1 x2).1.watch = x0.watch := by
  unfold compareCands
  simp

theorem compareCands_out (x0 : State) (x1 : Frame) (x2 : List Nat) {t : State} {v} (h : compareCands x0 x1 x2 = (t,
    v)) : t.watch = x0.watch := by
  have e := compareCands_watch x0 x1 x2
  rw [h] at e
  exact e

@[simp ↓] theorem lookupHit_watch (x0 : State) (x1 : Nat) (x2 : Frame) (x3 : Nat) :
    (lookupHit x0 x1 x2 x3).watch = x0.watch := by
  unfold lookupHit
  simp

@[simp ↓] theorem lostRead_watch (x0 : State) (x1 : Nat) :
    (lostRead x0 x1).watch = x0.watch := by
  unfold lostRead
  simp

@[simp ↓] theorem bucketRead_watch (x0 : State) (x1 : Nat) (x2 : ReadOutcome) :
    (bucketRead x0 x1 x2).1.watch = x0.watch := by
  unfold bucketRead
  (repeat' split) <;> simp

theorem bucketRead_out (x0 : State) (x1 : Nat) (x2 : ReadOutcome) {t : State} {v} (h : bucketRead x0 x1 x2 = (t, v)) :
    t.watch = x0.watch := by
  have e := bucketRead_watch x0 x1 x2
  rw [h] at e
  exact e

@[simp ↓] theorem recordRead_watch (x0 : State) (x1 : Nat × ReadOutcome) :
    (recordRead x0 x1).watch = x0.watch := by
  unfold recordRead
  simp

@[simp ↓] theorem lookupRecords_watch (x0 : State) (x1 : Nat) (x2 : Frame) (x3 : ReadOutcome) (x4 : ReadOutcome) :
    (lookupRecords x0 x1 x2 x3 x4).watch = x0.watch := by
  unfold lookupRecords
  (try dsimp only)
  (repeat' split) <;> (try simp) <;> (repeat first | rfl | refine (compareCands_out _ _ _ (by assumption)).trans ?_ | fail) <;> simp

@[simp ↓] theorem execFlowLookupResult_watch (x0 : Nat) (x1 : ReadOutcome) (x2 : ReadOutcome) (x3 : ReadOutcome) (x4 :
    ReadOutcome) (x5 : State) :
    outKeeps (execFlowLookupResult x0 x1 x2 x3 x4 x5) x5.watch := by
  unfold execFlowLookupResult
  (try dsimp only)
  (repeat' split) <;> (try simp) <;> (repeat first | rfl | refine (bucketRead_out _ _ _ (by assumption)).trans ?_ | fail) <;> simp

@[simp ↓] theorem pathFree_watch (x0 : State) (x1 : Move) :
    (pathFree x0 x1).watch = x0.watch := by
  unfold pathFree
  (try dsimp only)
  (repeat' split) <;> simp

@[simp ↓] theorem dirPathFree_watch (x0 : State) (x1 : Move) :
    (dirPathFree x0 x1).watch = x0.watch := by
  unfold dirPathFree
  (repeat' split) <;> simp

@[simp ↓] theorem execRelocationFlip_watch (x0 : FlowEntry) (x1 : State) :
    outKeeps (execRelocationFlip x0 x1) x1.watch := by
  unfold execRelocationFlip
  (try dsimp only)
  (repeat' split) <;> simp

/-! Workspace. -/

@[simp ↓] theorem slotCounts_watch (x0 : State) (x1 : Nat) (x2 : OpSlot) :
    (slotCounts x0 x1 x2).watch = x0.watch := by
  unfold slotCounts
  simp

@[simp ↓] theorem runLookup_watch (x0 : State) (x1 : Nat) (x2 : Nat) :
    (runLookup x0 x1 x2).watch = x0.watch := by
  unfold runLookup
  (repeat' split) <;> simp

@[simp ↓] theorem runAccount_watch (x0 : State) (x1 : Nat) (x2 : Nat) :
    (runAccount x0 x1 x2).watch = x0.watch := by
  unfold runAccount
  (repeat' split) <;> simp

@[simp ↓] theorem runWord_watch (x0 : State) (x1 : Nat) (x2 : BitVec 320) :
    (runWord x0 x1 x2).watch = x0.watch := by
  unfold runWord
  (try dsimp only)
  (repeat' split) <;> simp

/-! Measure. -/

@[simp ↓] theorem logAppend_watch (x0 : State) (x1 : Nat) (x2 : Nat) (x3 : Nat) (x4 : Nat) (x5 : Nat) (x6 : Bytes) :
    (logAppend x0 x1 x2 x3 x4 x5 x6).watch = x0.watch := by
  unfold logAppend
  (try dsimp only)
  (repeat' split) <;> simp

@[simp ↓] theorem logSeeds_watch (x0 : State) :
    (logSeeds x0).watch = x0.watch := by
  unfold logSeeds
  simp

@[simp ↓] theorem logImage_watch (x0 : State) (x1 : Nat) (x2 : Nat) (x3 : ImgInfo) :
    (logImage x0 x1 x2 x3).watch = x0.watch := by
  unfold logImage
  simp

@[simp ↓] theorem imageActivated_watch (x0 : State) (x1 : Nat) (x2 : ImgInfo) :
    (imageActivated x0 x1 x2).watch = x0.watch := by
  unfold imageActivated
  simp

/-! Lifecycle. -/

@[simp ↓] theorem purgeForget_watch (x0 : State) (x1 : Bytes) :
    (purgeForget x0 x1).watch = x0.watch := by
  unfold purgeForget
  simp

@[simp ↓] theorem settlePurges_watch (x0 : State) :
    (settlePurges x0).watch = x0.watch := by
  unfold settlePurges
  simp

@[simp ↓] theorem deleteSlot_watch (x0 : State) (x1 : Nat) (x2 : Nat) (x3 : Origin) :
    (deleteSlot x0 x1 x2 x3).watch = x0.watch := by
  unfold deleteSlot
  (try dsimp only)
  (repeat' split) <;> simp

@[simp ↓] theorem deleteCold_watch (x0 : State) (x1 : Nat) (x2 : Nat) (x3 : Origin) :
    (deleteCold x0 x1 x2 x3).watch = x0.watch := by
  unfold deleteCold
  simp

@[simp ↓] theorem finalHarvest_watch (x0 : State) (x1 : Bytes) (x2 : Bytes) (x3 : Bool) (x4 : Nat) :
    (finalHarvest x0 x1 x2 x3 x4).watch = x0.watch := by
  unfold finalHarvest
  simp

@[simp ↓] theorem tellDeleted_watch (x0 : State) (x1 : Origin) (x2 : Bytes) :
    (tellDeleted x0 x1 x2).watch = x0.watch := by
  unfold tellDeleted
  (repeat' split) <;> simp

@[simp ↓] theorem finishDelete_watch (x0 : State) (x1 : Del) :
    (finishDelete x0 x1).watch = x0.watch := by
  unfold finishDelete
  (try dsimp only)
  (repeat' split) <;> simp

@[simp ↓] theorem execDeletionFencePassed_watch (x0 : Nat) (x1 : Bool) (x2 : State) :
    outKeeps (execDeletionFencePassed x0 x1 x2) x2.watch := by
  unfold execDeletionFencePassed
  (try dsimp only)
  (repeat' split) <;> simp

@[simp ↓] theorem endRefused_watch (x0 : State) (x1 : Refused) :
    (endRefused x0 x1).watch = x0.watch := by
  unfold endRefused
  simp

@[simp ↓] theorem endAllRefused_watch (x0 : State) :
    (endAllRefused x0).watch = x0.watch := by
  unfold endAllRefused
  simp

@[simp ↓] theorem execPeriodicEpochAdvance_watch (x0 : State) :
    outKeeps (execPeriodicEpochAdvance x0) x0.watch := by
  unfold execPeriodicEpochAdvance
  (repeat' split) <;> simp

@[simp ↓] theorem execSweeperRoundStart_watch (x0 : State) :
    outKeeps (execSweeperRoundStart x0) x0.watch := by
  unfold execSweeperRoundStart
  (repeat' split) <;> simp

@[simp ↓] theorem judgeSlot_watch (x0 : State) (x1 : Nat) :
    (judgeSlot x0 x1).watch = x0.watch := by
  unfold judgeSlot
  (try dsimp only)
  (repeat' split) <;> simp

@[simp ↓] theorem execSweeperVisit_watch (x0 : Nat) (x1 : State) :
    outKeeps (execSweeperVisit x0 x1) x1.watch := by
  unfold execSweeperVisit
  (try dsimp only)
  (repeat' split) <;> simp

@[simp ↓] theorem coldSweep_watch (x0 : State) (x1 : Nat) :
    (coldSweep x0 x1).watch = x0.watch := by
  unfold coldSweep
  (try dsimp only)
  (repeat' split) <;> simp

@[simp ↓] theorem execColdSweeperRead_watch (x0 : ColdRead) (x1 : State) :
    outKeeps (execColdSweeperRead x0 x1) x1.watch := by
  unfold execColdSweeperRead
  (try dsimp only)
  (repeat' split) <;> simp

@[simp ↓] theorem startPass_watch (x0 : State) (x1 : Nat) :
    (startPass x0 x1).watch = x0.watch := by
  unfold startPass
  simp

@[simp ↓] theorem startDemotion_watch (x0 : State) (x1 : Nat) (x2 : Origin) :
    (startDemotion x0 x1 x2).watch = x0.watch := by
  unfold startDemotion
  (repeat' split) <;> simp

@[simp ↓] theorem execDemotionVisit_watch (x0 : Nat) (x1 : State) :
    outKeeps (execDemotionVisit x0 x1) x1.watch := by
  unfold execDemotionVisit
  (try dsimp only)
  (repeat' split) <;> simp

@[simp ↓] theorem execDemotionComplete_watch (x0 : Nat) (x1 : State) :
    outKeeps (execDemotionComplete x0 x1) x1.watch := by
  unfold execDemotionComplete
  (repeat' split) <;> simp

@[simp ↓] theorem execSetupHoldExpire_watch (x0 : Nat) (x1 : State) :
    outKeeps (execSetupHoldExpire x0 x1) x1.watch := by
  unfold execSetupHoldExpire
  (repeat' split) <;> simp

/-! Courses. -/

@[simp ↓] theorem postNoSpare_watch (x0 : State) (x1 : Nat) (x2 : Nat) :
    (postNoSpare x0 x1 x2).watch = x0.watch := by
  unfold postNoSpare
  simp

@[simp ↓] theorem retireCourse_watch (x0 : State) (x1 : Nat) (x2 : Nat) (x3 : Nat) (x4 : Option Nat) :
    (retireCourse x0 x1 x2 x3 x4).1.watch = x0.watch := by
  unfold retireCourse
  (try dsimp only)
  (repeat' split) <;> simp

theorem retireCourse_out (x0 : State) (x1 : Nat) (x2 : Nat) (x3 : Nat) (x4 : Option Nat) {t : State} {v} (h :
    retireCourse x0 x1 x2 x3 x4 = (t, v)) : t.watch = x0.watch := by
  have e := retireCourse_watch x0 x1 x2 x3 x4
  rw [h] at e
  exact e

@[simp ↓] theorem execCourseCeWindowEnd_watch (x0 : PierNo) (x1 : Fin 7) (x2 : Nat) (x3 : State) :
    outKeeps (execCourseCeWindowEnd x0 x1 x2 x3) x3.watch := by
  unfold execCourseCeWindowEnd
  (try dsimp only)
  (repeat' split) <;> simp

@[simp ↓] theorem badRecord_watch (x0 : State) (x1 : Nat) :
    (badRecord x0 x1).watch = x0.watch := by
  unfold badRecord
  (repeat' split) <;> simp

@[simp ↓] theorem badExt_watch (x0 : State) (x1 : Nat) :
    (badExt x0 x1).watch = x0.watch := by
  unfold badExt
  simp

@[simp ↓] theorem loseBucket_watch (x0 : State) (x1 : Nat) (x2 : Nat) (x3 : Nat) :
    (loseBucket x0 x1 x2 x3).watch = x0.watch := by
  unfold loseBucket
  simp

@[simp ↓] theorem badGranule_watch (x0 : State) (x1 : Nat) (x2 : Nat) (x3 : Nat) :
    (badGranule x0 x1 x2 x3).watch = x0.watch := by
  unfold badGranule
  simp

@[simp ↓] theorem execRebuildGranuleCopy_watch (x0 : PierNo) (x1 : Fin 64) (x2 : BitVec 16) (x3 : Bool) (x4 : State) :
    outKeeps (execRebuildGranuleCopy x0 x1 x2 x3 x4) x4.watch := by
  unfold execRebuildGranuleCopy
  (try dsimp only)
  (repeat' split) <;> simp

@[simp ↓] theorem replaceKey_watch (x0 : State) (x1 : Nat) :
    (replaceKey x0 x1).watch = x0.watch := by
  unfold replaceKey
  (try dsimp only)
  (repeat' split) <;> (try simp) <;> (repeat first | rfl | refine (placeKey_some _ _ _ _ (by assumption)).trans ?_ | fail) <;> simp

@[simp ↓] theorem execBucketRescan_watch (x0 : PierNo) (x1 : State) :
    outKeeps (execBucketRescan x0 x1) x1.watch := by
  unfold execBucketRescan
  (try dsimp only)
  (repeat' split) <;> simp

@[simp ↓] theorem execRebuildComplete_watch (x0 : PierNo) (x1 : State) :
    outKeeps (execRebuildComplete x0 x1) x1.watch := by
  unfold execRebuildComplete
  (try dsimp only)
  (repeat' split) <;> simp

@[simp ↓] theorem execCourseRetire_watch (x0 : Cmd) (x1 : BitVec 8) (x2 : BitVec 8) (x3 : State) :
    outKeeps (execCourseRetire x0 x1 x2 x3) x3.watch := by
  unfold execCourseRetire
  refine runCommand_watch _ _ _ _ (fun aseq s => ?_)
  (try dsimp only)
  (repeat' split) <;> (try simp_all) <;> grind [retireCourse_out]

/-! FlowCmds. -/

@[simp ↓] theorem endFlowWork_watch (x0 : State) :
    (endFlowWork x0).watch = x0.watch := by
  unfold endFlowWork
  (try dsimp only)
  (repeat' split) <;> simp (disch := first | (intros; (try dsimp only); (repeat' split) <;> simp) | fail)

@[simp ↓] theorem geometryCourses_watch (x0 : State) (x1 : Bool) :
    (geometryCourses x0 x1).watch = x0.watch := by
  unfold geometryCourses
  simp

@[simp ↓] theorem drawFlowSeeds_watch (x0 : State) :
    (drawFlowSeeds x0).watch = x0.watch := by
  unfold drawFlowSeeds
  simp

@[simp ↓] theorem formatStore_watch (x0 : State) (x1 : Nat) :
    (formatStore x0 x1).watch = x0.watch := by
  unfold formatStore
  simp

@[simp ↓] theorem execFsFormat_watch (x0 : Cmd) (x1 : State) :
    outKeeps (execFsFormat x0 x1) x1.watch := by
  unfold execFsFormat
  (try dsimp only)
  (repeat' split) <;> simp (disch := first | (intros; (try dsimp only); (repeat' split) <;> simp) | fail)

@[simp ↓] theorem execFsFormatComplete_watch (x0 : State) :
    outKeeps (execFsFormatComplete x0) x0.watch := by
  unfold execFsFormatComplete
  (repeat' split) <;> simp

@[simp ↓] theorem execFlowRead_watch (x0 : Cmd) (x1 : Bytes) (x2 : BitVec 64) (x3 : State) :
    outKeeps (execFlowRead x0 x1 x2 x3) x3.watch := by
  unfold execFlowRead
  (try dsimp only)
  (repeat' split) <;> simp (disch := first | (intros; (try dsimp only); (repeat' split) <;> simp) | fail)

@[simp ↓] theorem execFsStatus_watch (x0 : Cmd) (x1 : BitVec 8) (x2 : State) :
    outKeeps (execFsStatus x0 x1 x2) x2.watch := by
  unfold execFsStatus
  refine runCommand_watch _ _ _ _ (fun aseq s => ?_)
  (try dsimp only)
  (repeat' split) <;> simp

@[simp ↓] theorem execFsTenantStatus_watch (x0 : Cmd) (x1 : BitVec 16) (x2 : State) :
    outKeeps (execFsTenantStatus x0 x1 x2) x2.watch := by
  unfold execFsTenantStatus
  refine runCommand_watch _ _ _ _ (fun aseq s => ?_)
  (try dsimp only)
  (repeat' split) <;> simp

@[simp ↓] theorem execTenantAccount_watch (x0 : Cmd) (x1 : BitVec 16) (x2 : State) :
    outKeeps (execTenantAccount x0 x1 x2) x2.watch := by
  unfold execTenantAccount
  refine runCommand_watch _ _ _ _ (fun aseq s => ?_)
  (try dsimp only)
  (repeat' split) <;> simp

@[simp ↓] theorem execDlBudgetStatus_watch (x0 : Cmd) (x1 : BitVec 16) (x2 : State) :
    outKeeps (execDlBudgetStatus x0 x1 x2) x2.watch := by
  unfold execDlBudgetStatus
  refine runCommand_watch _ _ _ _ (fun aseq s => ?_)
  (try dsimp only)
  (repeat' split) <;> simp

@[simp ↓] theorem execFlowDemote_watch (x0 : Cmd) (x1 : Bytes) (x2 : State) :
    outKeeps (execFlowDemote x0 x1 x2) x2.watch := by
  unfold execFlowDemote
  refine runCommand_watch _ _ _ _ (fun aseq s => ?_)
  (try dsimp only)
  (repeat' split) <;> (try simp_all) <;> grind []

@[simp ↓] theorem execFlowInsert_watch (x0 : Cmd) (x1 : Bytes) (x2 : State) :
    outKeeps (execFlowInsert x0 x1 x2) x2.watch := by
  unfold execFlowInsert
  refine runCommand_watch _ _ _ _ (fun aseq s => ?_)
  (try dsimp only)
  (repeat' split) <;> simp

@[simp ↓] theorem execFlowDelete_watch (x0 : Cmd) (x1 : Bytes) (x2 : State) :
    outKeeps (execFlowDelete x0 x1 x2) x2.watch := by
  unfold execFlowDelete
  (try dsimp only)
  (repeat' split) <;> simp (disch := first | (intros; (try dsimp only); (repeat' split) <;> simp) | fail)

@[simp ↓] theorem execTenantPurge_watch (x0 : Cmd) (x1 : BitVec 16) (x2 : State) :
    outKeeps (execTenantPurge x0 x1 x2) x2.watch := by
  unfold execTenantPurge
  refine runCommand_watch _ _ _ _ (fun aseq s => ?_)
  (try dsimp only)
  (repeat' split) <;> simp

@[simp ↓] theorem execPolicyWrite_watch (x0 : Cmd) (x1 : BitVec 16) (x2 : BitVec 32) (x3 : Bytes) (x4 : State) :
    outKeeps (execPolicyWrite x0 x1 x2 x3 x4) x4.watch := by
  unfold execPolicyWrite
  refine runCommand_watch _ _ _ _ (fun aseq s => ?_)
  (try dsimp only)
  (repeat' split) <;> (try simp) <;> (repeat first | rfl | refine (updateEntry_done _ _ _ _ _ _ _ (by assumption)).trans ?_ | refine (updateEntry_later _ _ _ _ _ _ _ (by assumption)).trans ?_ | fail | simp)

@[simp ↓] theorem execFlowExport_watch (x0 : Cmd) (x1 : Bytes) (x2 : State) :
    outKeeps (execFlowExport x0 x1 x2) x2.watch := by
  unfold execFlowExport
  (try dsimp only)
  (repeat' split) <;> simp (disch := first | (intros; (try dsimp only); (repeat' split) <;> simp) | fail)

end Sys2Proof.Machine
end

