-- ==== Sys2Proof/Laws/WatchEngine.lean ====
section
/-! SUPPORT. That the engines, the searches and the tasks leave the watched part of a state (Safety) alone: one lemma for each definition. -/

namespace Sys2Proof.Machine

/-! Engines. -/

@[simp ↓] theorem setEng_watch (x0 : State) (x1 : Nat) (x2 : Engine) :
    (setEng x0 x1 x2).watch = x0.watch := by
  unfold setEng
  simp

@[simp ↓] theorem setCl_watch (x0 : State) (x1 : Nat) (x2 : Cluster) :
    (setCl x0 x1 x2).watch = x0.watch := by
  unfold setCl
  simp

@[simp ↓] theorem setPhys_watch (x0 : State) (x1 : Nat) (x2 : PhysState) :
    (setPhys x0 x1 x2).watch = x0.watch := by
  unfold setPhys
  simp

@[simp ↓] theorem mapEngine_watch (x0 : State) (x1 : Nat) (x2 : Nat) :
    (mapEngine x0 x1 x2).watch = x0.watch := by
  unfold mapEngine
  simp

@[simp ↓] theorem unmapEngine_watch (x0 : State) (x1 : Nat) :
    (unmapEngine x0 x1).watch = x0.watch := by
  unfold unmapEngine
  simp

@[simp ↓] theorem resumeThread_watch (x0 : State) (x1 : Nat) (x2 : Nat) (x3 : Nat) (x4 : Nat) :
    (resumeThread x0 x1 x2 x3 x4).watch = x0.watch := by
  unfold resumeThread
  simp

@[simp ↓] theorem setLock_watch (x0 : State) (x1 : Nat) (x2 : Nat) (x3 : Lock) :
    (setLock x0 x1 x2 x3).watch = x0.watch := by
  unfold setLock
  simp

@[simp ↓] theorem grantLock_watch (x0 : State) (x1 : Nat) (x2 : Nat) (x3 : Nat) :
    (grantLock x0 x1 x2 x3).watch = x0.watch := by
  unfold grantLock
  simp

@[simp ↓] theorem releaseLock_watch (x0 : State) (x1 : Nat) (x2 : Nat) (x3 : Bool) :
    (releaseLock x0 x1 x2 x3).watch = x0.watch := by
  unfold releaseLock
  (try dsimp only)
  (repeat' split) <;> simp

@[simp ↓] theorem setChan_watch (x0 : State) (x1 : Nat) (x2 : Nat) (x3 : Chan) :
    (setChan x0 x1 x2 x3).watch = x0.watch := by
  unfold setChan
  simp

@[simp ↓] theorem serveReaders_watch (x0 : State) (x1 : Nat) (x2 : Nat) (x3 : Nat) :
    (serveReaders x0 x1 x2 x3).watch = x0.watch := by
  fun_induction serveReaders x0 x1 x2 x3 <;> simp_all +zetaDelta

@[simp ↓] theorem pushMessage_watch (x0 : State) (x1 : Nat) (x2 : Nat) (x3 : Nat) (x4 : List (BitVec 64)) :
    (pushMessage x0 x1 x2 x3 x4).watch = x0.watch := by
  unfold pushMessage
  simp

@[simp ↓] theorem trace_watch (x0 : State) (x1 : Nat) (x2 : Nat) (x3 : Nat) (x4 : Nat) (x5 : Nat) (x6 : Task) :
    (trace x0 x1 x2 x3 x4 x5 x6).watch = x0.watch := by
  unfold trace
  (try dsimp only)
  (repeat' split) <;> (try simp_all) <;> grind [telPost_out]

@[simp ↓] theorem removeTask_watch (x0 : State) (x1 : Nat) (x2 : Nat) :
    (removeTask x0 x1 x2).watch = x0.watch := by
  unfold removeTask
  simp

@[simp ↓] theorem sendEngineFrame_watch (x0 : State) (x1 : Nat) (x2 : Nat) (x3 : Nat) (x4 : Bytes) :
    (sendEngineFrame x0 x1 x2 x3 x4).watch = x0.watch := by
  unfold sendEngineFrame
  (try dsimp only)
  (repeat' split) <;> (try simp_all) <;> grind [bufferFrame_out]

@[simp ↓] theorem deliver_watch (x0 : State) (x1 : Release) :
    (deliver x0 x1).watch = x0.watch := by
  unfold deliver
  (repeat' split) <;> simp

@[simp ↓] theorem drainGroup_watch (x0 : State) (x1 : Nat) (x2 : Nat) (x3 : Nat) :
    (drainGroup x0 x1 x2 x3).watch = x0.watch := by
  fun_induction drainGroup x0 x1 x2 x3 <;> simp_all +zetaDelta

@[simp ↓] theorem release_watch (x0 : State) (x1 : Nat) (x2 : Nat) (x3 : Release) :
    (release x0 x1 x2 x3).watch = x0.watch := by
  unfold release
  (repeat' split) <;> simp

@[simp ↓] theorem settleTask_watch (x0 : State) (x1 : Nat) (x2 : Nat) :
    (settleTask x0 x1 x2).watch = x0.watch := by
  unfold settleTask
  (repeat' split) <;> simp

@[simp ↓] theorem forwardDenied_watch (x0 : State) (x1 : Nat) (x2 : Frame) :
    (forwardDenied x0 x1 x2).watch = x0.watch := by
  unfold forwardDenied
  simp

@[simp ↓] theorem endSetupFrame_watch (x0 : State) (x1 : Task) (x2 : Nat) (x3 : Bool) (x4 : Nat) (x5 : Frame) :
    (endSetupFrame x0 x1 x2 x3 x4 x5).watch = x0.watch := by
  unfold endSetupFrame
  (repeat' split) <;> simp

@[simp ↓] theorem endSetup_watch (x0 : State) (x1 : Task) (x2 : Nat) (x3 : Bool) :
    (endSetup x0 x1 x2 x3).watch = x0.watch := by
  unfold endSetup
  (try dsimp only)
  (repeat' split) <;> simp

@[simp ↓] theorem dropCopy_watch (x0 : State) (x1 : Task) (x2 : Nat) :
    (dropCopy x0 x1 x2).watch = x0.watch := by
  unfold dropCopy
  (repeat' split) <;> simp

@[simp ↓] theorem leaveThread_watch (x0 : State) (x1 : Nat) (x2 : Nat) (x3 : Bool) :
    (leaveThread x0 x1 x2 x3).watch = x0.watch := by
  unfold leaveThread
  simp

@[simp ↓] theorem endFaulted_watch (x0 : State) (x1 : Nat) (x2 : Nat) (x3 : Nat) (x4 : Nat) (x5 : Nat) (x6 : Nat) (x7
    : Nat) :
    (endFaulted x0 x1 x2 x3 x4 x5 x6 x7).watch = x0.watch := by
  unfold endFaulted
  (repeat' split) <;> simp

@[simp ↓] theorem faultThread_watch (x0 : State) (x1 : Nat) (x2 : Nat) (x3 : Nat) :
    (faultThread x0 x1 x2 x3).watch = x0.watch := by
  unfold faultThread
  (try dsimp only)
  (repeat' split) <;> simp

@[simp ↓] theorem withdrawTask_watch (x0 : State) (x1 : Nat) (x2 : Nat) (x3 : Nat) (x4 : Nat) :
    (withdrawTask x0 x1 x2 x3 x4).watch = x0.watch := by
  unfold withdrawTask
  (repeat' split) <;> simp

@[simp ↓] theorem postSubstituted_watch (x0 : State) (x1 : Option Nat) (x2 : Nat) (x3 : Nat) :
    (postSubstituted x0 x1 x2 x3).watch = x0.watch := by
  unfold postSubstituted
  simp

@[simp ↓] theorem substitute_watch (x0 : State) (x1 : Nat) :
    (substitute x0 x1).watch = x0.watch := by
  unfold substitute
  (try dsimp only)
  (repeat' split) <;> simp

@[simp ↓] theorem stopEngine_watch (x0 : State) (x1 : Nat) (x2 : PhysState) :
    (stopEngine x0 x1 x2).watch = x0.watch := by
  unfold stopEngine
  (try dsimp only)
  (repeat' split) <;> simp

@[simp ↓] theorem traceThread_watch (x0 : State) (x1 : Nat) (x2 : Nat) (x3 : Nat) (x4 : Nat) :
    (traceThread x0 x1 x2 x3 x4).watch = x0.watch := by
  unfold traceThread
  (repeat' split) <;> simp

@[simp ↓] theorem execEngineStall_watch (x0 : Fin 128) (x1 : State) :
    outKeeps (execEngineStall x0 x1) x1.watch := by
  unfold execEngineStall
  (try dsimp only)
  (repeat' split) <;> simp

@[simp ↓] theorem engineFault_watch (x0 : State) (x1 : Nat) (x2 : Nat) (x3 : Nat) :
    (engineFault x0 x1 x2 x3).watch = x0.watch := by
  unfold engineFault
  (repeat' split) <;> simp

@[simp ↓] theorem execEngineFault_watch (x0 : Fin 128) (x1 : Fin 2) (x2 : BitVec 32) (x3 : State) :
    outKeeps (execEngineFault x0 x1 x2 x3) x3.watch := by
  unfold execEngineFault
  simp

@[simp ↓] theorem loadImage_watch (x0 : State) (x1 : Nat) :
    (loadImage x0 x1).watch = x0.watch := by
  unfold loadImage
  (try dsimp only)
  (repeat' split) <;> simp

@[simp ↓] theorem execSpareLoaded_watch (x0 : Fin 128) (x1 : State) :
    outKeeps (execSpareLoaded x0 x1) x1.watch := by
  unfold execSpareLoaded
  (try dsimp only)
  (repeat' split) <;> simp

@[simp ↓] theorem execEngineSelfTestDone_watch (x0 : Fin 136) (x1 : Bool) (x2 : State) :
    outKeeps (execEngineSelfTestDone x0 x1 x2) x2.watch := by
  unfold execEngineSelfTestDone
  (try dsimp only)
  (repeat' split) <;> simp

@[simp ↓] theorem loseTask_watch (x0 : State) (x1 : Nat) (x2 : Nat) :
    (loseTask x0 x1 x2).watch = x0.watch := by
  unfold loseTask
  (repeat' split) <;> simp

@[simp ↓] theorem restartEngine_watch (x0 : State) (x1 : Nat) (x2 : Nat) :
    (restartEngine x0 x1 x2).watch = x0.watch := by
  unfold restartEngine
  simp

@[simp ↓] theorem clusterFault_watch (x0 : State) (x1 : Nat) (x2 : Nat) :
    (clusterFault x0 x1 x2).watch = x0.watch := by
  unfold clusterFault
  (repeat' split) <;> simp

@[simp ↓] theorem execClusterFault_watch (x0 : Fin 16) (x1 : Fin 3) (x2 : State) :
    outKeeps (execClusterFault x0 x1 x2) x2.watch := by
  unfold execClusterFault
  simp

/-! MachineCheck. -/

@[simp ↓] theorem joinGroup_watch (x0 : State) (x1 : Nat) (x2 : Option Nat) :
    (joinGroup x0 x1 x2).watch = x0.watch := by
  unfold joinGroup
  simp

@[simp ↓] theorem darken_watch (x0 : State) (x1 : Nat) :
    (darken x0 x1).watch = x0.watch := by
  unfold darken
  simp

@[simp ↓] theorem spareReady_watch (x0 : State) :
    (spareReady x0).watch = x0.watch := by
  unfold spareReady
  (try dsimp only)
  (repeat' split) <;> simp

@[simp ↓] theorem loseFrame_watch (x0 : State) (x1 : Nat) :
    (loseFrame x0 x1).watch = x0.watch := by
  unfold loseFrame
  (repeat' split) <;> simp

@[simp ↓] theorem discardFrame_watch (x0 : Nat) (x1 : State) (x2 : Nat) :
    (discardFrame x0 x1 x2).watch = x1.watch := by
  unfold discardFrame
  (repeat' split) <;> simp

@[simp ↓] theorem discardTask_watch (x0 : Nat) (x1 : State) (x2 : Nat) :
    (discardTask x0 x1 x2).watch = x1.watch := by
  unfold discardTask
  (repeat' split) <;> simp

@[simp ↓] theorem discardSlice_watch (x0 : State) (x1 : Nat) :
    (discardSlice x0 x1).watch = x0.watch := by
  unfold discardSlice
  simp

@[simp ↓] theorem joinSpare_watch (x0 : State) (x1 : Nat) (x2 : Option Nat) :
    (joinSpare x0 x1 x2).watch = x0.watch := by
  unfold joinSpare
  simp

@[simp ↓] theorem substituteSlice_watch (x0 : State) (x1 : Nat) (x2 : Nat) :
    (substituteSlice x0 x1 x2).watch = x0.watch := by
  unfold substituteSlice
  simp

@[simp ↓] theorem postReturned_watch (x0 : State) (x1 : Nat) :
    (postReturned x0 x1).watch = x0.watch := by
  unfold postReturned
  simp

@[simp ↓] theorem machineCheck_watch (x0 : State) (x1 : Nat) (x2 : Nat) (x3 : Nat) (x4 : Nat) :
    (machineCheck x0 x1 x2 x3 x4).watch = x0.watch := by
  unfold machineCheck
  (try dsimp only)
  (repeat' split) <;> simp

/-! Search. -/

@[simp ↓] theorem execLpmAclResult_watch (x0 : Nat) (x1 : List (Nat × Bytes)) (x2 : List (Nat × Bytes)) (x3 : State) :
    outKeeps (execLpmAclResult x0 x1 x2 x3) x3.watch := by
  unfold execLpmAclResult
  (repeat' split) <;> simp

@[simp ↓] theorem execSecondaryLookupResult_watch (x0 : Nat) (x1 : State) :
    outKeeps (execSecondaryLookupResult x0 x1) x1.watch := by
  unfold execSecondaryLookupResult
  (repeat' split) <;> simp

/-! Admit. -/

@[simp ↓] theorem countMiss_watch (x0 : State) (x1 : Frame) (x2 : Bool) :
    (countMiss x0 x1 x2).watch = x0.watch := by
  unfold countMiss
  (repeat' split) <;> simp

@[simp ↓] theorem countMalformed_watch (x0 : State) (x1 : Frame) :
    (countMalformed x0 x1).watch = x0.watch := by
  unfold countMalformed
  (repeat' split) <;> simp

@[simp ↓] theorem puntMalformed_watch (x0 : State) (x1 : Nat) (x2 : Frame) :
    (puntMalformed x0 x1 x2).watch = x0.watch := by
  unfold puntMalformed
  simp

@[simp ↓] theorem classDrop_watch (x0 : State) (x1 : Nat) (x2 : Frame) :
    (classDrop x0 x1 x2).watch = x0.watch := by
  unfold classDrop
  simp

@[simp ↓] theorem takeContext_watch (x0 : State) (x1 : Nat) (x2 : Frame) :
    (takeContext x0 x1 x2).watch = x0.watch := by
  unfold takeContext
  simp

@[simp ↓] theorem enterSequencer_watch (x0 : State) (x1 : Nat) (x2 : Frame) :
    (enterSequencer x0 x1 x2).watch = x0.watch := by
  unfold enterSequencer
  simp

@[simp ↓] theorem steerTo_watch (x0 : State) (x1 : Nat) (x2 : Frame) (x3 : Nat) :
    (steerTo x0 x1 x2 x3).watch = x0.watch := by
  unfold steerTo
  simp

@[simp ↓] theorem flowBound_watch (x0 : State) (x1 : Nat) (x2 : Frame) :
    (flowBound x0 x1 x2).watch = x0.watch := by
  unfold flowBound
  (try dsimp only)
  (repeat' split) <;> simp

@[simp ↓] theorem classifyFrame_watch (x0 : State) (x1 : Nat) (x2 : Frame) (x3 : Option TenantHit) :
    (classifyFrame x0 x1 x2 x3).watch = x0.watch := by
  unfold classifyFrame
  (try dsimp only)
  (repeat' split) <;> simp

@[simp ↓] theorem deliverFrame_watch (x0 : State) (x1 : Nat) (x2 : Frame) :
    (deliverFrame x0 x1 x2).watch = x0.watch := by
  unfold deliverFrame
  (try dsimp only)
  (repeat' split) <;> simp

@[simp ↓] theorem admitHead_watch (x0 : Nat) (x1 : State) (x2 : Nat) :
    (admitHead x0 x1 x2).watch = x1.watch := by
  unfold admitHead
  (try dsimp only)
  (repeat' split) <;> simp

@[simp ↓] theorem admitFrom_watch (x0 : State) (x1 : Nat) (x2 : Nat) :
    (admitFrom x0 x1 x2).1.watch = x0.watch := by
  unfold admitFrom
  (repeat' split) <;> simp

theorem admitFrom_out (x0 : State) (x1 : Nat) (x2 : Nat) {t : State} {v} (h : admitFrom x0 x1 x2 = (t, v)) : t.watch =
    x0.watch := by
  have e := admitFrom_watch x0 x1 x2
  rw [h] at e
  exact e

@[simp ↓] theorem admitRound_watch (x0 : Nat) (x1 : List Nat) (x2 : Nat) (x3 : State) :
    (admitRound x0 x1 x2 x3).1.watch = x3.watch := by
  fun_induction admitRound x0 x1 x2 x3 <;> (try simp_all +zetaDelta) <;> grind [admitFrom_out]

theorem admitRound_out (x0 : Nat) (x1 : List Nat) (x2 : Nat) (x3 : State) {t : State} {v} (h : admitRound x0 x1 x2 x3
    = (t, v)) : t.watch = x3.watch := by
  have e := admitRound_watch x0 x1 x2 x3
  rw [h] at e
  exact e

@[simp ↓] theorem execHeadAdmit_watch (x0 : SliceNo) (x1 : State) :
    outKeeps (execHeadAdmit x0 x1) x1.watch := by
  unfold execHeadAdmit
  (try dsimp only)
  (repeat' split) <;> simp

@[simp ↓] theorem execSeqContextGrant_watch (x0 : SliceNo) (x1 : State) :
    outKeeps (execSeqContextGrant x0 x1) x1.watch := by
  unfold execSeqContextGrant
  (try dsimp only)
  (repeat' split) <;> simp

/-! SeqCmds. -/

@[simp ↓] theorem setBank_watch (x0 : State) (x1 : Nat) (x2 : Bank) :
    (setBank x0 x1 x2).watch = x0.watch := by
  unfold setBank
  simp

@[simp ↓] theorem execSeqWordExecute_watch (x0 : Nat) (x1 : BitVec 320) (x2 : State) :
    outKeeps (execSeqWordExecute x0 x1 x2) x2.watch := by
  unfold execSeqWordExecute
  (try dsimp only)
  (repeat' split) <;> simp

@[simp ↓] theorem execStandbyBankParity_watch (x0 : SliceNo) (x1 : BitVec 12) (x2 : BitVec 8) (x3 : State) :
    outKeeps (execStandbyBankParity x0 x1 x2 x3) x3.watch := by
  unfold execStandbyBankParity
  simp

@[simp ↓] theorem execSeqSwap_watch (x0 : Cmd) (x1 : State) :
    outKeeps (execSeqSwap x0 x1) x1.watch := by
  unfold execSeqSwap
  refine runCommand_watch _ _ _ _ (fun aseq s => ?_)
  (try dsimp only)
  (repeat' split) <;> simp

@[simp ↓] theorem execSeqSwapDrained_watch (x0 : State) :
    outKeeps (execSeqSwapDrained x0) x0.watch := by
  unfold execSeqSwapDrained
  (repeat' split) <;> simp

@[simp ↓] theorem execSliceStatus_watch (x0 : Cmd) (x1 : BitVec 16) (x2 : State) :
    outKeeps (execSliceStatus x0 x1 x2) x2.watch := by
  unfold execSliceStatus
  refine runCommand_watch _ _ _ _ (fun aseq s => ?_)
  (try dsimp only)
  (repeat' split) <;> simp

/-! Tasks. -/

@[simp ↓] theorem drawBytes_watch (x0 : State) (x1 : Nat) :
    (drawBytes x0 x1).2.watch = x0.watch := by
  unfold drawBytes
  simp

theorem drawBytes_out (x0 : State) (x1 : Nat) {t : State} {v} (h : drawBytes x0 x1 = (v, t)) : t.watch = x0.watch := by
  have e := drawBytes_watch x0 x1
  rw [h] at e
  exact e

@[simp ↓] theorem enterStore_watch (x0 : State) (x1 : Nat) (x2 : Nat) :
    (enterStore x0 x1 x2).watch = x0.watch := by
  unfold enterStore
  (repeat' split) <;> simp

@[simp ↓] theorem endTrace_watch (x0 : State) (x1 : Nat) (x2 : Nat) (x3 : Task) :
    (endTrace x0 x1 x2 x3).watch = x0.watch := by
  unfold endTrace
  simp

@[simp ↓] theorem arriveLane_watch (x0 : State) (x1 : Nat) (x2 : Nat) (x3 : Nat) :
    (arriveLane x0 x1 x2 x3).watch = x0.watch := by
  unfold arriveLane
  (try dsimp only)
  (repeat' split) <;> simp

@[simp ↓] theorem arriveFold_watch (x0 : State) (x1 : Nat) (x2 : Nat) :
    (arriveFold x0 x1 x2).watch = x0.watch := by
  unfold arriveFold
  (try dsimp only)
  (repeat' split) <;> simp

@[simp ↓] theorem arriveInternal_watch (x0 : State) (x1 : Nat) (x2 : Nat) :
    (arriveInternal x0 x1 x2).watch = x0.watch := by
  unfold arriveInternal
  (try dsimp only)
  (repeat' split) <;> simp

@[simp ↓] theorem arriveMgmt_watch (x0 : State) (x1 : Nat) (x2 : Bytes) (x3 : Nat) :
    (arriveMgmt x0 x1 x2 x3).watch = x0.watch := by
  unfold arriveMgmt
  (repeat' split) <;> simp

@[simp ↓] theorem execTaskArrive_watch (x0 : TaskSrc) (x1 : State) :
    outKeeps (execTaskArrive x0 x1) x1.watch := by
  unfold execTaskArrive
  (try dsimp only)
  (repeat' split) <;> simp

@[simp ↓] theorem policyBytes_watch (x0 : State) (x1 : Nat) (x2 : Nat) :
    (policyBytes x0 x1 x2).2.watch = x0.watch := by
  unfold policyBytes
  simp

theorem policyBytes_out (x0 : State) (x1 : Nat) (x2 : Nat) {t : State} {v} (h : policyBytes x0 x1 x2 = (v, t)) :
    t.watch = x0.watch := by
  have e := policyBytes_watch x0 x1 x2
  rw [h] at e
  exact e

@[simp ↓] theorem operandBytes_watch (x0 : State) (x1 : Task) (x2 : Nat) :
    (operandBytes x0 x1 x2).2.watch = x0.watch := by
  unfold operandBytes
  (try dsimp only)
  (repeat' split) <;> simp

theorem operandBytes_out (x0 : State) (x1 : Task) (x2 : Nat) {t : State} {v} (h : operandBytes x0 x1 x2 = (v, t)) :
    t.watch = x0.watch := by
  have e := operandBytes_watch x0 x1 x2
  rw [h] at e
  exact e

@[simp ↓] theorem execOperandArrive_watch (x0 : Nat) (x1 : Fin 4) (x2 : Bool) (x3 : State) :
    outKeeps (execOperandArrive x0 x1 x2 x3) x3.watch := by
  unfold execOperandArrive
  (try dsimp only)
  (repeat' split) <;> simp

@[simp ↓] theorem writeDmem_watch (x0 : State) (x1 : Nat) (x2 : Nat) (x3 : Bytes) :
    (writeDmem x0 x1 x2 x3).watch = x0.watch := by
  unfold writeDmem
  simp

@[simp ↓] theorem writeArea_watch (x0 : State) (x1 : Nat) (x2 : Nat) (x3 : Task) :
    (writeArea x0 x1 x2 x3).watch = x0.watch := by
  unfold writeArea
  simp

@[simp ↓] theorem firstRun_watch (x0 : State) (x1 : Nat) :
    (firstRun x0 x1).watch = x0.watch := by
  unfold firstRun
  (try dsimp only)
  (repeat' split) <;> simp

@[simp ↓] theorem startTask_watch (x0 : State) (x1 : Nat) (x2 : Nat) (x3 : Nat) (x4 : Nat) (x5 : Task) :
    (startTask x0 x1 x2 x3 x4 x5).watch = x0.watch := by
  unfold startTask
  (repeat' split) <;> simp

@[simp ↓] theorem execTaskDispatch_watch (x0 : Fin 16) (x1 : State) :
    outKeeps (execTaskDispatch x0 x1) x1.watch := by
  unfold execTaskDispatch
  (try dsimp only)
  (repeat' split) <;> simp

@[simp ↓] theorem execPreempt_watch (x0 : Fin 128) (x1 : Fin 8) (x2 : State) :
    outKeeps (execPreempt x0 x1 x2) x2.watch := by
  unfold execPreempt
  (try dsimp only)
  (repeat' split) <;> simp

@[simp ↓] theorem execEngineWakeRequest_watch (x0 : Fin 16) (x1 : State) :
    outKeeps (execEngineWakeRequest x0 x1) x1.watch := by
  unfold execEngineWakeRequest
  (try dsimp only)
  (repeat' split) <;> simp

/-! EngCmds. -/

@[simp ↓] theorem onEngine_watch (s : State) (en : BitVec 16) (f : Nat → Effect) (w : Watch) (e : s.watch = w)
    (h : ∀ k, (f k).Keeps w) : (onEngine s en f).Keeps w := by
  unfold onEngine
  (repeat' split) <;> simp [h, e]

@[simp ↓] theorem onThread_watch (s : State) (en : BitVec 16) (t : BitVec 8) (f : Nat → Nat → Effect) (w : Watch)
    (e : s.watch = w) (h : ∀ k j, (f k j).Keeps w) : (onThread s en t f).Keeps w := by
  unfold onThread
  split
  · simp [e]
  · exact onEngine_watch _ _ _ _ e (fun k => h k _)

@[simp ↓] theorem drainEngine_watch (x0 : State) (x1 : Nat) :
    (drainEngine x0 x1).watch = x0.watch := by
  unfold drainEngine
  simp

@[simp ↓] theorem execEngDrain_watch (x0 : Cmd) (x1 : BitVec 16) (x2 : State) :
    outKeeps (execEngDrain x0 x1 x2) x2.watch := by
  unfold execEngDrain
  refine runCommand_watch _ _ _ _ (fun aseq s => onEngine_watch _ _ _ _ rfl (fun k => ?_))
  (try dsimp only)
  (repeat' split) <;> simp_all

@[simp ↓] theorem engineDrained_watch (x0 : State) (x1 : Nat) :
    (engineDrained x0 x1).watch = x0.watch := by
  unfold engineDrained
  (try dsimp only)
  (repeat' split) <;> simp

@[simp ↓] theorem execEngResume_watch (x0 : Cmd) (x1 : BitVec 16) (x2 : State) :
    outKeeps (execEngResume x0 x1 x2) x2.watch := by
  unfold execEngResume
  refine runCommand_watch _ _ _ _ (fun aseq s => onEngine_watch _ _ _ _ rfl (fun k => ?_))
  (try dsimp only)
  (repeat' split) <;> simp_all

@[simp ↓] theorem execEngStatus_watch (x0 : Cmd) (x1 : BitVec 16) (x2 : State) :
    outKeeps (execEngStatus x0 x1 x2) x2.watch := by
  unfold execEngStatus
  refine runCommand_watch _ _ _ _ (fun aseq s => onEngine_watch _ _ _ _ rfl (fun k => ?_))
  (try dsimp only)
  (repeat' split) <;> simp_all

@[simp ↓] theorem execSchedStatus_watch (x0 : Cmd) (x1 : BitVec 8) (x2 : State) :
    outKeeps (execSchedStatus x0 x1 x2) x2.watch := by
  unfold execSchedStatus
  refine runCommand_watch _ _ _ _ (fun aseq s => ?_)
  (try dsimp only)
  (repeat' split) <;> simp

@[simp ↓] theorem modThreads_watch (x0 : State) (x1 : Nat) (x2 : Nat) (x3 : Thread → Thread) :
    (modThreads x0 x1 x2 x3).watch = x0.watch := by
  unfold modThreads
  simp

@[simp ↓] theorem execDbgHalt_watch (x0 : Cmd) (x1 : BitVec 16) (x2 : BitVec 8) (x3 : State) :
    outKeeps (execDbgHalt x0 x1 x2 x3) x3.watch := by
  unfold execDbgHalt
  refine runCommand_watch _ _ _ _ (fun aseq s => onEngine_watch _ _ _ _ rfl (fun k => ?_))
  (try dsimp only)
  (repeat' split) <;> simp_all

@[simp ↓] theorem execDbgStep_watch (x0 : Cmd) (x1 : BitVec 16) (x2 : BitVec 8) (x3 : State) :
    outKeeps (execDbgStep x0 x1 x2 x3) x3.watch := by
  unfold execDbgStep
  refine runCommand_watch _ _ _ _ (fun aseq s => onThread_watch _ _ _ _ _ rfl (fun k j => ?_))
  (try dsimp only)
  (repeat' split) <;> simp_all

@[simp ↓] theorem execDbgResume_watch (x0 : Cmd) (x1 : BitVec 16) (x2 : BitVec 8) (x3 : State) :
    outKeeps (execDbgResume x0 x1 x2 x3) x3.watch := by
  unfold execDbgResume
  refine runCommand_watch _ _ _ _ (fun aseq s => onEngine_watch _ _ _ _ rfl (fun k => ?_))
  (try dsimp only)
  (repeat' split) <;> simp_all

@[simp ↓] theorem execDbgRead_watch (x0 : Cmd) (x1 : BitVec 16) (x2 : BitVec 8) (x3 : BitVec 8) (x4 : BitVec 32) (x5 :
    BitVec 32) (x6 : BitVec 64) (x7 : State) :
    outKeeps (execDbgRead x0 x1 x2 x3 x4 x5 x6 x7) x7.watch := by
  unfold execDbgRead
  refine runCommand_watch _ _ _ _ (fun aseq s => onThread_watch _ _ _ _ _ rfl (fun k j => ?_))
  (try dsimp only)
  (repeat' split) <;> simp_all

@[simp ↓] theorem execDbgWrite_watch (x0 : Cmd) (x1 : BitVec 16) (x2 : BitVec 8) (x3 : BitVec 8) (x4 : BitVec 32) (x5
    : Bytes) (x6 : State) :
    outKeeps (execDbgWrite x0 x1 x2 x3 x4 x5 x6) x6.watch := by
  unfold execDbgWrite
  refine runCommand_watch _ _ _ _ (fun aseq s => onThread_watch _ _ _ _ _ rfl (fun k j => ?_))
  (try dsimp only)
  (repeat' split) <;> simp_all

@[simp ↓] theorem execDbgLockRelease_watch (x0 : Cmd) (x1 : BitVec 8) (x2 : BitVec 8) (x3 : State) :
    outKeeps (execDbgLockRelease x0 x1 x2 x3) x3.watch := by
  unfold execDbgLockRelease
  refine runCommand_watch _ _ _ _ (fun aseq s => ?_)
  (try dsimp only)
  (repeat' split) <;> simp

@[simp ↓] theorem execDbgAbort_watch (x0 : Cmd) (x1 : BitVec 16) (x2 : BitVec 8) (x3 : State) :
    outKeeps (execDbgAbort x0 x1 x2 x3) x3.watch := by
  unfold execDbgAbort
  refine runCommand_watch _ _ _ _ (fun aseq s => onThread_watch _ _ _ _ _ rfl (fun k j => ?_))
  (try dsimp only)
  (repeat' split) <;> simp_all

end Sys2Proof.Machine
end

