-- ==== Sys2Proof/Laws/WatchDevice.lean ====
section
/-! SUPPORT. That the ownership of the device, its DMA, its images, its faults and its boot leave the watched part of a state (Safety) alone: one lemma for each definition. -/

namespace Sys2Proof.Machine

/-! Owner. -/

@[simp ↓] theorem setBankBid_watch (x0 : State) (x1 : Nat) (x2 : Nat) :
    (setBankBid x0 x1 x2).watch = x0.watch := by
  unfold setBankBid
  simp

@[simp ↓] theorem withdrawBid_watch (x0 : State) (x1 : Nat) :
    (withdrawBid x0 x1).watch = x0.watch := by
  unfold withdrawBid
  simp

@[simp ↓] theorem changeOwner_watch (x0 : State) (x1 : Option Nat) (x2 : Nat) :
    (changeOwner x0 x1 x2).watch = x0.watch := by
  unfold changeOwner
  (try dsimp only)
  (repeat' split) <;> simp

@[simp ↓] theorem vacancy_watch (x0 : State) (x1 : Nat) :
    (vacancy x0 x1).watch = x0.watch := by
  unfold vacancy
  simp

@[simp ↓] theorem pathLoss_watch (x0 : State) (x1 : Nat) :
    (pathLoss x0 x1).watch = x0.watch := by
  unfold pathLoss
  simp

@[simp ↓] theorem countReservedBits_watch (x0 : State) (x1 : Nat) (x2 : Reg) (x3 : Nat) :
    (countReservedBits x0 x1 x2 x3).watch = x0.watch := by
  unfold countReservedBits
  simp

@[simp ↓] theorem writeOwnBid_watch (x0 : State) (x1 : Nat) (x2 : Nat) :
    (writeOwnBid x0 x1 x2).watch = x0.watch := by
  unfold writeOwnBid
  simp

@[simp ↓] theorem writeOwnNonce_watch (x0 : State) (x1 : Nat) (x2 : Nat) :
    (writeOwnNonce x0 x1 x2).watch = x0.watch := by
  unfold writeOwnNonce
  simp

@[simp ↓] theorem writeOwnCtrl_watch (x0 : State) (x1 : Nat) (x2 : Nat) :
    (writeOwnCtrl x0 x1 x2).watch = x0.watch := by
  unfold writeOwnCtrl
  simp

@[simp ↓] theorem execBidRecord_watch (x0 : Master) (x1 : BitVec 32) (x2 : State) :
    outKeeps (execBidRecord x0 x1 x2) x2.watch := by
  unfold execBidRecord
  simp

@[simp ↓] theorem execBidWithdraw_watch (x0 : Master) (x1 : BitVec 32) (x2 : State) :
    outKeeps (execBidWithdraw x0 x1 x2) x2.watch := by
  unfold execBidWithdraw
  simp

@[simp ↓] theorem execRenew_watch (x0 : Master) (x1 : BitVec 32) (x2 : State) :
    outKeeps (execRenew x0 x1 x2) x2.watch := by
  unfold execRenew
  simp

@[simp ↓] theorem execRelease_watch (x0 : Master) (x1 : BitVec 32) (x2 : State) :
    outKeeps (execRelease x0 x1 x2) x2.watch := by
  unfold execRelease
  simp

@[simp ↓] theorem execGrant_watch (x0 : Master) (x1 : BitVec 32) (x2 : State) :
    outKeeps (execGrant x0 x1 x2) x2.watch := by
  unfold execGrant
  simp

@[simp ↓] theorem execBidWindowClose_watch (x0 : State) :
    outKeeps (execBidWindowClose x0) x0.watch := by
  unfold execBidWindowClose
  (try dsimp only)
  (repeat' split) <;> simp

@[simp ↓] theorem execLeaseExpire_watch (x0 : State) :
    outKeeps (execLeaseExpire x0) x0.watch := by
  unfold execLeaseExpire
  (repeat' split) <;> simp

@[simp ↓] theorem resetRings_watch (x0 : State) (x1 : Nat) (x2 : Nat) (x3 : Nat) :
    (resetRings x0 x1 x2 x3).watch = x0.watch := by
  fun_induction resetRings x0 x1 x2 x3 <;> simp_all +zetaDelta

@[simp ↓] theorem execHostPortReset_watch (x0 : HostNo) (x1 : Fin 4) (x2 : State) :
    outKeeps (execHostPortReset x0 x1 x2) x2.watch := by
  unfold execHostPortReset
  (repeat' split) <;> simp

@[simp ↓] theorem execHostLinkUp_watch (x0 : HostNo) (x1 : BitVec 8) (x2 : BitVec 8) (x3 : State) :
    outKeeps (execHostLinkUp x0 x1 x2 x3) x3.watch := by
  unfold execHostLinkUp
  (repeat' split) <;> simp

@[simp ↓] theorem execI3cBusReset_watch (x0 : State) :
    outKeeps (execI3cBusReset x0) x0.watch := by
  unfold execI3cBusReset
  simp

/-! Dma. -/

@[simp ↓] theorem setDma_watch (x0 : State) (x1 : Nat) (x2 : DmaCh) :
    (setDma x0 x1 x2).watch = x0.watch := by
  unfold setDma
  simp

@[simp ↓] theorem dmaConsume_watch (x0 : State) (x1 : Nat) (x2 : Nat) (x3 : Nat) (x4 : Nat) :
    (dmaConsume x0 x1 x2 x3 x4).watch = x0.watch := by
  unfold dmaConsume
  simp

@[simp ↓] theorem dmaStop_watch (x0 : State) (x1 : Nat) (x2 : Nat) (x3 : Nat) :
    (dmaStop x0 x1 x2 x3).watch = x0.watch := by
  unfold dmaStop
  simp

@[simp ↓] theorem dmaFail_watch (x0 : State) (x1 : Nat) (x2 : Nat) (x3 : Nat) :
    (dmaFail x0 x1 x2 x3).watch = x0.watch := by
  unfold dmaFail
  simp

@[simp ↓] theorem dmaFetch_watch (x0 : State) (x1 : Nat) (x2 : Nat) :
    (dmaFetch x0 x1 x2).watch = x0.watch := by
  unfold dmaFetch
  simp

@[simp ↓] theorem dmaFollow_watch (x0 : State) (x1 : Nat) (x2 : Nat) :
    (dmaFollow x0 x1 x2).watch = x0.watch := by
  unfold dmaFollow
  simp

@[simp ↓] theorem dmaDone_watch (x0 : State) (x1 : Nat) :
    (dmaDone x0 x1).watch = x0.watch := by
  unfold dmaDone
  simp

@[simp ↓] theorem dmaCheckEnd_watch (x0 : State) (x1 : Nat) :
    (dmaCheckEnd x0 x1).watch = x0.watch := by
  unfold dmaCheckEnd
  simp

@[simp ↓] theorem dmaStart_watch (x0 : State) (x1 : Nat) (x2 : Bytes) :
    (dmaStart x0 x1 x2).watch = x0.watch := by
  unfold dmaStart
  simp

@[simp ↓] theorem dmaChainReturn_watch (x0 : State) (x1 : Nat) (x2 : Nat) (x3 : Bytes) (x4 : Bool) :
    (dmaChainReturn x0 x1 x2 x3 x4).watch = x0.watch := by
  unfold dmaChainReturn
  (try dsimp only)
  (repeat' split) <;> simp

@[simp ↓] theorem execDmaBurstGrant_watch (x0 : State) :
    outKeeps (execDmaBurstGrant x0) x0.watch := by
  unfold execDmaBurstGrant
  (repeat' split) <;> simp

@[simp ↓] theorem dmaRead_watch (x0 : State) (x1 : Nat) (x2 : Nat) (x3 : Nat) (x4 : Bytes) (x5 : Bool) (x6 : Bool) (x7
    : ReadOutcome) :
    (dmaRead x0 x1 x2 x3 x4 x5 x6 x7).1.watch = x0.watch := by
  unfold dmaRead
  (repeat' split) <;> simp

theorem dmaRead_out (x0 : State) (x1 : Nat) (x2 : Nat) (x3 : Nat) (x4 : Bytes) (x5 : Bool) (x6 : Bool) (x7 :
    ReadOutcome) {t : State} {v} (h : dmaRead x0 x1 x2 x3 x4 x5 x6 x7 = (t, v)) : t.watch = x0.watch := by
  have e := dmaRead_watch x0 x1 x2 x3 x4 x5 x6 x7
  rw [h] at e
  exact e

@[simp ↓] theorem execDmaReadData_watch (x0 : Fin 32) (x1 : Nat) (x2 : Bytes) (x3 : Bytes) (x4 : Bool) (x5 : Bool) (x6
    : ReadOutcome) (x7 : ReadOutcome) (x8 : State) :
    outKeeps (execDmaReadData x0 x1 x2 x3 x4 x5 x6 x7 x8) x8.watch := by
  unfold execDmaReadData
  (try dsimp only)
  (repeat' split) <;> simp

@[simp ↓] theorem dmaKick_watch (x0 : State) (x1 : Nat) :
    (dmaKick x0 x1).watch = x0.watch := by
  unfold dmaKick
  simp

@[simp ↓] theorem execDmaKick_watch (x0 : Cmd) (x1 : BitVec 16) (x2 : State) :
    outKeeps (execDmaKick x0 x1 x2) x2.watch := by
  unfold execDmaKick
  refine runCommand_watch _ _ _ _ (fun aseq s => ?_)
  (try dsimp only)
  (repeat' split) <;> simp

@[simp ↓] theorem execDmaStatus_watch (x0 : Cmd) (x1 : BitVec 16) (x2 : State) :
    outKeeps (execDmaStatus x0 x1 x2) x2.watch := by
  unfold execDmaStatus
  refine runCommand_watch _ _ _ _ (fun aseq s => ?_)
  (try dsimp only)
  (repeat' split) <;> simp

@[simp ↓] theorem execChainWordReturn_watch (x0 : ChainNo) (x1 : BitVec 64) (x2 : Bytes) (x3 : Bool) (x4 : State) :
    outKeeps (execChainWordReturn x0 x1 x2 x3 x4) x4.watch := by
  unfold execChainWordReturn
  (repeat' split) <;> simp

/-! Images. -/

@[simp ↓] theorem imageRejected_watch (x0 : State) (x1 : Nat) (x2 : Nat) (x3 : Bytes) :
    (imageRejected x0 x1 x2 x3).watch = x0.watch := by
  unfold imageRejected
  simp

@[simp ↓] theorem showKeyStatus_watch (x0 : State) :
    (showKeyStatus x0).watch = x0.watch := by
  unfold showKeyStatus
  simp

@[simp ↓] theorem copyImage_watch (x0 : State) (x1 : Source) (x2 : ImageLoc) :
    (copyImage x0 x1 x2).1.watch = x0.watch := by
  unfold copyImage
  (try dsimp only)
  (repeat' split) <;> simp

theorem copyImage_out (x0 : State) (x1 : Source) (x2 : ImageLoc) {t : State} {v} (h : copyImage x0 x1 x2 = (t, v)) :
    t.watch = x0.watch := by
  have e := copyImage_watch x0 x1 x2
  rw [h] at e
  exact e

@[simp ↓] theorem queueCheck_watch (x0 : State) (x1 : Nat) (x2 : Nat) (x3 : Nat) (x4 : Source) (x5 : ImageLoc) :
    (queueCheck x0 x1 x2 x3 x4 x5).Keeps x0.watch := by
  unfold queueCheck
  (try dsimp only)
  (repeat' split) <;> (try simp_all) <;> grind [copyImage_out]

theorem queueCheck_done (x0 : State) (x1 : Nat) (x2 : Nat) (x3 : Nat) (x4 : Source) (x5 : ImageLoc) {r : Reply} {t :
    State} (h : queueCheck x0 x1 x2 x3 x4 x5 = .done r t) : t.watch = x0.watch := by
  have e := queueCheck_watch x0 x1 x2 x3 x4 x5
  rw [h] at e
  exact e
theorem queueCheck_later (x0 : State) (x1 : Nat) (x2 : Nat) (x3 : Nat) (x4 : Source) (x5 : ImageLoc) {t : State} (h :
    queueCheck x0 x1 x2 x3 x4 x5 = .later t) : t.watch = x0.watch := by
  have e := queueCheck_watch x0 x1 x2 x3 x4 x5
  rw [h] at e
  exact e

@[simp ↓] theorem execSeqLoad_watch (x0 : Cmd) (x1 : ImageLoc) (x2 : State) :
    outKeeps (execSeqLoad x0 x1 x2) x2.watch := by
  unfold execSeqLoad
  refine runCommand_watch _ _ _ _ (fun aseq s => ?_)
  (try dsimp only)
  (repeat' split) <;> (try simp) <;> (repeat first | rfl | refine (queueCheck_done _ _ _ _ _ _ (by assumption)).trans ?_ | refine (queueCheck_later _ _ _ _ _ _ (by assumption)).trans ?_ | fail | simp)

@[simp ↓] theorem execEngLoad_watch (x0 : Cmd) (x1 : BitVec 16) (x2 : ImageLoc) (x3 : State) :
    outKeeps (execEngLoad x0 x1 x2 x3) x3.watch := by
  unfold execEngLoad
  refine runCommand_watch _ _ _ _ (fun aseq s => onEngine_watch _ _ _ _ rfl (fun k => ?_))
  (try dsimp only)
  (repeat' split) <;> simp_all

@[simp ↓] theorem execSerdesLoad_watch (x0 : Cmd) (x1 : ImageLoc) (x2 : State) :
    outKeeps (execSerdesLoad x0 x1 x2) x2.watch := by
  unfold execSerdesLoad
  simp

@[simp ↓] theorem execFwFlash_watch (x0 : Cmd) (x1 : ImageLoc) (x2 : State) :
    outKeeps (execFwFlash x0 x1 x2) x2.watch := by
  unfold execFwFlash
  simp

@[simp ↓] theorem freeImages_watch (x0 : State) :
    (freeImages x0).watch = x0.watch := by
  unfold freeImages
  simp

@[simp ↓] theorem storeImage_watch (x0 : State) (x1 : Nat) (x2 : Bytes) :
    (storeImage x0 x1 x2).watch = x0.watch := by
  unfold storeImage
  simp

@[simp ↓] theorem loadEngine_watch (x0 : State) (x1 : Nat) (x2 : Nat) (x3 : Bytes) :
    (loadEngine x0 x1 x2 x3).watch = x0.watch := by
  unfold loadEngine
  (repeat' split) <;> simp

@[simp ↓] theorem idleSlot_watch (x0 : State) :
    (idleSlot x0).1.watch = x0.watch := by
  unfold idleSlot
  (repeat' split) <;> simp

theorem idleSlot_out (x0 : State) {t : State} {v} (h : idleSlot x0 = (t, v)) : t.watch = x0.watch := by
  have e := idleSlot_watch x0
  rw [h] at e
  exact e

@[simp ↓] theorem beginFlash_watch (x0 : State) (x1 : Nat) (x2 : Nat) (x3 : Bytes) :
    (beginFlash x0 x1 x2 x3).watch = x0.watch := by
  unfold beginFlash
  simp

@[simp ↓] theorem endCheck_watch (x0 : State) (x1 : ImgCheck) :
    (endCheck x0 x1).watch = x0.watch := by
  unfold endCheck
  (try dsimp only)
  (repeat' split) <;> simp

@[simp ↓] theorem endFirstCheck_watch (x0 : State) :
    (endFirstCheck x0).watch = x0.watch := by
  unfold endFirstCheck
  (repeat' split) <;> simp

@[simp ↓] theorem setSlot_watch (x0 : State) (x1 : Nat) (x2 : FlashSlot) :
    (setSlot x0 x1 x2).watch = x0.watch := by
  unfold setSlot
  simp

@[simp ↓] theorem execFlashWriteComplete_watch (x0 : Bool) (x1 : State) :
    outKeeps (execFlashWriteComplete x0 x1) x1.watch := by
  unfold execFlashWriteComplete
  (repeat' split) <;> simp

@[simp ↓] theorem execFwActivate_watch (x0 : Cmd) (x1 : State) :
    outKeeps (execFwActivate x0 x1) x1.watch := by
  unfold execFwActivate
  refine runCommand_watch _ _ _ _ (fun aseq s => ?_)
  (try dsimp only)
  (repeat' split) <;> simp

@[simp ↓] theorem execFootingRestartReady_watch (x0 : State) :
    outKeeps (execFootingRestartReady x0) x0.watch := by
  unfold execFootingRestartReady
  (repeat' split) <;> simp

@[simp ↓] theorem execFootingFallback_watch (x0 : State) :
    outKeeps (execFootingFallback x0) x0.watch := by
  unfold execFootingFallback
  (repeat' split) <;> simp

@[simp ↓] theorem execAttestQuote_watch (x0 : Cmd) (x1 : Bytes) (x2 : BitVec 64) (x3 : State) :
    outKeeps (execAttestQuote x0 x1 x2 x3) x3.watch := by
  unfold execAttestQuote
  refine runCommand_watch _ _ _ _ (fun aseq s => ?_)
  (try dsimp only)
  (repeat' split) <;> simp

@[simp ↓] theorem execQuoteSigned_watch (x0 : State) :
    outKeeps (execQuoteSigned x0) x0.watch := by
  unfold execQuoteSigned
  (repeat' split) <;> simp

@[simp ↓] theorem execLogRead_watch (x0 : Cmd) (x1 : BitVec 32) (x2 : BitVec 8) (x3 : BitVec 64) (x4 : State) :
    outKeeps (execLogRead x0 x1 x2 x3 x4) x4.watch := by
  unfold execLogRead
  refine runCommand_watch _ _ _ _ (fun aseq s => ?_)
  (try dsimp only)
  (repeat' split) <;> simp

@[simp ↓] theorem execIdRead_watch (x0 : Cmd) (x1 : BitVec 64) (x2 : State) :
    outKeeps (execIdRead x0 x1 x2) x2.watch := by
  unfold execIdRead
  refine runCommand_watch _ _ _ _ (fun aseq s => ?_)
  (try dsimp only)
  (repeat' split) <;> simp

@[simp ↓] theorem execImgStatus_watch (x0 : Cmd) (x1 : BitVec 64) (x2 : State) :
    outKeeps (execImgStatus x0 x1 x2) x2.watch := by
  unfold execImgStatus
  refine runCommand_watch _ _ _ _ (fun aseq s => ?_)
  (try dsimp only)
  (repeat' split) <;> simp

/-! PmcRun. -/

@[simp ↓] theorem pmcStart_watch (x0 : State) :
    (pmcStart x0).watch = x0.watch := by
  unfold pmcStart
  simp

/-! Regfile. -/

@[simp ↓] theorem setPhase_watch (x0 : State) (x1 : BootPhase) :
    (setPhase x0 x1).watch = x0.watch := by
  unfold setPhase
  simp

@[simp ↓] theorem writePushCtrl_watch (x0 : State) (x1 : Nat) (x2 : Nat) :
    (writePushCtrl x0 x1 x2).watch = x0.watch := by
  unfold writePushCtrl
  simp

theorem writeRefused_out (x0 : State) (x1 : Nat) (x2 : Reg) (x3 : Nat) :
    ∀ t, writeRefused x0 x1 x2 x3 = some t → t.watch = x0.watch := by
  unfold writeRefused
  (repeat' split) <;> simp

@[simp ↓] theorem storeReg_watch (x0 : State) (x1 : Reg) (x2 : Nat) (x3 : Nat) :
    (storeReg x0 x1 x2 x3).watch = x0.watch := by
  unfold storeReg
  simp

@[simp ↓] theorem writeHashKey_watch (x0 : State) (x1 : Nat) (x2 : Nat) (x3 : Nat) :
    (writeHashKey x0 x1 x2 x3).watch = x0.watch := by
  unfold writeHashKey
  (try dsimp only)
  (repeat' split) <;> (try simp_all) <;> grind [writeRefused_out]

@[simp ↓] theorem fileAccess_watch (s : State) (m off : Nat) (f : State → State)
    (h : ∀ t, (f t).watch = t.watch) : (fileAccess s m off f).watch = s.watch := by
  unfold fileAccess
  (repeat' split) <;> simp_all

@[simp ↓] theorem refillAll_watch (x0 : State) :
    (refillAll x0).watch = x0.watch := by
  unfold refillAll
  simp

@[simp ↓] theorem limitsRestart_watch (x0 : State) :
    (limitsRestart x0).watch = x0.watch := by
  unfold limitsRestart
  simp

@[simp ↓] theorem execRefillTick_watch (x0 : State) :
    outKeeps (execRefillTick x0) x0.watch := by
  unfold execRefillTick
  simp

@[simp ↓] theorem execIntervalStart_watch (x0 : State) :
    outKeeps (execIntervalStart x0) x0.watch := by
  unfold execIntervalStart
  simp

@[simp ↓] theorem gridTick_watch (x0 : State) :
    (gridTick x0).watch = x0.watch := by
  unfold gridTick
  simp

/-! Fault. -/

@[simp ↓] theorem returnGroup_watch (x0 : State) (x1 : Nat) (x2 : Nat) :
    (returnGroup x0 x1 x2).watch = x0.watch := by
  unfold returnGroup
  simp

@[simp ↓] theorem beginSwitch_watch (x0 : State) :
    (beginSwitch x0).watch = x0.watch := by
  unfold beginSwitch
  (repeat' split) <;> simp

@[simp ↓] theorem planSwitch_watch (x0 : State) (x1 : Nat) (x2 : Nat) (x3 : Nat) (x4 : Nat) :
    (planSwitch x0 x1 x2 x3 x4).watch = x0.watch := by
  unfold planSwitch
  simp

@[simp ↓] theorem sliceReady_watch (x0 : State) (x1 : Nat) :
    (sliceReady x0 x1).watch = x0.watch := by
  unfold sliceReady
  simp

@[simp ↓] theorem restSpare_watch (x0 : State) :
    (restSpare x0).watch = x0.watch := by
  unfold restSpare
  simp

@[simp ↓] theorem endSwitch_watch (x0 : State) (x1 : SliceMove) :
    (endSwitch x0 x1).watch = x0.watch := by
  unfold endSwitch
  simp

@[simp ↓] theorem execSliceSwitchAdmit_watch (x0 : State) :
    outKeeps (execSliceSwitchAdmit x0) x0.watch := by
  unfold execSliceSwitchAdmit
  (repeat' split) <;> simp

@[simp ↓] theorem execSliceSwitch_watch (x0 : Cmd) (x1 : BitVec 8) (x2 : BitVec 8) (x3 : State) :
    outKeeps (execSliceSwitch x0 x1 x2 x3) x3.watch := by
  unfold execSliceSwitch
  refine runCommand_watch _ _ _ _ (fun aseq s => ?_)
  (try dsimp only)
  (repeat' split) <;> simp

@[simp ↓] theorem execSliceSelfTestDone_watch (x0 : Bool) (x1 : State) :
    outKeeps (execSliceSelfTestDone x0 x1) x1.watch := by
  unfold execSliceSelfTestDone
  (try dsimp only)
  (repeat' split) <;> simp

@[simp ↓] theorem unlend_watch (x0 : State) (x1 : Nat) :
    (unlend x0 x1).watch = x0.watch := by
  unfold unlend
  (repeat' split) <;> simp

@[simp ↓] theorem drainLent_watch (x0 : State) (x1 : Nat) :
    (drainLent x0 x1).watch = x0.watch := by
  unfold drainLent
  simp

@[simp ↓] theorem takeSpares_watch (x0 : List Nat) (x1 : List Nat) (x2 : State) :
    (takeSpares x0 x1 x2).watch = x2.watch := by
  fun_induction takeSpares x0 x1 x2 <;> simp_all +zetaDelta

@[simp ↓] theorem advanceRemap_watch (x0 : State) :
    (advanceRemap x0).watch = x0.watch := by
  unfold advanceRemap
  (repeat' split) <;> simp

@[simp ↓] theorem execClusterRemap_watch (x0 : Cmd) (x1 : BitVec 8) (x2 : State) :
    outKeeps (execClusterRemap x0 x1 x2) x2.watch := by
  unfold execClusterRemap
  refine runCommand_watch _ _ _ _ (fun aseq s => ?_)
  (try dsimp only)
  (repeat' split) <;> simp

@[simp ↓] theorem execEngDrained_watch (x0 : Fin 128) (x1 : State) :
    outKeeps (execEngDrained x0 x1) x1.watch := by
  unfold execEngDrained
  simp

@[simp ↓] theorem startRecal_watch (x0 : State) (x1 : Nat) (x2 : Nat) (x3 : Nat) (x4 : Nat) :
    (startRecal x0 x1 x2 x3 x4).watch = x0.watch := by
  unfold startRecal
  simp

@[simp ↓] theorem execLaneRecal_watch (x0 : Cmd) (x1 : BitVec 16) (x2 : BitVec 8) (x3 : BitVec 8) (x4 : State) :
    outKeeps (execLaneRecal x0 x1 x2 x3 x4) x4.watch := by
  unfold execLaneRecal
  refine runCommand_watch _ _ _ _ (fun aseq s => ?_)
  (try dsimp only)
  (repeat' split) <;> simp

@[simp ↓] theorem execRecalibrationDone_watch (x0 : LaneNo) (x1 : Bool) (x2 : State) :
    outKeeps (execRecalibrationDone x0 x1 x2) x2.watch := by
  unfold execRecalibrationDone
  (try dsimp only)
  (repeat' split) <;> simp

@[simp ↓] theorem execSerdesApply_watch (x0 : Cmd) (x1 : BitVec 16) (x2 : State) :
    outKeeps (execSerdesApply x0 x1 x2) x2.watch := by
  unfold execSerdesApply
  refine runCommand_watch _ _ _ _ (fun aseq s => ?_)
  (try dsimp only)
  (repeat' split) <;> simp

@[simp ↓] theorem loseCopy_watch (x0 : Nat) (x1 : State) (x2 : Nat × Option Task) :
    (loseCopy x0 x1 x2).watch = x1.watch := by
  unfold loseCopy
  (repeat' split) <;> simp

@[simp ↓] theorem headerDrop_watch (x0 : State) (x1 : Nat) :
    (headerDrop x0 x1).watch = x0.watch := by
  unfold headerDrop
  (repeat' split) <;> simp

@[simp ↓] theorem headerLost_watch (x0 : State) (x1 : Nat) :
    (headerLost x0 x1).watch = x0.watch := by
  unfold headerLost
  simp

@[simp ↓] theorem execCellRelease_watch (x0 : CellName) (x1 : BitVec 8) (x2 : State) :
    outKeeps (execCellRelease x0 x1 x2) x2.watch := by
  unfold execCellRelease
  dsimp only
  (repeat' split) <;> simp

@[simp ↓] theorem execCellReclaim_watch (x0 : Cmd) (x1 : BitVec 8) (x2 : State) :
    outKeeps (execCellReclaim x0 x1 x2) x2.watch := by
  unfold execCellReclaim
  refine runCommand_watch _ _ _ _ (fun aseq s => ?_)
  (try dsimp only)
  (repeat' split) <;> simp

@[simp ↓] theorem reclaimCell_watch (p : State × Nat) (k : Nat) : (reclaimCell p k).1.watch = p.1.watch := by
  unfold reclaimCell
  dsimp only
  (repeat' split) <;> simp
@[simp ↓] theorem execReclaimWalkEnd_watch (s : State) : outKeeps (execReclaimWalkEnd s) s.watch := by
  unfold execReclaimWalkEnd
  split
  · rfl
  · simp

@[simp ↓] theorem execFaultStatus_watch (x0 : Cmd) (x1 : BitVec 64) (x2 : State) :
    outKeeps (execFaultStatus x0 x1 x2) x2.watch := by
  unfold execFaultStatus
  refine runCommand_watch _ _ _ _ (fun aseq s => ?_)
  (try dsimp only)
  (repeat' split) <;> simp

/-! DdrCmds. -/

@[simp ↓] theorem renameCold_watch (x0 : State) (x1 : Nat) (x2 : Nat) :
    (renameCold x0 x1 x2).watch = x0.watch := by
  unfold renameCold
  simp

@[simp ↓] theorem moveDirs_watch (x0 : State) (x1 : Nat) (x2 : Nat) :
    (moveDirs x0 x1 x2).watch = x0.watch := by
  unfold moveDirs
  simp

@[simp ↓] theorem moveExts_watch (x0 : State) (x1 : Nat) (x2 : Nat) :
    (moveExts x0 x1 x2).watch = x0.watch := by
  unfold moveExts
  simp

@[simp ↓] theorem moveCold_watch (x0 : State) (x1 : Nat) :
    (moveCold x0 x1).watch = x0.watch := by
  unfold moveCold
  (try dsimp only)
  (repeat' split) <;> (try simp) <;> (repeat first | rfl | refine (allocCold_some _ (by assumption)).trans ?_ | fail) <;> simp

@[simp ↓] theorem abandonTraining_watch (x0 : State) (x1 : Nat) :
    (abandonTraining x0 x1).watch = x0.watch := by
  unfold abandonTraining
  (try dsimp only)
  (repeat' split) <;> simp

@[simp ↓] theorem beginRetire_watch (x0 : State) (x1 : Nat) (x2 : Option Nat) :
    (beginRetire x0 x1 x2).watch = x0.watch := by
  unfold beginRetire
  simp

@[simp ↓] theorem finishRetire_watch (x0 : State) (x1 : Nat) :
    (finishRetire x0 x1).watch = x0.watch := by
  unfold finishRetire
  (try dsimp only)
  (repeat' split) <;> simp

@[simp ↓] theorem execEvacuationCopy_watch (x0 : Fin 32) (x1 : ReadOutcome) (x2 : State) :
    outKeeps (execEvacuationCopy x0 x1 x2) x2.watch := by
  unfold execEvacuationCopy
  (try dsimp only)
  (repeat' split) <;> simp

@[simp ↓] theorem channelFault_watch (x0 : State) (x1 : Nat) (x2 : Nat) :
    (channelFault x0 x1 x2).watch = x0.watch := by
  unfold channelFault
  simp

@[simp ↓] theorem execDdrCeWindowEnd_watch (x0 : Fin 32) (x1 : State) :
    outKeeps (execDdrCeWindowEnd x0 x1) x1.watch := by
  unfold execDdrCeWindowEnd
  (try dsimp only)
  (repeat' split) <;> simp

@[simp ↓] theorem beginTraining_watch (x0 : State) (x1 : Nat) :
    (beginTraining x0 x1).watch = x0.watch := by
  unfold beginTraining
  simp

@[simp ↓] theorem execRetrainStep_watch (x0 : Fin 32) (x1 : Bool) (x2 : State) :
    outKeeps (execRetrainStep x0 x1 x2) x2.watch := by
  unfold execRetrainStep
  (try dsimp only)
  (repeat' split) <;> simp

@[simp ↓] theorem execDriftReport_watch (x0 : Fin 32) (x1 : State) :
    outKeeps (execDriftReport x0 x1) x1.watch := by
  unfold execDriftReport
  simp

@[simp ↓] theorem closeRow_watch (x0 : State) (x1 : Nat) (x2 : Nat) (x3 : Nat) :
    (closeRow x0 x1 x2 x3).watch = x0.watch := by
  unfold closeRow
  simp

@[simp ↓] theorem execRowIdleClose_watch (x0 : Fin 32) (x1 : Fin 2) (x2 : BitVec 16) (x3 : State) :
    outKeeps (execRowIdleClose x0 x1 x2 x3) x3.watch := by
  unfold execRowIdleClose
  simp

@[simp ↓] theorem execRefreshDue_watch (x0 : Fin 32) (x1 : Fin 2) (x2 : BitVec 16) (x3 : State) :
    outKeeps (execRefreshDue x0 x1 x2 x3) x3.watch := by
  unfold execRefreshDue
  simp

@[simp ↓] theorem execDdrStatus_watch (x0 : Cmd) (x1 : BitVec 16) (x2 : State) :
    outKeeps (execDdrStatus x0 x1 x2) x2.watch := by
  unfold execDdrStatus
  refine runCommand_watch _ _ _ _ (fun aseq s => ?_)
  (try dsimp only)
  (repeat' split) <;> simp

@[simp ↓] theorem execDdrRetrain_watch (x0 : Cmd) (x1 : BitVec 16) (x2 : State) :
    outKeeps (execDdrRetrain x0 x1 x2) x2.watch := by
  unfold execDdrRetrain
  refine runCommand_watch _ _ _ _ (fun aseq s => ?_)
  (try dsimp only)
  (repeat' split) <;> simp

@[simp ↓] theorem execDdrRetire_watch (x0 : Cmd) (x1 : BitVec 16) (x2 : State) :
    outKeeps (execDdrRetire x0 x1 x2) x2.watch := by
  unfold execDdrRetire
  refine runCommand_watch _ _ _ _ (fun aseq s => ?_)
  (try dsimp only)
  (repeat' split) <;> simp

/-! Boot. -/

@[simp ↓] theorem applyStraps_watch (x0 : State) :
    (applyStraps x0).watch = x0.watch := by
  unfold applyStraps
  simp

@[simp ↓] theorem cutFrames_watch (x0 : State) :
    (cutFrames x0).watch = x0.watch := by
  unfold cutFrames
  simp

@[simp ↓] theorem dropPins_watch (x0 : State) :
    (dropPins x0).watch = x0.watch := by
  unfold dropPins
  simp

@[simp ↓] theorem stepEnds_watch (x0 : State) (x1 : Nat) :
    (stepEnds x0 x1).watch = x0.watch := by
  unfold stepEnds
  simp

@[simp ↓] theorem raiseStep_watch (x0 : State) (x1 : Nat) :
    (raiseStep x0 x1).watch = x0.watch := by
  unfold raiseStep
  simp

@[simp ↓] theorem beginRails_watch (x0 : State) :
    (beginRails x0).watch = x0.watch := by
  unfold beginRails
  simp

@[simp ↓] theorem execThermalBootHoldEnd_watch (x0 : State) :
    outKeeps (execThermalBootHoldEnd x0) x0.watch := by
  unfold execThermalBootHoldEnd
  (repeat' split) <;> simp

@[simp ↓] theorem drawSeeds_watch (x0 : State) :
    (drawSeeds x0).watch = x0.watch := by
  unfold drawSeeds
  simp

@[simp ↓] theorem wakeAll_watch (x0 : State) :
    (wakeAll x0).watch = x0.watch := by
  unfold wakeAll
  simp

@[simp ↓] theorem beginStepFour_watch (x0 : State) :
    (beginStepFour x0).watch = x0.watch := by
  unfold beginStepFour
  simp

@[simp ↓] theorem execRailInRange_watch (x0 : Fin 7) (x1 : State) :
    outKeeps (execRailInRange x0 x1) x1.watch := by
  unfold execRailInRange
  (try dsimp only)
  (repeat' split) <;> simp

@[simp ↓] theorem execRailTimeout_watch (x0 : Fin 7) (x1 : State) :
    outKeeps (execRailTimeout x0 x1) x1.watch := by
  unfold execRailTimeout
  (repeat' split) <;> simp

@[simp ↓] theorem railTick_watch (x0 : State) :
    (railTick x0).watch = x0.watch := by
  unfold railTick
  (repeat' split) <;> simp

@[simp ↓] theorem retireAtBoot_watch (x0 : State) (x1 : Nat) :
    (retireAtBoot x0 x1).watch = x0.watch := by
  unfold retireAtBoot
  simp

@[simp ↓] theorem execBootTrainingDone_watch (x0 : Fin 5) (x1 : Bool) (x2 : List (Fin 32)) (x3 : State) :
    outKeeps (execBootTrainingDone x0 x1 x2 x3) x3.watch := by
  unfold execBootTrainingDone
  (try dsimp only)
  (repeat' split) <;> simp

@[simp ↓] theorem execBootSelfTestDone_watch (x0 : TestUnit) (x1 : Bool) (x2 : State) :
    outKeeps (execBootSelfTestDone x0 x1 x2) x2.watch := by
  unfold execBootSelfTestDone
  (try dsimp only)
  (repeat' split) <;> simp

@[simp ↓] theorem noteSpared_watch (x0 : State) (x1 : Nat) :
    (noteSpared x0 x1).watch = x0.watch := by
  unfold noteSpared
  simp

@[simp ↓] theorem bootSlice_watch (x0 : State) (x1 : Nat) :
    (bootSlice x0 x1).watch = x0.watch := by
  unfold bootSlice
  simp

@[simp ↓] theorem bootEngine_watch (x0 : State) (x1 : Nat) :
    (bootEngine x0 x1).watch = x0.watch := by
  unfold bootEngine
  (try dsimp only)
  (repeat' split) <;> simp

@[simp ↓] theorem bootCluster_watch (x0 : State) (x1 : Nat) :
    (bootCluster x0 x1).watch = x0.watch := by
  unfold bootCluster
  simp

@[simp ↓] theorem bootCourse_watch (x0 : State) (x1 : Nat) :
    (bootCourse x0 x1).watch = x0.watch := by
  unfold bootCourse
  simp

@[simp ↓] theorem bootSubstitute_watch (x0 : State) :
    (bootSubstitute x0).watch = x0.watch := by
  unfold bootSubstitute
  simp

@[simp ↓] theorem startFooting_watch (x0 : State) (x1 : Bytes) (x2 : Nat) (x3 : Bytes) :
    (startFooting x0 x1 x2 x3).watch = x0.watch := by
  unfold startFooting
  (try dsimp only)
  (repeat' split) <;> simp

@[simp ↓] theorem checkSlot_watch (x0 : State) (x1 : Nat) (x2 : Bytes) :
    (checkSlot x0 x1 x2).watch = x0.watch := by
  unfold checkSlot
  (try dsimp only)
  (repeat' split) <;> simp

@[simp ↓] theorem bootFlash_watch (x0 : State) (x1 : Bytes) (x2 : Bytes) (x3 : Bytes) :
    (bootFlash x0 x1 x2 x3).watch = x0.watch := by
  unfold bootFlash
  (try dsimp only)
  (repeat' split) <;> simp

@[simp ↓] theorem execFootingResetRelease_watch (x0 : Straps) (x1 : Bytes) (x2 : Bytes) (x3 : Bytes) (x4 : Bool) (x5 :
    State) :
    outKeeps (execFootingResetRelease x0 x1 x2 x3 x4 x5) x5.watch := by
  unfold execFootingResetRelease
  (try dsimp only)
  (repeat' split) <;> simp

@[simp ↓] theorem execBootPushGo_watch (x0 : Master) (x1 : BitVec 14) (x2 : State) :
    outKeeps (execBootPushGo x0 x1 x2) x2.watch := by
  unfold execBootPushGo
  (repeat' split) <;> simp

@[simp ↓] theorem endPush_watch (x0 : State) (x1 : Bytes) (x2 : Bytes) :
    (endPush x0 x1 x2).watch = x0.watch := by
  unfold endPush
  simp

@[simp ↓] theorem execImageCheckDone_watch (x0 : Bytes) (x1 : Bytes) (x2 : State) :
    outKeeps (execImageCheckDone x0 x1 x2) x2.watch := by
  unfold execImageCheckDone
  (repeat' split) <;> simp

@[simp ↓] theorem loadKind_watch (x0 : State) (x1 : Nat) (x2 : Bytes) :
    (loadKind x0 x1 x2).watch = x0.watch := by
  unfold loadKind
  (repeat' split) <;> simp

@[simp ↓] theorem bootKind_watch (x0 : List (BitVec 8 × Bytes)) (x1 : State) (x2 : Nat) :
    (bootKind x0 x1 x2).watch = x1.watch := by
  unfold bootKind
  (repeat' split) <;> simp

@[simp ↓] theorem trainPorts_watch (x0 : State) :
    (trainPorts x0).watch = x0.watch := by
  unfold trainPorts
  simp

@[simp ↓] theorem execBootReady_watch (x0 : List (BitVec 8 × Bytes)) (x1 : State) :
    outKeeps (execBootReady x0 x1) x1.watch := by
  unfold execBootReady
  (repeat' split) <;> simp

@[simp ↓] theorem execBootInfo_watch (x0 : Cmd) (x1 : BitVec 64) (x2 : State) :
    outKeeps (execBootInfo x0 x1 x2) x2.watch := by
  unfold execBootInfo
  refine runCommand_watch _ _ _ _ (fun aseq s => ?_)
  (try dsimp only)
  (repeat' split) <;> simp

@[simp ↓] theorem execTrafficOpen_watch (x0 : Cmd) (x1 : BitVec 16) (x2 : BitVec 8) (x3 : State) :
    outKeeps (execTrafficOpen x0 x1 x2 x3) x3.watch := by
  unfold execTrafficOpen
  refine runCommand_watch _ _ _ _ (fun aseq s => ?_)
  (try dsimp only)
  (repeat' split) <;> simp

@[simp ↓] theorem execCoreReset_watch (x0 : Cmd) (x1 : State) :
    outKeeps (execCoreReset x0 x1) x1.watch := by
  unfold execCoreReset
  refine runCommand_watch _ _ _ _ (fun aseq s => ?_)
  (try dsimp only)
  (repeat' split) <;> simp

/-! Counters. -/

@[simp ↓] theorem sampleVals_watch (x0 : State) (x1 : Nat) (x2 : Nat) (x3 : List GroupVal) :
    (sampleVals x0 x1 x2 x3).1.watch = x0.watch := by
  fun_induction sampleVals x0 x1 x2 x3 <;> (try simp_all +zetaDelta) <;> grind [sampleCounter_out, sampleGauge_out]

theorem sampleVals_out (x0 : State) (x1 : Nat) (x2 : Nat) (x3 : List GroupVal) {t : State} {v} (h : sampleVals x0 x1
    x2 x3 = (t, v)) : t.watch = x0.watch := by
  have e := sampleVals_watch x0 x1 x2 x3
  rw [h] at e
  exact e

@[simp ↓] theorem clearWraps_watch (x0 : State) (x1 : Nat) (x2 : Nat) (x3 : List GroupVal) :
    (clearWraps x0 x1 x2 x3).watch = x0.watch := by
  unfold clearWraps
  (try dsimp only)
  (repeat' split) <;> simp (disch := first | (intros; (try dsimp only); (repeat' split) <;> simp) | fail)

@[simp ↓] theorem sampleGroup_watch (x0 : State) (x1 : Nat) (x2 : Nat) (x3 : Bool) (x4 : List GroupVal) :
    (sampleGroup x0 x1 x2 x3 x4).1.watch = x0.watch := by
  unfold sampleGroup
  simp

theorem sampleGroup_out (x0 : State) (x1 : Nat) (x2 : Nat) (x3 : Bool) (x4 : List GroupVal) {t : State} {v} (h :
    sampleGroup x0 x1 x2 x3 x4 = (t, v)) : t.watch = x0.watch := by
  have e := sampleGroup_watch x0 x1 x2 x3 x4
  rw [h] at e
  exact e

@[simp ↓] theorem execCounterRead_watch (x0 : Cmd) (x1 : BitVec 8) (x2 : BitVec 32) (x3 : BitVec 8) (x4 : BitVec 64)
    (x5 : State) :
    outKeeps (execCounterRead x0 x1 x2 x3 x4 x5) x5.watch := by
  unfold execCounterRead
  refine runCommand_watch _ _ _ _ (fun aseq s => ?_)
  (try dsimp only)
  (repeat' split) <;> simp

@[simp ↓] theorem scanGroups_watch (x0 : State) (x1 : Bool) (x2 : List (Nat × Nat)) :
    (scanGroups x0 x1 x2).1.watch = x0.watch := by
  fun_induction scanGroups x0 x1 x2 <;> (try simp_all +zetaDelta) <;> grind [sampleGroup_out]

theorem scanGroups_out (x0 : State) (x1 : Bool) (x2 : List (Nat × Nat)) {t : State} {v} (h : scanGroups x0 x1 x2 = (t,
    v)) : t.watch = x0.watch := by
  have e := scanGroups_watch x0 x1 x2
  rw [h] at e
  exact e

@[simp ↓] theorem execCounterScan_watch (x0 : Cmd) (x1 : Bytes) (x2 : BitVec 8) (x3 : BitVec 8) (x4 : BitVec 64) (x5 :
    State) :
    outKeeps (execCounterScan x0 x1 x2 x3 x4 x5) x5.watch := by
  unfold execCounterScan
  refine runCommand_watch _ _ _ _ (fun aseq s => ?_)
  (try dsimp only)
  (repeat' split) <;> simp

@[simp ↓] theorem pmcAct_watch (x0 : Nat) (x1 : Nat) (x2 : State) (x3 : Nat) :
    (pmcAct x0 x1 x2 x3).watch = x2.watch := by
  unfold pmcAct
  (repeat' split) <;> simp

@[simp ↓] theorem execPmcControl_watch (x0 : Cmd) (x1 : BitVec 64) (x2 : BitVec 8) (x3 : BitVec 64) (x4 : State) :
    outKeeps (execPmcControl x0 x1 x2 x3 x4) x4.watch := by
  unfold execPmcControl
  refine runCommand_watch _ _ _ _ (fun aseq s => ?_)
  (try dsimp only)
  (repeat' split) <;> simp

@[simp ↓] theorem execPmcStartTime_watch (x0 : State) :
    outKeeps (execPmcStartTime x0) x0.watch := by
  unfold execPmcStartTime
  simp

@[simp ↓] theorem pmcEntries_watch (x0 : State) (x1 : List Nat) :
    (pmcEntries x0 x1).1.watch = x0.watch := by
  fun_induction pmcEntries x0 x1 <;> (try simp_all +zetaDelta) <;> grind [sampleCount_out]

theorem pmcEntries_out (x0 : State) (x1 : List Nat) {t : State} {v} (h : pmcEntries x0 x1 = (t, v)) : t.watch =
    x0.watch := by
  have e := pmcEntries_watch x0 x1
  rw [h] at e
  exact e

@[simp ↓] theorem execPmcRead_watch (x0 : Cmd) (x1 : BitVec 64) (x2 : State) :
    outKeeps (execPmcRead x0 x1 x2) x2.watch := by
  unfold execPmcRead
  refine runCommand_watch _ _ _ _ (fun aseq s => ?_)
  (try dsimp only)
  (repeat' split) <;> simp

end Sys2Proof.Machine
end

