-- ==== Sys2Proof/Laws/WatchThread.lean ====
section
/-! SUPPORT. That the instructions of the threads, the sleep states, the stack and the clock leave the watched part of a state (Safety) alone: one lemma for each definition. -/

namespace Sys2Proof.Machine

/-! Issue. -/

@[simp ↓] theorem afterStep_watch (x0 : State) (x1 : Nat) (x2 : Nat) (x3 : Bool) :
    (afterStep x0 x1 x2 x3).watch = x0.watch := by
  unfold afterStep
  (try dsimp only)
  (repeat' split) <;> simp

@[simp ↓] theorem issue_watch (s : State) (n t : Nat) (is : Nat → Bool) (eff : State → Thread → Ins → State)
    (h : ∀ s x i, (eff s x i).watch = s.watch) : (issue s n t is eff).watch = s.watch := by
  unfold issue
  dsimp only
  (repeat' split) <;> simp [h]

@[simp ↓] theorem issueOp_watch (s : State) (n : Fin 128) (t : Fin 8) (op : Nat) (eff : State → Thread → Ins → State)
    (h : ∀ s x i, (eff s x i).watch = s.watch) : outKeeps (issueOp s n t op eff) s.watch := by
  unfold issueOp
  simp [h]

@[simp ↓] theorem alu_watch (x0 : Nat) (x1 : Nat) (x2 : Thread → Ins → Nat) (x3 : State) (x4 : Thread) (x5 : Ins) :
    (alu x0 x1 x2 x3 x4 x5).watch = x3.watch := by
  unfold alu
  simp

@[simp ↓] theorem branch_watch (x0 : Nat) (x1 : Nat) (x2 : Nat → Nat → Bool) (x3 : State) (x4 : Thread) (x5 : Ins) :
    (branch x0 x1 x2 x3 x4 x5).watch = x3.watch := by
  unfold branch
  simp

@[simp ↓] theorem access_watch (n t size : Nat) (eff : State → Thread → Ins → Nat → State) (s : State) (x : Thread)
    (i : Ins) (h : ∀ s x i k, (eff s x i k).watch = s.watch) : (access n t size eff s x i).watch = s.watch := by
  unfold access
  dsimp only
  (repeat' split) <;> simp [h]

@[simp ↓] theorem load_watch (x0 : Nat) (x1 : Nat) (x2 : Nat) (x3 : State) (x4 : Thread) (x5 : Ins) :
    (load x0 x1 x2 x3 x4 x5).watch = x3.watch := by
  unfold load
  simp

@[simp ↓] theorem store_watch (x0 : Nat) (x1 : Nat) (x2 : Nat) (x3 : State) (x4 : Thread) (x5 : Ins) :
    (store x0 x1 x2 x3 x4 x5).watch = x3.watch := by
  unfold store
  simp

@[simp ↓] theorem dmemCorrected_watch (x0 : State) (x1 : Nat) (x2 : Bool) :
    (dmemCorrected x0 x1 x2).watch = x0.watch := by
  unfold dmemCorrected
  simp

@[simp ↓] theorem waitMemory_watch (x0 : State) (x1 : Nat) (x2 : Nat) (x3 : Ins) :
    (waitMemory x0 x1 x2 x3).watch = x0.watch := by
  unfold waitMemory
  simp

@[simp ↓] theorem memOp_watch (x0 : State) (x1 : Nat) (x2 : Nat) (x3 : Ins) (x4 : Nat) (x5 : Nat) (x6 : Bytes) :
    (memOp x0 x1 x2 x3 x4 x5 x6).watch = x0.watch := by
  unfold memOp
  simp

@[simp ↓] theorem flowOp_watch (n t : Nat) (kinds : List Nat) (eff : State → Thread → Ins → Nat → Task → State)
    (s : State) (x : Thread) (i : Ins) (h : ∀ s x i k y, (eff s x i k y).watch = s.watch) :
    (flowOp n t kinds eff s x i).watch = s.watch := by
  unfold flowOp
  (repeat' split) <;> simp [h]

@[simp ↓] theorem flowOpIn_watch (n t : Nat) (kinds : List Nat) (ranges : Thread → Ins → List (Nat × Nat))
    (eff : State → Thread → Ins → Nat → Task → State) (s : State) (x : Thread) (i : Ins)
    (h : ∀ s x i k y, (eff s x i k y).watch = s.watch) : (flowOpIn n t kinds ranges eff s x i).watch = s.watch := by
  unfold flowOpIn
  refine flowOp_watch _ _ _ _ _ _ _ (fun s x i k y => ?_)
  split <;> simp [h]

/-! FlowIsa. -/

@[simp ↓] theorem execFsProbe_watch (x0 : Fin 128) (x1 : Fin 8) (x2 : State) :
    outKeeps (execFsProbe x0 x1 x2) x2.watch := by
  unfold execFsProbe
  simp

@[simp ↓] theorem execFsInsert_watch (x0 : Fin 128) (x1 : Fin 8) (x2 : State) :
    outKeeps (execFsInsert x0 x1 x2) x2.watch := by
  unfold execFsInsert
  simp

@[simp ↓] theorem rewritten_watch (x0 : State) (x1 : Nat) (x2 : RecPlace) :
    (rewritten x0 x1 x2).watch = x0.watch := by
  unfold rewritten
  (repeat' split) <;> simp

@[simp ↓] theorem execFsWrite_watch (x0 : Fin 128) (x1 : Fin 8) (x2 : State) :
    outKeeps (execFsWrite x0 x1 x2) x2.watch := by
  unfold execFsWrite
  refine issueOp_watch _ _ _ _ _ (fun s x i => flowOp_watch _ _ _ _ _ _ _ (fun s x i k y => ?_))
  (try dsimp only)
  (repeat' split) <;> (try simp) <;> (repeat first | rfl | fail | simp)

@[simp ↓] theorem programDelete_watch (x0 : State) (x1 : Nat) (x2 : Nat) (x3 : Thread) (x4 : Ins) (x5 : Task) :
    (programDelete x0 x1 x2 x3 x4 x5).watch = x0.watch := by
  unfold programDelete
  (repeat' split) <;> simp

@[simp ↓] theorem execFsDelete_watch (x0 : Fin 128) (x1 : Fin 8) (x2 : State) :
    outKeeps (execFsDelete x0 x1 x2) x2.watch := by
  unfold execFsDelete
  refine issueOp_watch _ _ _ _ _ (fun s x i => flowOp_watch _ _ _ _ _ _ _ (fun s x i k y => ?_))
  (try dsimp only)
  (repeat' split) <;> (try simp) <;> (repeat first | rfl | fail | simp)

@[simp ↓] theorem retryDelete_watch (x0 : State) (x1 : Nat) (x2 : Nat) :
    (retryDelete x0 x1 x2).watch = x0.watch := by
  unfold retryDelete
  (repeat' split) <;> simp

@[simp ↓] theorem execTblRead_watch (x0 : Fin 128) (x1 : Fin 8) (x2 : State) :
    outKeeps (execTblRead x0 x1 x2) x2.watch := by
  unfold execTblRead
  refine issueOp_watch _ _ _ _ _ (fun s x i => flowOp_watch _ _ _ _ _ _ _ (fun s x i k y => ?_))
  (try dsimp only)
  (repeat' split) <;> (try simp) <;> (repeat first | rfl | fail | simp)

@[simp ↓] theorem execFsCounts_watch (x0 : Fin 128) (x1 : Fin 8) (x2 : State) :
    outKeeps (execFsCounts x0 x1 x2) x2.watch := by
  unfold execFsCounts
  simp

@[simp ↓] theorem execFsFoldAdd_watch (x0 : Fin 128) (x1 : Fin 8) (x2 : State) :
    outKeeps (execFsFoldAdd x0 x1 x2) x2.watch := by
  unfold execFsFoldAdd
  simp

@[simp ↓] theorem execMemRead_watch (x0 : Fin 128) (x1 : Fin 8) (x2 : State) :
    outKeeps (execMemRead x0 x1 x2) x2.watch := by
  unfold execMemRead
  simp

@[simp ↓] theorem execMemoryOpComplete_watch (x0 : Fin 128) (x1 : Fin 8) (x2 : ReadOutcome) (x3 : State) :
    outKeeps (execMemoryOpComplete x0 x1 x2 x3) x3.watch := by
  unfold execMemoryOpComplete
  (try dsimp only)
  (repeat' split) <;> simp

@[simp ↓] theorem execFrameSend_watch (x0 : Fin 128) (x1 : Fin 8) (x2 : State) :
    outKeeps (execFrameSend x0 x1 x2) x2.watch := by
  unfold execFrameSend
  (try dsimp only)
  (repeat' split) <;> simp (disch := first | (intros; (try dsimp only); (repeat' split) <;> simp) | fail)

/-! Isa. -/

@[simp ↓] theorem binary_watch (x0 : Fin 128) (x1 : Fin 8) (x2 : Nat) (x3 : Nat → Nat → Nat) (x4 : State) :
    outKeeps (binary x0 x1 x2 x3 x4) x4.watch := by
  unfold binary
  simp

@[simp ↓] theorem execInstrNop_watch (x0 : Fin 128) (x1 : Fin 8) (x2 : State) :
    outKeeps (execInstrNop x0 x1 x2) x2.watch := by
  unfold execInstrNop
  simp

@[simp ↓] theorem execAdd_watch (x0 : Fin 128) (x1 : Fin 8) (x2 : State) :
    outKeeps (execAdd x0 x1 x2) x2.watch := by
  unfold execAdd
  simp

@[simp ↓] theorem execSub_watch (x0 : Fin 128) (x1 : Fin 8) (x2 : State) :
    outKeeps (execSub x0 x1 x2) x2.watch := by
  unfold execSub
  simp

@[simp ↓] theorem execAnd_watch (x0 : Fin 128) (x1 : Fin 8) (x2 : State) :
    outKeeps (execAnd x0 x1 x2) x2.watch := by
  unfold execAnd
  simp

@[simp ↓] theorem execOr_watch (x0 : Fin 128) (x1 : Fin 8) (x2 : State) :
    outKeeps (execOr x0 x1 x2) x2.watch := by
  unfold execOr
  simp

@[simp ↓] theorem execXor_watch (x0 : Fin 128) (x1 : Fin 8) (x2 : State) :
    outKeeps (execXor x0 x1 x2) x2.watch := by
  unfold execXor
  simp

@[simp ↓] theorem execShl_watch (x0 : Fin 128) (x1 : Fin 8) (x2 : State) :
    outKeeps (execShl x0 x1 x2) x2.watch := by
  unfold execShl
  simp

@[simp ↓] theorem execShr_watch (x0 : Fin 128) (x1 : Fin 8) (x2 : State) :
    outKeeps (execShr x0 x1 x2) x2.watch := by
  unfold execShr
  simp

@[simp ↓] theorem execSar_watch (x0 : Fin 128) (x1 : Fin 8) (x2 : State) :
    outKeeps (execSar x0 x1 x2) x2.watch := by
  unfold execSar
  simp

@[simp ↓] theorem execMul_watch (x0 : Fin 128) (x1 : Fin 8) (x2 : State) :
    outKeeps (execMul x0 x1 x2) x2.watch := by
  unfold execMul
  simp

@[simp ↓] theorem execMulhu_watch (x0 : Fin 128) (x1 : Fin 8) (x2 : State) :
    outKeeps (execMulhu x0 x1 x2) x2.watch := by
  unfold execMulhu
  simp

@[simp ↓] theorem execMin_watch (x0 : Fin 128) (x1 : Fin 8) (x2 : State) :
    outKeeps (execMin x0 x1 x2) x2.watch := by
  unfold execMin
  simp

@[simp ↓] theorem execMax_watch (x0 : Fin 128) (x1 : Fin 8) (x2 : State) :
    outKeeps (execMax x0 x1 x2) x2.watch := by
  unfold execMax
  simp

@[simp ↓] theorem execSeq_watch (x0 : Fin 128) (x1 : Fin 8) (x2 : State) :
    outKeeps (execSeq x0 x1 x2) x2.watch := by
  unfold execSeq
  simp

@[simp ↓] theorem execSlt_watch (x0 : Fin 128) (x1 : Fin 8) (x2 : State) :
    outKeeps (execSlt x0 x1 x2) x2.watch := by
  unfold execSlt
  simp

@[simp ↓] theorem execSltu_watch (x0 : Fin 128) (x1 : Fin 8) (x2 : State) :
    outKeeps (execSltu x0 x1 x2) x2.watch := by
  unfold execSltu
  simp

@[simp ↓] theorem execMovi_watch (x0 : Fin 128) (x1 : Fin 8) (x2 : State) :
    outKeeps (execMovi x0 x1 x2) x2.watch := by
  unfold execMovi
  simp

@[simp ↓] theorem execMovhi_watch (x0 : Fin 128) (x1 : Fin 8) (x2 : State) :
    outKeeps (execMovhi x0 x1 x2) x2.watch := by
  unfold execMovhi
  simp

@[simp ↓] theorem execFhash_watch (x0 : Fin 128) (x1 : Fin 8) (x2 : State) :
    outKeeps (execFhash x0 x1 x2) x2.watch := by
  unfold execFhash
  simp

@[simp ↓] theorem execBswap_watch (x0 : Fin 128) (x1 : Fin 8) (x2 : State) :
    outKeeps (execBswap x0 x1 x2) x2.watch := by
  unfold execBswap
  simp

@[simp ↓] theorem execBr_watch (x0 : Fin 128) (x1 : Fin 8) (x2 : State) :
    outKeeps (execBr x0 x1 x2) x2.watch := by
  unfold execBr
  simp

@[simp ↓] theorem execBeq_watch (x0 : Fin 128) (x1 : Fin 8) (x2 : State) :
    outKeeps (execBeq x0 x1 x2) x2.watch := by
  unfold execBeq
  simp

@[simp ↓] theorem execBne_watch (x0 : Fin 128) (x1 : Fin 8) (x2 : State) :
    outKeeps (execBne x0 x1 x2) x2.watch := by
  unfold execBne
  simp

@[simp ↓] theorem execBlt_watch (x0 : Fin 128) (x1 : Fin 8) (x2 : State) :
    outKeeps (execBlt x0 x1 x2) x2.watch := by
  unfold execBlt
  simp

@[simp ↓] theorem execBltu_watch (x0 : Fin 128) (x1 : Fin 8) (x2 : State) :
    outKeeps (execBltu x0 x1 x2) x2.watch := by
  unfold execBltu
  simp

@[simp ↓] theorem execCall_watch (x0 : Fin 128) (x1 : Fin 8) (x2 : State) :
    outKeeps (execCall x0 x1 x2) x2.watch := by
  unfold execCall
  simp

@[simp ↓] theorem execJmp_watch (x0 : Fin 128) (x1 : Fin 8) (x2 : State) :
    outKeeps (execJmp x0 x1 x2) x2.watch := by
  unfold execJmp
  simp

@[simp ↓] theorem execLd8_watch (x0 : Fin 128) (x1 : Fin 8) (x2 : State) :
    outKeeps (execLd8 x0 x1 x2) x2.watch := by
  unfold execLd8
  simp

@[simp ↓] theorem execLd16_watch (x0 : Fin 128) (x1 : Fin 8) (x2 : State) :
    outKeeps (execLd16 x0 x1 x2) x2.watch := by
  unfold execLd16
  simp

@[simp ↓] theorem execLd32_watch (x0 : Fin 128) (x1 : Fin 8) (x2 : State) :
    outKeeps (execLd32 x0 x1 x2) x2.watch := by
  unfold execLd32
  simp

@[simp ↓] theorem execLd64_watch (x0 : Fin 128) (x1 : Fin 8) (x2 : State) :
    outKeeps (execLd64 x0 x1 x2) x2.watch := by
  unfold execLd64
  simp

@[simp ↓] theorem execSt8_watch (x0 : Fin 128) (x1 : Fin 8) (x2 : State) :
    outKeeps (execSt8 x0 x1 x2) x2.watch := by
  unfold execSt8
  simp

@[simp ↓] theorem execSt16_watch (x0 : Fin 128) (x1 : Fin 8) (x2 : State) :
    outKeeps (execSt16 x0 x1 x2) x2.watch := by
  unfold execSt16
  simp

@[simp ↓] theorem execSt32_watch (x0 : Fin 128) (x1 : Fin 8) (x2 : State) :
    outKeeps (execSt32 x0 x1 x2) x2.watch := by
  unfold execSt32
  simp

@[simp ↓] theorem execSt64_watch (x0 : Fin 128) (x1 : Fin 8) (x2 : State) :
    outKeeps (execSt64 x0 x1 x2) x2.watch := by
  unfold execSt64
  simp

@[simp ↓] theorem execLoadComplete_watch (x0 : Fin 128) (x1 : LoadEnd) (x2 : State) :
    outKeeps (execLoadComplete x0 x1 x2) x2.watch := by
  unfold execLoadComplete
  dsimp only
  (repeat' split) <;> simp

/-! Sleep. -/

@[simp ↓] theorem execBlockReady_watch (x0 : BlockKind) (x1 : Nat) (x2 : State) :
    outKeeps (execBlockReady x0 x1 x2) x2.watch := by
  unfold execBlockReady
  (try dsimp only)
  (repeat' split) <;> simp

@[simp ↓] theorem failSlice_watch (x0 : State) (x1 : Nat) :
    (failSlice x0 x1).watch = x0.watch := by
  unfold failSlice
  simp

@[simp ↓] theorem failCourse_watch (x0 : State) (x1 : Nat) :
    (failCourse x0 x1).watch = x0.watch := by
  unfold failCourse
  simp

@[simp ↓] theorem failEngine_watch (x0 : State) (x1 : Nat) :
    (failEngine x0 x1).watch = x0.watch := by
  unfold failEngine
  (try dsimp only)
  (repeat' split) <;> simp

@[simp ↓] theorem failCluster_watch (x0 : State) (x1 : Nat) :
    (failCluster x0 x1).watch = x0.watch := by
  unfold failCluster
  (try dsimp only)
  (repeat' split) <;> simp

@[simp ↓] theorem wakeFailure_watch (x0 : State) (x1 : BlockKind) (x2 : Nat) :
    (wakeFailure x0 x1 x2).watch = x0.watch := by
  unfold wakeFailure
  (repeat' split) <;> simp

@[simp ↓] theorem execWakeLate_watch (x0 : BlockKind) (x1 : Nat) (x2 : State) :
    outKeeps (execWakeLate x0 x1 x2) x2.watch := by
  unfold execWakeLate
  (try dsimp only)
  (repeat' split) <;> simp

/-! Stack. -/

@[simp ↓] theorem drainWaiting_watch (x0 : Nat) (x1 : Nat) (x2 : State) :
    (drainWaiting x0 x1 x2).watch = x2.watch := by
  fun_induction drainWaiting x0 x1 x2 <;> simp_all +zetaDelta

@[simp ↓] theorem grantCredit_watch (x0 : State) (x1 : Nat) (x2 : List Nat) :
    (grantCredit x0 x1 x2).watch = x0.watch := by
  unfold grantCredit
  simp

@[simp ↓] theorem returnCredit_watch (x0 : State) (x1 : Nat) (x2 : Nat) (x3 : Nat) :
    (returnCredit x0 x1 x2 x3).watch = x0.watch := by
  unfold returnCredit
  simp

@[simp ↓] theorem cellTaken_watch (x0 : State) (x1 : Nat) (x2 : Bytes) (x3 : Bool) :
    (cellTaken x0 x1 x2 x3).1.watch = x0.watch := by
  unfold cellTaken
  (try dsimp only)
  (repeat' split) <;> simp

theorem cellTaken_out (x0 : State) (x1 : Nat) (x2 : Bytes) (x3 : Bool) {t : State} {v} (h : cellTaken x0 x1 x2 x3 =
    (t, v)) : t.watch = x0.watch := by
  have e := cellTaken_watch x0 x1 x2 x3
  rw [h] at e
  exact e

@[simp ↓] theorem execCredit_watch (x0 : SubNo) (x1 : Bytes) (x2 : Bool) (x3 : State) :
    outKeeps (execCredit x0 x1 x2 x3) x3.watch := by
  unfold execCredit
  (try dsimp only)
  (repeat' split) <;> (try simp_all) <;> grind [cellTaken_out]

@[simp ↓] theorem execLink_watch (x0 : SubNo) (x1 : Bytes) (x2 : Bool) (x3 : State) :
    outKeeps (execLink x0 x1 x2 x3) x3.watch := by
  unfold execLink
  (try dsimp only)
  (repeat' split) <;> (try simp_all) <;> grind [cellTaken_out]

@[simp ↓] theorem relayLost_watch (x0 : State) :
    (relayLost x0).watch = x0.watch := by
  unfold relayLost
  simp

@[simp ↓] theorem setQuoin_watch (x0 : State) (x1 : Nat) (x2 : Nat) :
    (setQuoin x0 x1 x2).watch = x0.watch := by
  unfold setQuoin
  (try dsimp only)
  (repeat' split) <;> simp

@[simp ↓] theorem relayBids_watch (x0 : State) :
    (relayBids x0).watch = x0.watch := by
  unfold relayBids
  (repeat' split) <;> simp

@[simp ↓] theorem memberSeen_watch (x0 : State) (x1 : Nat) :
    (memberSeen x0 x1).watch = x0.watch := by
  unfold memberSeen
  simp

@[simp ↓] theorem meetQuoin_watch (x0 : State) (x1 : Nat) (x2 : Nat) :
    (meetQuoin x0 x1 x2).watch = x0.watch := by
  unfold meetQuoin
  (repeat' split) <;> simp

@[simp ↓] theorem postBondLink_watch (x0 : State) (x1 : Nat) (x2 : Nat) :
    (postBondLink x0 x1 x2).watch = x0.watch := by
  unfold postBondLink
  simp

@[simp ↓] theorem helloStack_watch (x0 : State) (x1 : Nat) :
    (helloStack x0 x1).watch = x0.watch := by
  unfold helloStack
  simp

@[simp ↓] theorem receiveBondHello_watch (x0 : State) (x1 : Nat) (x2 : Bytes) :
    (receiveBondHello x0 x1 x2).watch = x0.watch := by
  unfold receiveBondHello
  simp

@[simp ↓] theorem execBondHello_watch (x0 : SubNo) (x1 : Bytes) (x2 : Bool) (x3 : State) :
    outKeeps (execBondHello x0 x1 x2 x3) x3.watch := by
  unfold execBondHello
  (try dsimp only)
  (repeat' split) <;> (try simp_all) <;> grind [cellTaken_out]

@[simp ↓] theorem execBondHelloSend_watch (x0 : SubNo) (x1 : State) :
    outKeeps (execBondHelloSend x0 x1) x1.watch := by
  unfold execBondHelloSend
  (try dsimp only)
  (repeat' split) <;> simp

@[simp ↓] theorem execBondLinkSilence_watch (x0 : SubNo) (x1 : State) :
    outKeeps (execBondLinkSilence x0 x1) x1.watch := by
  unfold execBondLinkSilence
  (repeat' split) <;> simp

@[simp ↓] theorem joinStack_watch (x0 : State) (x1 : Nat) (x2 : Bytes) :
    (joinStack x0 x1 x2).watch = x0.watch := by
  unfold joinStack
  simp

@[simp ↓] theorem execSeed_watch (x0 : SubNo) (x1 : Bytes) (x2 : Bool) (x3 : State) :
    outKeeps (execSeed x0 x1 x2 x3) x3.watch := by
  unfold execSeed
  (try dsimp only)
  (repeat' split) <;> (try simp_all) <;> grind [cellTaken_out]

@[simp ↓] theorem sendSeed_watch (x0 : State) (x1 : Nat) :
    (sendSeed x0 x1).watch = x0.watch := by
  unfold sendSeed
  (repeat' split) <;> simp

@[simp ↓] theorem releaseHold_watch (x0 : State) (x1 : MirrorHold) :
    (releaseHold x0 x1).watch = x0.watch := by
  unfold releaseHold
  simp

@[simp ↓] theorem endHolds_watch (x0 : State) (x1 : MirrorHold → Bool) :
    (endHolds x0 x1).watch = x0.watch := by
  unfold endHolds
  simp

@[simp ↓] theorem unmirror_watch (x0 : State) (x1 : Bytes) :
    (unmirror x0 x1).watch = x0.watch := by
  unfold unmirror
  (repeat' split) <;> simp

@[simp ↓] theorem recordUnmirrored_watch (x0 : State) (x1 : MirrorWait) (x2 : Nat) :
    (recordUnmirrored x0 x1 x2).watch = x0.watch := by
  unfold recordUnmirrored
  simp

@[simp ↓] theorem mapChange_watch (x0 : State) (x1 : Nat) (x2 : Nat) :
    (mapChange x0 x1 x2).watch = x0.watch := by
  unfold mapChange
  simp

@[simp ↓] theorem mapLosses_watch (x0 : Nat) (x1 : List Nat) (x2 : State) :
    (mapLosses x0 x1 x2).1.watch = x2.watch := by
  fun_induction mapLosses x0 x1 x2 <;> simp_all +zetaDelta

theorem mapLosses_out (x0 : Nat) (x1 : List Nat) (x2 : State) {t : State} {v} (h : mapLosses x0 x1 x2 = (t, v)) :
    t.watch = x2.watch := by
  have e := mapLosses_watch x0 x1 x2
  rw [h] at e
  exact e

@[simp ↓] theorem endRelays_watch (x0 : State) (x1 : Nat) :
    (endRelays x0 x1).watch = x0.watch := by
  unfold endRelays
  simp

@[simp ↓] theorem forgetPeer_watch (x0 : State) (x1 : Nat) :
    (forgetPeer x0 x1).watch = x0.watch := by
  unfold forgetPeer
  simp

@[simp ↓] theorem loseMember_watch (x0 : State) (x1 : Nat) :
    (loseMember x0 x1).watch = x0.watch := by
  unfold loseMember
  simp

@[simp ↓] theorem dropHeld_watch (x0 : State) (x1 : Nat) :
    (dropHeld x0 x1).watch = x0.watch := by
  unfold dropHeld
  simp

@[simp ↓] theorem isolate_watch (x0 : State) :
    (isolate x0).watch = x0.watch := by
  unfold isolate
  simp

@[simp ↓] theorem execMemberLoss_watch (x0 : Fin 4) (x1 : State) :
    outKeeps (execMemberLoss x0 x1) x1.watch := by
  unfold execMemberLoss
  (try dsimp only)
  (repeat' split) <;> simp

@[simp ↓] theorem execAliveInChange_watch (x0 : Fin 4) (x1 : Bool) (x2 : State) :
    outKeeps (execAliveInChange x0 x1 x2) x2.watch := by
  unfold execAliveInChange
  simp

@[simp ↓] theorem toCopy_watch (x0 : State) (x1 : Bytes) :
    (toCopy x0 x1).watch = x0.watch := by
  unfold toCopy
  simp

@[simp ↓] theorem updateCopy_watch (x0 : State) (x1 : Nat) (x2 : Bytes) (x3 : Bytes) (x4 : Bytes) :
    (updateCopy x0 x1 x2 x3 x4).watch = x0.watch := by
  unfold updateCopy
  (try dsimp only)
  (repeat' split) <;> simp

@[simp ↓] theorem markCopy_watch (x0 : State) (x1 : Nat) (x2 : Bytes) :
    (markCopy x0 x1 x2).watch = x0.watch := by
  unfold markCopy
  (repeat' split) <;> simp

@[simp ↓] theorem applyRecord_watch (x0 : State) (x1 : Nat) (x2 : Nat) (x3 : Nat) (x4 : Bytes) :
    (applyRecord x0 x1 x2 x3 x4).watch = x0.watch := by
  unfold applyRecord
  (try dsimp only)
  (repeat' split) <;> simp

@[simp ↓] theorem applyEarly_watch (x0 : Nat) (x1 : Nat) (x2 : State) :
    (applyEarly x0 x1 x2).watch = x2.watch := by
  fun_induction applyEarly x0 x1 x2 <;> simp_all +zetaDelta

@[simp ↓] theorem applyAll_watch (x0 : State) :
    (applyAll x0).watch = x0.watch := by
  unfold applyAll
  simp

@[simp ↓] theorem receiveRecord_watch (x0 : State) (x1 : Nat) (x2 : Bytes) :
    (receiveRecord x0 x1 x2).watch = x0.watch := by
  unfold receiveRecord
  simp

@[simp ↓] theorem execRecord_watch (x0 : SubNo) (x1 : Bytes) (x2 : Bool) (x3 : State) :
    outKeeps (execRecord x0 x1 x2 x3) x3.watch := by
  unfold execRecord
  (try dsimp only)
  (repeat' split) <;> (try simp_all) <;> grind [cellTaken_out]

@[simp ↓] theorem execInsertionEnd_watch (x0 : Nat) (x1 : State) :
    outKeeps (execInsertionEnd x0 x1) x1.watch := by
  unfold execInsertionEnd
  simp

/-! StackCmds. -/

@[simp ↓] theorem queueBond_watch (x0 : State) (x1 : Nat) (x2 : Bytes) (x3 : Bytes) :
    (queueBond x0 x1 x2 x3).watch = x0.watch := by
  unfold queueBond
  (try dsimp only)
  (repeat' split) <;> (try simp_all) <;> grind [bufferFrame_out]

@[simp ↓] theorem bondFrame_watch (x0 : State) (x1 : Nat) (x2 : Bytes) :
    (bondFrame x0 x1 x2).watch = x0.watch := by
  unfold bondFrame
  (repeat' split) <;> simp

@[simp ↓] theorem frameCells_watch (x0 : State) (x1 : Nat) (x2 : List (Bytes × Bool)) :
    (frameCells x0 x1 x2).watch = x0.watch := by
  unfold frameCells
  simp

@[simp ↓] theorem execDeliver_watch (x0 : SubNo) (x1 : List (Bytes × Bool)) (x2 : State) :
    outKeeps (execDeliver x0 x1 x2) x2.watch := by
  unfold execDeliver
  simp

@[simp ↓] theorem execSteer_watch (x0 : SubNo) (x1 : List (Bytes × Bool)) (x2 : State) :
    outKeeps (execSteer x0 x1 x2) x2.watch := by
  unfold execSteer
  simp

@[simp ↓] theorem askMember_watch (x0 : State) (x1 : Nat) (x2 : Nat) (x3 : Nat) (x4 : Nat) (x5 : Nat) (x6 : Bytes) :
    (askMember x0 x1 x2 x3 x4 x5 x6).watch = x0.watch := by
  unfold askMember
  simp

@[simp ↓] theorem askMap_watch (x0 : State) (x1 : Nat) (x2 : Nat) (x3 : Nat) (x4 : Nat) :
    (askMap x0 x1 x2 x3 x4).watch = x0.watch := by
  unfold askMap
  simp

@[simp ↓] theorem sendMoved_watch (x0 : Nat) (x1 : Nat) (x2 : State) (x3 : RecPlace × Bytes × Bytes) :
    (sendMoved x0 x1 x2 x3).watch = x2.watch := by
  unfold sendMoved
  (repeat' split) <;> simp

@[simp ↓] theorem sendEntry_watch (x0 : State) (x1 : Nat) (x2 : Nat) :
    (sendEntry x0 x1 x2).watch = x0.watch := by
  unfold sendEntry
  simp

@[simp ↓] theorem beginStep_watch (x0 : State) (x1 : MoveWait) (x2 : List Nat) :
    (beginStep x0 x1 x2).watch = x0.watch := by
  unfold beginStep
  simp

@[simp ↓] theorem ownWrite_watch (x0 : State) (x1 : MoveWait) :
    (ownWrite x0 x1).watch = x0.watch := by
  unfold ownWrite
  (try dsimp only)
  (repeat' split) <;> (try simp) <;> (repeat first | rfl | refine (updateEntry_done _ _ _ _ _ _ _ (by assumption)).trans ?_ | refine (updateEntry_later _ _ _ _ _ _ _ (by assumption)).trans ?_ | fail) <;> simp

@[simp ↓] theorem advanceMove_watch (x0 : Nat) (x1 : Nat) (x2 : State) :
    (advanceMove x0 x1 x2).watch = x2.watch := by
  fun_induction advanceMove x0 x1 x2 <;> simp_all +zetaDelta

@[simp ↓] theorem advanceMoves_watch (x0 : State) :
    (advanceMoves x0).watch = x0.watch := by
  unfold advanceMoves
  simp

@[simp ↓] theorem endServes_watch (x0 : State) :
    (endServes x0).watch = x0.watch := by
  unfold endServes
  simp

@[simp ↓] theorem countMoved_watch (x0 : State) (x1 : Nat) :
    (countMoved x0 x1).watch = x0.watch := by
  unfold countMoved
  simp

@[simp ↓] theorem abandonMove_watch (x0 : State) (x1 : Nat) :
    (abandonMove x0 x1).watch = x0.watch := by
  unfold abandonMove
  simp

@[simp ↓] theorem receiveAckRecord_watch (x0 : State) (x1 : Nat) (x2 : Bytes) :
    (receiveAckRecord x0 x1 x2).watch = x0.watch := by
  unfold receiveAckRecord
  (try dsimp only)
  (repeat' split) <;> simp

@[simp ↓] theorem execRecordAck_watch (x0 : SubNo) (x1 : Bytes) (x2 : Bool) (x3 : State) :
    outKeeps (execRecordAck x0 x1 x2 x3) x3.watch := by
  unfold execRecordAck
  (try dsimp only)
  (repeat' split) <;> (try simp_all) <;> grind [cellTaken_out]

@[simp ↓] theorem resendRecord_watch (x0 : State) (x1 : MirrorWait) :
    (resendRecord x0 x1).watch = x0.watch := by
  unfold resendRecord
  simp

@[simp ↓] theorem execMirrorAckTimeout_watch (x0 : Fin 4) (x1 : BitVec 32) (x2 : State) :
    outKeeps (execMirrorAckTimeout x0 x1 x2) x2.watch := by
  unfold execMirrorAckTimeout
  (repeat' split) <;> simp

@[simp ↓] theorem execTableFenceWaitEnd_watch (x0 : BitVec 32) (x1 : State) :
    outKeeps (execTableFenceWaitEnd x0 x1) x1.watch := by
  unfold execTableFenceWaitEnd
  simp

@[simp ↓] theorem digestAnswer_watch (x0 : State) (x1 : RelayWait) (x2 : Bytes) :
    (digestAnswer x0 x1 x2).watch = x0.watch := by
  unfold digestAnswer
  (repeat' split) <;> simp

@[simp ↓] theorem partFails_watch (x0 : State) (x1 : RelayWait) :
    (partFails x0 x1).watch = x0.watch := by
  unfold partFails
  simp

@[simp ↓] theorem relayAnswer_watch (x0 : State) (x1 : RelayWait) (x2 : Nat) (x3 : Bytes) :
    (relayAnswer x0 x1 x2 x3).watch = x0.watch := by
  unfold relayAnswer
  (repeat' split) <;> simp

@[simp ↓] theorem execStackForm_watch (x0 : Cmd) (x1 : State) :
    outKeeps (execStackForm x0 x1) x1.watch := by
  unfold execStackForm
  refine runCommand_watch _ _ _ _ (fun aseq s => ?_)
  (try dsimp only)
  (repeat' split) <;> simp

@[simp ↓] theorem execStackJoin_watch (x0 : Cmd) (x1 : BitVec 8) (x2 : State) :
    outKeeps (execStackJoin x0 x1 x2) x2.watch := by
  unfold execStackJoin
  refine runCommand_watch _ _ _ _ (fun aseq s => ?_)
  (try dsimp only)
  (repeat' split) <;> simp

@[simp ↓] theorem execStackLeave_watch (x0 : Cmd) (x1 : State) :
    outKeeps (execStackLeave x0 x1) x1.watch := by
  unfold execStackLeave
  refine runCommand_watch _ _ _ _ (fun aseq s => ?_)
  (try dsimp only)
  (repeat' split) <;> simp

@[simp ↓] theorem execStackRelay_watch (x0 : Cmd) (x1 : BitVec 8) (x2 : BitVec 64) (x3 : BitVec 64) (x4 : Bytes) (x5 :
    Bytes) (x6 : Bool) (x7 : State) :
    outKeeps (execStackRelay x0 x1 x2 x3 x4 x5 x6 x7) x7.watch := by
  unfold execStackRelay
  refine runCommand_watch _ _ _ _ (fun aseq s => ?_)
  (try dsimp only)
  (repeat' split) <;> simp

@[simp ↓] theorem execStackStage_watch (x0 : Cmd) (x1 : BitVec 8) (x2 : BitVec 8) (x3 : BitVec 64) (x4 : BitVec 64)
    (x5 : BitVec 32) (x6 : Bytes) (x7 : Bool) (x8 : ReadOutcome) (x9 : State) :
    outKeeps (execStackStage x0 x1 x2 x3 x4 x5 x6 x7 x8 x9) x9.watch := by
  unfold execStackStage
  refine runCommand_watch _ _ _ _ (fun aseq s => ?_)
  (try dsimp only)
  (repeat' split) <;> (try simp_all) <;> grind [dmaRead_out]

@[simp ↓] theorem execStackMove_watch (x0 : Cmd) (x1 : BitVec 8) (x2 : BitVec 8) (x3 : State) :
    outKeeps (execStackMove x0 x1 x2 x3) x3.watch := by
  unfold execStackMove
  refine runCommand_watch _ _ _ _ (fun aseq s => ?_)
  (try dsimp only)
  (repeat' split) <;> simp

@[simp ↓] theorem execStackDigest_watch (x0 : Cmd) (x1 : BitVec 64) (x2 : State) :
    outKeeps (execStackDigest x0 x1 x2) x2.watch := by
  unfold execStackDigest
  refine runCommand_watch _ _ _ _ (fun aseq s => ?_)
  (try dsimp only)
  (repeat' split) <;> simp

@[simp ↓] theorem execStackStatus_watch (x0 : Cmd) (x1 : State) :
    outKeeps (execStackStatus x0 x1) x1.watch := by
  unfold execStackStatus
  refine runCommand_watch _ _ _ _ (fun aseq s => ?_)
  (try dsimp only)
  (repeat' split) <;> simp

/-! Sync. -/

@[simp ↓] theorem execChWr_watch (x0 : Fin 128) (x1 : Fin 8) (x2 : State) :
    outKeeps (execChWr x0 x1 x2) x2.watch := by
  unfold execChWr
  simp

@[simp ↓] theorem execChCommit_watch (x0 : Fin 128) (x1 : Fin 8) (x2 : State) :
    outKeeps (execChCommit x0 x1 x2) x2.watch := by
  unfold execChCommit
  (try dsimp only)
  (repeat' split) <;> simp (disch := first | (intros; (try dsimp only); (repeat' split) <;> simp) | fail)

@[simp ↓] theorem execChCommitRoom_watch (x0 : Fin 17) (x1 : Fin 64) (x2 : State) :
    outKeeps (execChCommitRoom x0 x1 x2) x2.watch := by
  unfold execChCommitRoom
  (repeat' split) <;> simp

@[simp ↓] theorem execChWordsVisible_watch (x0 : Fin 17) (x1 : Fin 64) (x2 : State) :
    outKeeps (execChWordsVisible x0 x1 x2) x2.watch := by
  unfold execChWordsVisible
  simp

@[simp ↓] theorem takeWord_watch (x0 : State) (x1 : Nat) (x2 : Nat) (x3 : Nat) (x4 : Nat) (x5 : Thread) (x6 : Ins) (x7
    : ChanWord) :
    (takeWord x0 x1 x2 x3 x4 x5 x6 x7).watch = x0.watch := by
  unfold takeWord
  simp

@[simp ↓] theorem execChRd_watch (x0 : Fin 128) (x1 : Fin 8) (x2 : State) :
    outKeeps (execChRd x0 x1 x2) x2.watch := by
  unfold execChRd
  (try dsimp only)
  (repeat' split) <;> simp (disch := first | (intros; (try dsimp only); (repeat' split) <;> simp) | fail)

@[simp ↓] theorem execChTry_watch (x0 : Fin 128) (x1 : Fin 8) (x2 : State) :
    outKeeps (execChTry x0 x1 x2) x2.watch := by
  unfold execChTry
  (try dsimp only)
  (repeat' split) <;> simp (disch := first | (intros; (try dsimp only); (repeat' split) <;> simp) | fail)

@[simp ↓] theorem execChDiscard_watch (x0 : Fin 128) (x1 : Fin 8) (x2 : State) :
    outKeeps (execChDiscard x0 x1 x2) x2.watch := by
  unfold execChDiscard
  simp

@[simp ↓] theorem acquire_watch (x0 : Nat) (x1 : Nat) (x2 : Bool) (x3 : State) (x4 : Thread) (x5 : Ins) :
    (acquire x0 x1 x2 x3 x4 x5).watch = x3.watch := by
  unfold acquire
  (try dsimp only)
  (repeat' split) <;> simp

@[simp ↓] theorem execLkAcq_watch (x0 : Fin 128) (x1 : Fin 8) (x2 : State) :
    outKeeps (execLkAcq x0 x1 x2) x2.watch := by
  unfold execLkAcq
  simp

@[simp ↓] theorem execLkTry_watch (x0 : Fin 128) (x1 : Fin 8) (x2 : State) :
    outKeeps (execLkTry x0 x1 x2) x2.watch := by
  unfold execLkTry
  simp

@[simp ↓] theorem execLkRel_watch (x0 : Fin 128) (x1 : Fin 8) (x2 : State) :
    outKeeps (execLkRel x0 x1 x2) x2.watch := by
  unfold execLkRel
  simp

@[simp ↓] theorem execTimerArm_watch (x0 : Fin 128) (x1 : Fin 8) (x2 : State) :
    outKeeps (execTimerArm x0 x1 x2) x2.watch := by
  unfold execTimerArm
  simp

@[simp ↓] theorem execTimerWait_watch (x0 : Fin 128) (x1 : Fin 8) (x2 : State) :
    outKeeps (execTimerWait x0 x1 x2) x2.watch := by
  unfold execTimerWait
  simp

@[simp ↓] theorem execTimerExpire_watch (x0 : Fin 128) (x1 : Fin 8) (x2 : State) :
    outKeeps (execTimerExpire x0 x1 x2) x2.watch := by
  unfold execTimerExpire
  (try dsimp only)
  (repeat' split) <;> simp

@[simp ↓] theorem execTimeRead_watch (x0 : Fin 128) (x1 : Fin 8) (x2 : State) :
    outKeeps (execTimeRead x0 x1 x2) x2.watch := by
  unfold execTimeRead
  simp

@[simp ↓] theorem endTask_watch (x0 : State) (x1 : Nat) (x2 : Nat) (x3 : Nat) (x4 : Nat) (x5 : Task) :
    (endTask x0 x1 x2 x3 x4 x5).watch = x0.watch := by
  unfold endTask
  (repeat' split) <;> simp

@[simp ↓] theorem execTaskEnd_watch (x0 : Fin 128) (x1 : Fin 8) (x2 : State) :
    outKeeps (execTaskEnd x0 x1 x2) x2.watch := by
  unfold execTaskEnd
  (try dsimp only)
  (repeat' split) <;> simp (disch := first | (intros; (try dsimp only); (repeat' split) <;> simp) | fail)

@[simp ↓] theorem execBreakHalt_watch (x0 : Fin 128) (x1 : Fin 8) (x2 : State) :
    outKeeps (execBreakHalt x0 x1 x2) x2.watch := by
  unfold execBreakHalt
  simp

@[simp ↓] theorem execIllegalOp_watch (x0 : Fin 128) (x1 : Fin 8) (x2 : State) :
    outKeeps (execIllegalOp x0 x1 x2) x2.watch := by
  unfold execIllegalOp
  simp

@[simp ↓] theorem execThreadHalt_watch (x0 : Fin 128) (x1 : Fin 8) (x2 : State) :
    outKeeps (execThreadHalt x0 x1 x2) x2.watch := by
  unfold execThreadHalt
  (try dsimp only)
  (repeat' split) <;> simp

@[simp ↓] theorem execTaskLimit_watch (x0 : Fin 128) (x1 : Fin 8) (x2 : State) :
    outKeeps (execTaskLimit x0 x1 x2) x2.watch := by
  unfold execTaskLimit
  (try dsimp only)
  (repeat' split) <;> simp

/-! Tick. -/

@[simp ↓] theorem busyTick_watch (x0 : State) :
    (busyTick x0).watch = x0.watch := by
  unfold busyTick
  simp

@[simp ↓] theorem tick_watch (x0 : State) :
    (tick x0).watch = x0.watch := by
  unfold tick
  simp

end Sys2Proof.Machine
end

