-- ==== Sys2Proof/Laws/WatchKept.lean ====
section
/-! SUPPORT. What the operations that do change the watched part of a state (Safety) do to it: the queue stays as it is, and
the invariant is kept. -/

namespace Sys2Proof.Machine

/-- What every command does with the watched part: the queue stays, and the invariant is kept. -/
def State.Good (s t : State) : Prop := t.pending = s.pending ∧ (s.Inv → t.Inv)

/-- An outcome whose next state is good. -/
def outGood (o : Host.Outcome State Fault Refusal) (s : State) : Prop :=
  match o with
  | .next t => s.Good t
  | _ => True

theorem good_of_watch {s t : State} (h : t.watch = s.watch) : s.Good t := by
  refine ⟨congrArg Watch.pending h, fun i => ?_⟩
  unfold State.Inv at *
  rwa [h]

theorem State.Good.trans {s t u : State} (h : s.Good t) (k : t.Good u) : s.Good u :=
  ⟨k.1.trans h.1, fun i => k.2 (h.2 i)⟩

theorem State.Good.rfl {s : State} : s.Good s := ⟨Eq.refl _, id⟩

theorem good_congr {s t u : State} (h : s.Good t) (e : u.watch = t.watch) : s.Good u := h.trans (good_of_watch e)

theorem good_congr_left {s t u : State} (e : t.watch = s.watch) (h : t.Good u) : s.Good u := (good_of_watch e).trans h

theorem outGood_of_keeps {o : Host.Outcome State Fault Refusal} {s : State} (h : outKeeps o s.watch) : outGood o s := by
  cases o with
  | next t => exact good_of_watch h
  | _ => trivial

theorem foldl_good {α : Type} (f : State → α → State) (l : List α) (h : ∀ (s : State) a, s.Good (f s a)) (s : State) :
    s.Good (l.foldl f s) := by
  induction l generalizing s with
  | nil => exact .rfl
  | cons a l ih => exact (h s a).trans (ih _)

/-- Writing the memory keeps the invariant. -/
theorem withDdr_good (s : State) (v : DdrStt) (h : Memory.wf s.ddr.mem = true → Memory.wf v.mem = true) : s.Good
    (s.withDdr v) :=
  ⟨rfl, fun i => ⟨h i.1, i.2.1, i.2.2.1, i.2.2.2⟩⟩

theorem withDma_good (s : State) (v : DmaStt) (h : Memory.wf s.dma.staging = true → Memory.wf v.staging = true) :
    s.Good (s.withDma v) :=
  ⟨rfl, fun i => ⟨i.1, h i.2.1, i.2.2.1, i.2.2.2⟩⟩

theorem dmaDropped_good (s : State) (x : DmaCh) : s.Good (dmaDropped s x) := by
  unfold dmaDropped
  split
  · exact .rfl
  · split
    next b t e =>
    refine good_congr_left (drawBytes_out _ _ e) ?_
    split
    · exact withDdr_good _ _ (fun h => Memory.wf_writeN h _ _)
    · exact withDma_good _ _ (fun h => Memory.wf_writeN h _ _)

theorem dmaSample_good (s : State) (n : Nat) : s.Good (dmaSample s n) := by
  unfold dmaSample
  dsimp only
  split
  · exact .rfl
  · refine State.Good.trans ?_ (good_of_watch (setDma_watch _ _ _))
    split
    · split
      · exact good_of_watch (by simp)
      · exact good_congr ((good_of_watch (draw_watch _)).trans (dmaDropped_good _ (dmaAt s n))) (by simp)
    · exact .rfl

theorem dmaBegin_good (s : State) (n : Nat) : s.Good (dmaBegin s n) :=
  good_congr (dmaSample_good s n) (by unfold dmaBegin; simp)

theorem dmaLand_good (s : State) (n space a len : Nat) (d : Bytes) (bad : Bool) : s.Good (dmaLand s n space a len d
    bad) := by
  unfold dmaLand
  dsimp only
  have k := countPmc_watch s { code := 0x10, block := 26, unit := some n, addr := some a } len
  generalize countPmc s _ len = t at k ⊢
  refine good_congr_left k ?_
  split
  · split <;> exact good_of_watch (by simp)
  · split
    · have k := ddrCommandsBy_watch t 1 (a / 64 * 64) ((a + len + 63) / 64 * 64 - a / 64 * 64)
      generalize ddrCommandsBy t _ _ _ = u at k ⊢
      refine good_congr_left k ?_
      split
      · exact good_of_watch (by simp)
      · exact withDdr_good _ _ (fun h => Memory.wf_writeN h _ _)
    · split
      · exact good_of_watch (by simp)
      · exact good_congr (withDma_good t { t.dma with staging := Memory.writeN t.dma.staging a d } (fun h =>
          Memory.wf_writeN h _ _))
          (State.withDdr_watch _ _ (by simp))

theorem execDmaWriteResponse_good (ch : Fin 32) (burst : Nat) (ok : Bool) (s : State) :
    outGood (execDmaWriteResponse ch burst ok s) s := by
  unfold execDmaWriteResponse
  dsimp only
  split
  · exact .rfl
  · split
    · exact .rfl
    · split
      · exact good_congr (dmaLand_good _ _ _ _ _ _ _) ((dmaCheckEnd_watch _ _).trans (setDma_watch _ _ _))
      · exact good_of_watch (by simp)

theorem writeDmaCfg_good (s : State) (m n v : Nat) : s.Good (writeDmaCfg s m n v) := by
  unfold writeDmaCfg
  dsimp only
  split
  · exact good_of_watch (by simp)
  · split
    · exact good_of_watch (by simp)
    · split
      · exact good_of_watch (by simp)
      · exact good_congr_left (by simp) (dmaBegin_good _ _)

theorem regAccess_good (s : State) (m addr : Nat) (f : State → State) (h : ∀ s : State, s.Good (f s)) : s.Good
    (regAccess s m addr f) := by
  unfold regAccess
  dsimp only
  split
  · exact good_of_watch (by simp)
  · exact good_congr_left ((countPmc_watch ..).trans (dropOther_watch ..)) (h _)

theorem execDmaEnable_good (m : Master) (ch : Fin 32) (v : BitVec 32) (s : State) : outGood (execDmaEnable m ch v s) s
    :=
  regAccess_good _ _ _ _ (fun _ => writeDmaCfg_good ..)

theorem execDmaDisable_good (m : Master) (ch : Fin 32) (v : BitVec 32) (s : State) : outGood (execDmaDisable m ch v s)
    s :=
  regAccess_good _ _ _ _ (fun _ => writeDmaCfg_good ..)

theorem execDmaDisableSample_good (ch : Fin 32) (s : State) : outGood (execDmaDisableSample ch s) s := dmaSample_good ..

theorem fileAccess_good (s : State) (m off : Nat) (f : State → State) (h : ∀ s : State, s.Good (f s)) :
    s.Good (fileAccess s m off f) := by
  unfold fileAccess
  dsimp only
  split <;> (split <;> first | exact good_congr_left (dropOther_watch ..) (h _) | exact regAccess_good _ _ _ _ h)

theorem writeReg_good (s : State) (m : Nat) (r : Reg) (i v : Nat) : s.Good (writeReg s m r i v) := by
  unfold writeReg
  split
  all_goals first
    | (refine good_of_watch ?_; simp; done)
    | with_reducible exact writeDmaCfg_good _ _ _ _
    | skip
  split
  · next e => exact good_of_watch (writeRefused_out _ _ _ _ _ e)
  · dsimp only
    (repeat' split) <;> exact good_of_watch (by simp)

theorem writeHalf_good (s : State) (m : Nat) (r : Reg) (i : Nat) (high : Bool) (v : Nat) : s.Good (writeHalf s m r i
    high v) := by
  unfold writeHalf
  split
  · next e => exact good_congr (good_of_watch (writeRefused_out _ _ _ _ _ e)) (setHeld_watch _ _ _)
  · dsimp only
    split
    · exact (good_of_watch (setHeld_watch _ _ _)).trans (writeReg_good ..)
    · exact good_of_watch ((setHeld_watch _ _ _).trans (countReservedBits_watch ..))

theorem writeWord_good (s : State) (m off v : Nat) : s.Good (writeWord s m off v) := by
  unfold writeWord
  split
  · exact good_of_watch (by simp)
  · split
    · exact writeReg_good ..
    · exact writeHalf_good ..

theorem writeBar0_good (s : State) (m off size v : Nat) : s.Good (writeBar0 s m off size v) := by
  unfold writeBar0
  split
  · exact fileAccess_good _ _ _ _ (fun _ => writeWord_good ..)
  · split
    · split
      · split
        · exact fileAccess_good _ _ _ _ (fun s => (good_of_watch (setHeld_watch _ _ _)).trans (writeReg_good ..))
        · exact (fileAccess_good _ _ _ _ (fun _ => writeWord_good ..)).trans (fileAccess_good _ _ _ _ (fun _ =>
            writeWord_good ..))
      · exact (fileAccess_good _ _ _ _ (fun _ => writeWord_good ..)).trans (fileAccess_good _ _ _ _ (fun _ =>
          writeWord_good ..))
    · exact good_of_watch (by simp)

theorem execRegisterWrite_good (m : Master) (off : BitVec 26) (size : Nat) (v : BitVec 64) (s : State) :
    outGood (execRegisterWrite m off size v s) s := by
  unfold execRegisterWrite
  split
  · exact writeBar0_good ..
  · exact .rfl

theorem execHashKeyWrite_good (m : Master) (k : Fin 64) (w : Fin 13) (v : BitVec 32) (s : State) :
    outGood (execHashKeyWrite m k w v s) s := by
  unfold execHashKeyWrite
  split
  · exact writeBar0_good ..
  · exact .rfl

theorem grantReq_watch (s : State) (r : WakeReq) : (grantReq s r).watch =
    { s.watch with used := s.pwr.used + r.credits, grants := s.pwr.grants ++ [r.credits] } := by
  unfold grantReq
  dsimp only
  split <;> simp <;> rfl

theorem execWakeGrant_good (s : State) : outGood (execWakeGrant s) s := by
  unfold execWakeGrant
  split
  · split
    · next r _ h =>
      refine ⟨congrArg Watch.pending (grantReq_watch s r), fun i => ?_⟩
      unfold State.Inv at *
      rw [grantReq_watch]
      refine ⟨i.1, i.2.1, ?_, h⟩
      have := i.2.2.1
      simp only [State.watch] at this ⊢
      simp [this]
    · exact .rfl
  · exact .rfl

theorem execCreditReturn_good (s : State) : outGood (execCreditReturn s) s := by
  unfold execCreditReturn
  split
  · exact .rfl
  · next c cs e =>
    refine ⟨rfl, fun i => ⟨i.1, i.2.1, ?_, ?_⟩⟩
    · have := i.2.2.1
      simp only [State.watch, e, List.sum_cons] at this
      simp [State.watch, this]
    · exact Nat.le_trans (Nat.sub_le _ _) i.2.2.2

theorem relayMessage_good (s : State) (dev tag : Nat) (m : Bytes) : s.Good (relayMessage s dev tag m) := by
  unfold relayMessage
  dsimp only
  split
  · exact good_of_watch (by simp)
  · exact good_of_watch (by simp)
  · exact withDma_good _ _ (fun h => Memory.wf_writeN h _ _)
  · exact good_of_watch (by simp)
  · split <;> exact good_of_watch (by simp)

theorem receiveRelay_good (s : State) (sub : Nat) (cell : Bytes) : s.Good (receiveRelay s sub cell) := by
  unfold receiveRelay
  dsimp only
  split
  · exact .rfl
  · split
    · exact (good_of_watch (State.withStk_watch s _)).trans (relayMessage_good _ _ _ _)
    · exact good_of_watch (by simp)

theorem execRelay_good (sub : SubNo) (cell : Bytes) (crcOk : Bool) (s : State) : outGood (execRelay sub cell crcOk s)
    s := by
  unfold execRelay
  split
  · next e => exact (good_of_watch (cellTaken_out _ _ _ _ e)).trans (receiveRelay_good ..)
  · next e => exact good_of_watch (cellTaken_out _ _ _ _ e)

theorem loseSegments_good (s : State) (c : Nat) : s.Good (loseSegments s c) :=
  foldl_good _ _ (fun s _ => (good_of_watch (draw_watch s)).trans (withDdr_good _ _ (fun h => Memory.wf_writeN h _
      _))) s

theorem sleepLoss_good (s : State) (kind : BlockKind) (num : Nat) (power : Bool) : s.Good (sleepLoss s kind num power)
    := by
  unfold sleepLoss
  split
  · split
    · split
      · exact good_of_watch (by simp)
      · exact .rfl
    · exact .rfl
  · split
    · exact good_of_watch (by simp)
    · exact .rfl
  · exact loseSegments_good ..
  · exact .rfl

theorem execSleepEntry_good (kind : BlockKind) (num : Nat) (power : Bool) (s : State) :
    outGood (execSleepEntry kind num power s) s := by
  unfold execSleepEntry
  dsimp only
  split
  · exact .rfl
  · split
    · exact good_congr (sleepLoss_good _ _ _ _) (putBlk_watch _ _ _ _)
    · exact .rfl

/-- The state right after reset meets the invariant. -/
theorem coreKept_good (s : State) : s.Good (coreKept s) :=
  ⟨rfl, fun _ => ⟨rfl, rfl, rfl, Nat.zero_le _⟩⟩

theorem resetDevice_good (s : State) (cause code : Nat) : s.Good (resetDevice s cause code) :=
  ⟨congrArg Watch.pending ((dropPins_watch _).trans (cutFrames_watch s)), fun _ => ⟨rfl, rfl, rfl, Nat.zero_le _⟩⟩

theorem execFootingReset_good (powerOn : Bool) (s : State) : outGood (execFootingReset powerOn s) s := by
  unfold execFootingReset
  split <;> exact resetDevice_good ..

theorem execFootclkLoss_good (s : State) : outGood (execFootclkLoss s) s := resetDevice_good ..

theorem execDeviceFatal_good (code : Fin 4) (s : State) : outGood (execDeviceFatal code s) s := by
  unfold execDeviceFatal
  split
  · exact resetDevice_good ..
  · exact resetDevice_good ..
  · exact good_of_watch (by simp)
  · split
    · exact good_of_watch (by simp)
    · exact .rfl
  · exact .rfl

theorem execCoreResetBegin_good (s : State) : outGood (execCoreResetBegin s) s := by
  unfold execCoreResetBegin
  split
  · exact .rfl
  · exact good_congr ((good_of_watch (cutFrames_watch s)).trans (coreKept_good _)) (by simp)

end Sys2Proof.Machine
end

