-- ==== Sys2Proof/Tests/Slice0.lean ====
section
/-! SUPPORT. Tests: what is not well-formed, worked examples of the spec, and states that meet the hypotheses of the
statements. -/

open Sys2Proof Sys2Proof.Machine

namespace Sys2Proof.Tests

set_option Elab.async false

/-- The operands that every command row has. -/
def cmd : Cmd := { src := .mailbox }
/-- The accepted command of an opcode that `cmd` runs. -/
def acc (op : Nat) : Accepted :=
  { aseq := 1, opcode := op, src := .mailbox, seq := 0, cpl := 0, fence := false, quiet := true, result := 0, resultOk := true
    started := false }
/-- A state whose device is READY. -/
def on (s : State := .reset) : State := s.withBoot { s.boot with phase := .ready }
/-- A state in which a command row of an opcode runs. -/
def run (op : Nat) (s : State := .reset) : State := (on s).withHost { s.host with accepted := [acc op] }
/-- An instruction word. -/
def word (op : Nat) (ra rb rd imm : Nat := 0) : BitVec 64 :=
  BitVec.ofNat 64 (op + 2 ^ 8 * rd + 2 ^ 13 * ra + 2 ^ 18 * rb + 2 ^ 32 * imm)
/-- A task of a kind. -/
def task (kind : Nat) : Task := { desc := le 64 kind, cluster := 0, arrived := 0 }
/-- Thread 0 of engine 0 stands before a word and serves task 0, which is `t`. -/
def thr (w : BitVec 64) (x : Thread := {}) (t : Task := task 5) (s : State := .reset) : State :=
  let e : Engine := { imem := [(0, w)], image := some 0, threads := [(0, { x with st := .ready, task := some 0 })] }
  setTask (setEng s 0 e) 0 (some t)
/-- A thread whose register 1 holds a value. -/
def reg1 (v : BitVec 64) : Thread := { regs := [(1, v)] }
/-- The tier-A record of slot 0, whose keys are 40 zero bytes, is live: an entry of bucket 0 names it. -/
def hot (s : State) : State := setIdx s 0 (ixMake 0 0 0 0 false)
/-- The cold record of cold slot 0, whose keys are zero bytes, is live: a directory entry of bucket 0 names it. -/
def cold (s : State) : State :=
  s.withFs { s.fs with tbSize := 1, dir := [(0, dxMake 0 0 0)], cold := [(0, paste [] 168 [1])] }
/-- A FOLD entry of slot 0 and generation 0 is open. -/
def fold : Fold := { slot := 0, gen := 0, task := none, taken := false, packets := 0, octets := 0 }
def open_ (s : State) : State := s.withFs { s.fs with folds := [fold] }
/-- A task whose FS_WRITE names the record of slot 0. -/
def named : Task := { task 1 with written := some { cold := false, slot := 0, gen := 0 } }
def namedCold : Task := { task 1 with written := some { cold := true, slot := 0, gen := 0 } }
/-- A block that is awake. -/
def wake (k : BlockKind) (n : Nat) (s : State := .reset) : State := setBlk s k n { st := .awake }
/-- Cluster 0 serves and its matching store holds task 0, which is `t`. -/
def stored (t : Task) (s : State := .reset) : State := setCl (setTask s 0 (some t)) 0 { tasks := [0] }
/-- Engine 0 serves with its eight threads in a state. -/
def eight (x : Thread) (s : State := .reset) : State :=
  setEng (wake .engine 0 (wake .cluster 0 s)) 0 { image := some 0, threads := (List.range 8).map (fun t => (t, x)) }
/-- A frame in a slice. -/
def frm (n : Nat := 0) : Frame := { bytes := List.replicate 60 0, ingress := .subport 0, slice := n }
def copy0 : Copy := { fid := 0, encap := 0, mirror := false, trunc := 0, ce := false, cut := false, cells := 1 }
/-- A DATA task that waits for its operand 0, a flow record. -/
def t0 : Task := { task 1 with desc := le 64 (1 + 2 ^ 256 * 4), missing := [0] }
/-- A master owns the device. -/
def owned (m : Nat := 0) (s : State := on) : State := s.withOwn { s.own with owner := some m }
/-- The offset of a register. -/
def at_ (r : Reg) (i : Nat := 0) : BitVec 26 := BitVec.ofNat 26 (r.off i)
/-- A ring that runs. -/
def ring0 (page : Nat := 0) (r : Ring := {}) (s : State := on) : State := setRing s 0 page { r with st := .running }
def chain0 (s : State) : State := setReg s .ringCfg 0 0x20
/-- A deletion of slot 0. -/
def del (b : Bool) (stamp : Nat := 0) : Del :=
  { tierB := b, slot := 0, gen := 0, stamp := stamp, mark := 0, live := true, reason := 2, origin := .none }
/-- Epoch 1. -/
def later (s : State := .reset) : State := s.withTbl { s.tbl with epoch := 1 }
/-- The flow store is formatted and its settings are given. -/
def formatted (f : FsSt → FsSt := id) (s : State := .reset) : State := s.withFs (f { s.fs with formatted := true })
/-- The tier-A record of slot 1, whose keys are zero bytes, is live. -/
def hot1 (s : State) : State := setIdx s 0 (ixMake 0 1 0 0 false)
def dem (stamp : Nat := 0) : Dem := { slot := 1, cold := 0, stamp := stamp, origin := .none }
def purge0 : Purge := { tenant := 0, aseq := 1, count := 0, left := [List.replicate 40 0] }
/-- A DMA burst of 32 bytes. -/
def burst (d : Option Bytes := none) : Burst := { idx := 0, off := 0, len := 32, data := d }
def dma0 (x : DmaCh) : State := setDma on 0 x
/-- Subport 0 is up with shedding enabled. -/
def shed (x : Sub) : State := setReg (setSub on 0 { x with up := true }) .subportLinkCfg 0 0x1000000
def sub0 (x : Sub) (s : State := on) : State := setSub s 0 x
/-- A link on subport 0 is wanted. -/
def linked (x : Sub) : State :=
  let s := setReg (setSub on 0 x) .portCfg 0 0x8
  s.withImg { s.img with serdes := some {} }
/-- Port 0 and its lanes have their grant. -/
def powered (s : State) : State := (upFrom 0 8).foldl (fun s l => wake .lane l s) (wake .port 0 s)
/-- A frame in the pass of its slice. -/
def inPass (f : Frame := frm) : Frame := { f with stage := .slice, key := List.replicate 40 0, context := true }
def framed (f : Frame) (s : State := on) : State := setFrame s 0 (some f)
def fetch0 (f : Fetch) : State := formatted (fun g => { g with tbSize := 1, fetches := [f] })
/-- Subport 0 is a bond link in service to device 1. -/
def bonded (x : Bond := {}) (s : State := on) : State :=
  let u := setSub (s.withPorts { s.ports with bond := [(0, true)] }) 0 { up := true }
  u.withStk { u.stk with links := [(0, { x with st := .service, peer := 1 })] }
/-- Devices 0 and 1 form the stack, whose quoin is device `q`. -/
def stack (q : Nat := 0) (s : State := on) : State := s.withStk { s.stk with formed := true, quoin := some q, members := 3 }
/-- No place is left for a key of a hashed table. -/
def full (id : Nat) (t : TableInfo) (key : Bytes) (s : State := on) : State :=
  let u := (keyIdxs s id t key).foldl (fun s i => setEnt s id 0 i { st := .retiring 0 }) s
  u.withTbl { u.tbl with flips := [{ id := id, path := keyIdxs s id t key, bytes := [], who := .learn [9] 9 }] }
def learn0 : Learn := { mac := List.replicate 6 0, tenant := 0, sub := 383, time := 0, moveTo := none, cand := none, fid := 0, epoch := 0 }
def flying (s : State := on) : State := s.withTbl { s.tbl with flight := [learn0] }
/-- The learned entry of index 0 with its flags. -/
def learned (f : Nat) : State :=
  setEnt (setReg on .learnCfg 0 2) 0x08 0 0 { st := .valid 0, settled := true, bytes := paste (List.replicate 16 0) 10 (le 1 f) }
/-- An entry of an indexed table. -/
def entry (id inst idx : Nat) (s : State := on) : State := setEnt s id inst idx { st := .valid 0, bytes := [1] }
def course0 (x : Course) (s : State := on) : State := setCourse s 3 5 x
def ddr0 (x : DdrCh) : State := setDdrCh on 31 x
def phase (p : BootPhase) (b : BootSt := {}) : State := on.withBoot { b with phase := p }
def joined (n : Nat) (k : Option Nat) : State := on.withFt { on.ft with joined := [(n, k)] }
theorem of_snd {α : Type} {x : α × Bool} (h : x.2 = true) : ∃ u, x = (u, true) := ⟨x.1, Prod.ext rfl h⟩

/-! Ill-formed commands: the check refuses one for each condition. -/

theorem test_refuses_register_write : ¬ (Instr.registerWrite 0 0 0 0).WellFormed := by decide
theorem test_refuses_learn_insert_done : ¬ (Instr.learnInsertDone [0] 0).WellFormed := by decide
theorem test_refuses_pending_entry_expire : ¬ (Instr.pendingEntryExpire [0] 0).WellFormed := by decide
theorem test_refuses_move_candidate_expire : ¬ (Instr.moveCandidateExpire [0] 0).WellFormed := by decide
theorem test_refuses_inj_fetch : ¬ (Instr.injFetch 0 0 [0] [] true true).WellFormed := by decide
theorem test_refuses_flow_read : ¬ (Instr.flowRead cmd [0] 0).WellFormed := by decide
theorem test_refuses_flow_demote : ¬ (Instr.flowDemote cmd [0]).WellFormed := by decide
theorem test_refuses_flow_insert : ¬ (Instr.flowInsert cmd [0]).WellFormed := by decide
theorem test_refuses_flow_delete : ¬ (Instr.flowDelete cmd [0]).WellFormed := by decide
theorem test_refuses_doorbell : ¬ (Instr.doorbell 0 0 0 9 0).WellFormed := by decide
theorem test_refuses_command_accept : ¬ (Instr.commandAccept .mailbox [0] true).WellFormed := by decide
theorem test_refuses_mailbox_write : ¬ (Instr.mailboxWrite [0]).WellFormed := by decide
theorem test_refuses_wake_request : ¬ (Instr.wakeRequest .slice [17] false).WellFormed := by decide
theorem test_refuses_block_ready : ¬ (Instr.blockReady .slice 17).WellFormed := by decide
theorem test_refuses_wake_late : ¬ (Instr.wakeLate .slice 17).WellFormed := by decide
theorem test_refuses_sleep_entry : ¬ (Instr.sleepEntry .slice 17 true).WellFormed := by decide
theorem test_refuses_health_sample : ¬ (Instr.healthSample [0] [] []).WellFormed := by decide
theorem test_refuses_bond_hello : ¬ (Instr.bondHello 0 [0] true).WellFormed := by decide
theorem test_refuses_credit : ¬ (Instr.credit 0 [0] true).WellFormed := by decide
theorem test_refuses_link : ¬ (Instr.link 0 [0] true).WellFormed := by decide
theorem test_refuses_seed : ¬ (Instr.seed 0 [0] true).WellFormed := by decide
theorem test_refuses_deliver : ¬ (Instr.deliver 0 [([0], true)]).WellFormed := by decide
theorem test_refuses_steer : ¬ (Instr.steer 0 []).WellFormed := by decide
theorem test_refuses_record : ¬ (Instr.record 0 [0] true).WellFormed := by decide
theorem test_refuses_record_ack : ¬ (Instr.recordAck 0 [0] true).WellFormed := by decide
theorem test_refuses_relay : ¬ (Instr.relay 0 (List.replicate 273 0) true).WellFormed := by decide +kernel
theorem test_refuses_stack_relay : ¬ (Instr.stackRelay cmd 0 0 0 [0] [] true).WellFormed := by decide
theorem test_refuses_stack_stage : ¬ (Instr.stackStage cmd 0 0 0 0 0 [0] true .clean).WellFormed := by decide
theorem test_refuses_attest_quote : ¬ (Instr.attestQuote cmd [0] 0).WellFormed := by decide
theorem test_refuses_flow_export : ¬ (Instr.flowExport cmd [0]).WellFormed := by decide
theorem test_refuses_boot_ready : ¬ (Instr.bootReady [(5, [])]).WellFormed := by decide
theorem test_refuses_boot_training_done : ¬ (Instr.bootTrainingDone 0 false [0, 0]).WellFormed := by decide

/-! Worked examples of the spec. -/

/-- The origin codes of R9. -/
theorem test_origin_codes :
    (let s := setReg (setReg on .originFleet 0 0xA3) .originStack 0 0x207
     origin s 7 3 2 5 = 0x00A3078E0D50 ∧ origin s 5 0x43 6 0 = 0x00A3078B0F00) := by
  decide

/-- The buckets of the key of chapter 05's example "where a key lives" (R168). -/
theorem test_key_buckets :
    hashBuckets 0x93C45E2107AB6D58 0x1F0E88A24C3B91D7 (2 ^ 24) = (0xAB6D58, 0x60B107, 0x3B91D7) ∧
      bucketPier on 0xAB6D58 = 2 ∧ bucketAddr on 0xAB6D58 = 0x4ADB5600 ∧ bucketPier on 0x60B107 = 1 := by
  decide

/-- The frame of chapter 03's example "a tunnelled connection opening". -/
def opening : Bytes :=
  List.replicate 12 2 ++ [0x08, 0x00] ++
  [0x45, 0, 0, 110, 0, 0, 0, 0, 64, 17, 0x74, 0x7A, 1, 1, 1, 1, 2, 2, 2, 2] ++ [0, 0, 0x12, 0xB5, 0, 90, 0, 0] ++
  [8, 0, 0, 0, 0, 0x4A, 0x21, 0] ++ List.replicate 12 4 ++ [0x08, 0x00] ++
  [0x45, 0, 0, 60, 0, 0, 0, 0, 64, 6, 0x43, 0x20, 10, 8, 3, 17, 198, 51, 100, 80] ++
  [0xC0, 0, 0x01, 0xBB, 0, 0, 0, 0, 0, 0, 0, 0, 0xA0, 2, 0, 0, 0, 0, 0, 0] ++ List.replicate 20 0

/-- Its parse result and flow key (R85, R100, R101). -/
theorem test_tunnelled_opening :
    (let p := parseHead (headOf on 0 opening true)
     p.vni = 0x4A21 ∧ p.innerL2 = 50 ∧ (p.outer.map (·.l4)) = some 34 ∧
     p.inner.map (fun l => keyOf l 0x0311 true) = some ([0, 0, 0, 0, 0, 0, 0, 0, 0, 0, 0xFF, 0xFF, 0x0A, 0x08, 0x03, 0x11,
       0, 0, 0, 0, 0, 0, 0, 0, 0, 0, 0xFF, 0xFF, 0xC6, 0x33, 0x64, 0x50, 0xC0, 0, 1, 0xBB, 6, 0x11, 3, 9])) := by
  decide +kernel

/-- The successors of chapter 04's example "a four-way branch" (R126). -/
theorem test_four_way_branch :
    (let w := 0x340 + 2 * 2 ^ 12 + 2 * 2 ^ 16 + 3 * 2 ^ 22
     nextWord { frm with miss := true } w = 0x340 ∧ nextWord { frm with hit := true, flow := some 0 } w = 0x341 ∧
       nextWord { frm with hit := true, flow := some (2 ^ 25) } w = 0x343) := by
  decide

/-- The insertion of chapter 10's example "a one-step Sync" (R418), in units of 2^-16 ns. -/
theorem test_one_step_sync :
    (let b := insertSync (List.replicate 64 0) none 14 (((1718000000 * 10 ^ 9 + 123456834) * 65536 + 49152 : Nat) : Int)
     cut b 48 10 = [0, 0, 0x66, 0x66, 0x99, 0x80, 0x07, 0x5B, 0xCD, 0x42] ∧
       cut b 22 8 = [0, 0, 0, 0, 0, 0, 0xC0, 0x00]) := by
  decide +kernel

/-- The export record of chapter 17's example "a closed connection" (R621, R622). -/
theorem test_export_record :
    (let now : Nat := 1718000047000000000
     let s := on.withTime { on.time with dom0 := { t := ((now * 2 ^ 32 : Nat) : Int) } }
     let key : Bytes := List.replicate 10 0 ++ [0xFF, 0xFF, 0x0A, 0x08, 0x03, 0x11] ++ List.replicate 10 0 ++
       [0xFF, 0xFF, 0xC6, 0x33, 0x64, 0x50, 0xC0, 0, 1, 0xBB, 6, 0x11, 3, 9]
     let r := paste (paste (paste (key ++ List.replicate 88 0) 106 (le 2 0x0311)) 112 (le 5 1204 ++ le 6 1387552))
       124 (le 4 (coarse s))
     let x := paste (List.replicate 32 0) 16 (le 4 (coarse s - 44822))
     (exportRecord s r x 3).drop 32 = [0xC0, 0, 1, 0xBB, 6, 3, 3, 0x11, 0, 0, 0, 0, 0, 4, 0xB4, 1,
       0, 0, 0, 0, 0, 0x15, 0x2C, 0x20, 0x66, 0x66, 0x99, 0x80, 0x66, 0x66, 0x99, 0xAF]) := by
  decide +kernel

/-- The tracking of a connection's opening and of a reset (R230). -/
theorem test_tracking :
    (trackStep 1 true true true false false).st = 2 ∧ (trackStep 2 false false true false false).st = 3 ∧
      (trackStep 3 true false false false true).st = 8 := by
  decide

/-- The free running cycle count advances when no command waits (log 3). -/
theorem test_idle_ticks : (tick .reset).clk.cc = 1 := by decide +kernel

/-! States that meet the hypotheses of the statements. -/

/-- States that meet hypotheses of `Obligations.StepRunsFront`. -/
theorem test_meets_step_runs_front : (State.reset).pending = [] := rfl

/-- States that meet hypotheses of `Obligations.InvKept`. -/
theorem test_meets_inv_kept :
    let s : State := (on.withPending [.creditReturn]).withPwr { on.pwr with grants := [64], used := 64 }
    s.Inv ∧ ∃ t, step s = .next t :=
  ⟨⟨by decide, by decide, by decide, by decide⟩, _, rfl⟩

/-- States that meet hypotheses of `Obligations.Arithmetic`. -/
theorem test_meets_arithmetic_1 :
    (let en : Fin 128 := 0
     let t : Fin 8 := 0
     let s : State := thr (word 0x00 (ra := 1))
     (Stands s en.val t.val 0x00)) ∧
    (let en : Fin 128 := 0
     let t : Fin 8 := 0
     let s : State := thr (word 0x01 (ra := 1))
     (Stands s en.val t.val 0x01)) ∧
    (let en : Fin 128 := 0
     let t : Fin 8 := 0
     let s : State := thr (word 0x02 (ra := 1))
     (Stands s en.val t.val 0x02)) ∧
    (let en : Fin 128 := 0
     let t : Fin 8 := 0
     let s : State := thr (word 0x03 (ra := 1))
     (Stands s en.val t.val 0x03)) ∧
    (let en : Fin 128 := 0
     let t : Fin 8 := 0
     let s : State := thr (word 0x04 (ra := 1))
     (Stands s en.val t.val 0x04)) ∧
    (let en : Fin 128 := 0
     let t : Fin 8 := 0
     let s : State := thr (word 0x05 (ra := 1))
     (Stands s en.val t.val 0x05)) :=
  ⟨by decide +kernel, by decide +kernel, by decide +kernel, by decide +kernel, by decide +kernel, by decide +kernel⟩

/-- States that meet hypotheses of `Obligations.Arithmetic`. -/
theorem test_meets_arithmetic_2 :
    (let en : Fin 128 := 0
     let t : Fin 8 := 0
     let s : State := thr (word 0x06 (ra := 1))
     (Stands s en.val t.val 0x06)) ∧
    (let en : Fin 128 := 0
     let t : Fin 8 := 0
     let s : State := thr (word 0x07 (ra := 1))
     (Stands s en.val t.val 0x07)) ∧
    (let en : Fin 128 := 0
     let t : Fin 8 := 0
     let s : State := thr (word 0x08 (ra := 1))
     (Stands s en.val t.val 0x08)) ∧
    (let en : Fin 128 := 0
     let t : Fin 8 := 0
     let s : State := thr (word 0x09 (ra := 1))
     (Stands s en.val t.val 0x09)) ∧
    (let en : Fin 128 := 0
     let t : Fin 8 := 0
     let s : State := thr (word 0x0A (ra := 1))
     (Stands s en.val t.val 0x0A)) ∧
    (let en : Fin 128 := 0
     let t : Fin 8 := 0
     let s : State := thr (word 0x0B (ra := 1))
     (Stands s en.val t.val 0x0B)) :=
  ⟨by decide +kernel, by decide +kernel, by decide +kernel, by decide +kernel, by decide +kernel, by decide +kernel⟩

/-- States that meet hypotheses of `Obligations.Arithmetic`. -/
theorem test_meets_arithmetic_3 :
    (let en : Fin 128 := 0
     let t : Fin 8 := 0
     let s : State := thr (word 0x0C (ra := 1))
     (Stands s en.val t.val 0x0C)) ∧
    (let en : Fin 128 := 0
     let t : Fin 8 := 0
     let s : State := thr (word 0x0D (ra := 1))
     (Stands s en.val t.val 0x0D)) ∧
    (let en : Fin 128 := 0
     let t : Fin 8 := 0
     let s : State := thr (word 0x0E (ra := 1))
     (Stands s en.val t.val 0x0E)) ∧
    (let en : Fin 128 := 0
     let t : Fin 8 := 0
     let s : State := thr (word 0x0F (ra := 1))
     (Stands s en.val t.val 0x0F)) :=
  ⟨by decide +kernel, by decide +kernel, by decide +kernel, by decide +kernel⟩

/-- States that meet hypotheses of `Obligations.ImmediatesAndBranches`. -/
theorem test_meets_immediates_and_branches_1 :
    (let en : Fin 128 := 0
     let t : Fin 8 := 0
     let s : State := thr (word 0x10)
     Stands s en.val t.val 0x10) ∧
    (let en : Fin 128 := 0
     let t : Fin 8 := 0
     let s : State := thr (word 0x11)
     Stands s en.val t.val 0x11) ∧
    (let en : Fin 128 := 0
     let t : Fin 8 := 0
     let s : State := thr (word 0x12)
     let x := threadAt s en.val t.val
     let i := before s en.val t.val
     Stands s en.val t.val 0x12 ∧ (regBits x i.ra).toNat + 40 ≤ 0x30000) ∧
    (let en : Fin 128 := 0
     let t : Fin 8 := 0
     let s : State := thr (word 0x12 (ra := 1)) (reg1 0x2FFD9)
     let x := threadAt s en.val t.val
     let i := before s en.val t.val
     Stands s en.val t.val 0x12 ∧ 0x30000 < (regBits x i.ra).toNat + 40) ∧
    (let en : Fin 128 := 0
     let t : Fin 8 := 0
     let s : State := thr (word 0x13)
     Stands s en.val t.val 0x13) ∧
    (let en : Fin 128 := 0
     let t : Fin 8 := 0
     let s : State := thr (word 0x20)
     (Stands s en.val t.val 0x20)) :=
  ⟨by decide +kernel, by decide +kernel, by decide +kernel, by decide +kernel, by decide +kernel, by decide +kernel⟩

/-- States that meet hypotheses of `Obligations.ImmediatesAndBranches`. -/
theorem test_meets_immediates_and_branches_2 :
    (let en : Fin 128 := 0
     let t : Fin 8 := 0
     let s : State := thr (word 0x21)
     (Stands s en.val t.val 0x21)) ∧
    (let en : Fin 128 := 0
     let t : Fin 8 := 0
     let s : State := thr (word 0x22)
     (Stands s en.val t.val 0x22)) ∧
    (let en : Fin 128 := 0
     let t : Fin 8 := 0
     let s : State := thr (word 0x23)
     (Stands s en.val t.val 0x23)) ∧
    (let en : Fin 128 := 0
     let t : Fin 8 := 0
     let s : State := thr (word 0x24)
     (Stands s en.val t.val 0x24)) ∧
    (let en : Fin 128 := 0
     let t : Fin 8 := 0
     let s : State := thr (word 0x25)
     (Stands s en.val t.val 0x25)) ∧
    (let en : Fin 128 := 0
     let t : Fin 8 := 0
     let s : State := thr (word 0x26)
     (Stands s en.val t.val 0x26)) :=
  ⟨by decide +kernel, by decide +kernel, by decide +kernel, by decide +kernel, by decide +kernel, by decide +kernel⟩

/-- States that meet hypotheses of `Obligations.LoadsAndStores`. -/
theorem test_meets_loads_and_stores_1 :
    (let en : Fin 128 := 0
     let t : Fin 8 := 0
     let s : State := thr (word 0x30 (imm := 0x2FFFF))
     let x := threadAt s en.val t.val
     let i := before s en.val t.val
     let d := (regBits x i.ra + (BitVec.ofNat 32 i.imm).signExtend 64).toNat
     (Stands s en.val t.val 0x30 ∧ d + 1 ≤ 0x30000 ∧ d % 1 = 0)) ∧
    (let en : Fin 128 := 0
     let t : Fin 8 := 0
     let s : State := thr (word 0x31 (imm := 0x2FFFE))
     let x := threadAt s en.val t.val
     let i := before s en.val t.val
     let d := (regBits x i.ra + (BitVec.ofNat 32 i.imm).signExtend 64).toNat
     (Stands s en.val t.val 0x31 ∧ d + 2 ≤ 0x30000 ∧ d % 2 = 0)) ∧
    (let en : Fin 128 := 0
     let t : Fin 8 := 0
     let s : State := thr (word 0x32 (imm := 0x2FFFC))
     let x := threadAt s en.val t.val
     let i := before s en.val t.val
     let d := (regBits x i.ra + (BitVec.ofNat 32 i.imm).signExtend 64).toNat
     (Stands s en.val t.val 0x32 ∧ d + 4 ≤ 0x30000 ∧ d % 4 = 0)) ∧
    (let en : Fin 128 := 0
     let t : Fin 8 := 0
     let s : State := thr (word 0x33 (imm := 0x2FFF8))
     let x := threadAt s en.val t.val
     let i := before s en.val t.val
     let d := (regBits x i.ra + (BitVec.ofNat 32 i.imm).signExtend 64).toNat
     (Stands s en.val t.val 0x33 ∧ d + 8 ≤ 0x30000 ∧ d % 8 = 0)) ∧
    (let en : Fin 128 := 0
     let t : Fin 8 := 0
     let s : State := thr (word 0x34 (imm := 0x2FFFF))
     let x := threadAt s en.val t.val
     let i := before s en.val t.val
     let d := (regBits x i.ra + (BitVec.ofNat 32 i.imm).signExtend 64).toNat
     (Stands s en.val t.val 0x34 ∧ d + 1 ≤ 0x30000 ∧ d % 1 = 0)) ∧
    (let en : Fin 128 := 0
     let t : Fin 8 := 0
     let s : State := thr (word 0x35 (imm := 0x2FFFE))
     let x := threadAt s en.val t.val
     let i := before s en.val t.val
     let d := (regBits x i.ra + (BitVec.ofNat 32 i.imm).signExtend 64).toNat
     (Stands s en.val t.val 0x35 ∧ d + 2 ≤ 0x30000 ∧ d % 2 = 0)) :=
  ⟨by decide +kernel, by decide +kernel, by decide +kernel, by decide +kernel, by decide +kernel, by decide +kernel⟩

/-- States that meet hypotheses of `Obligations.LoadsAndStores`. -/
theorem test_meets_loads_and_stores_2 :
    (let en : Fin 128 := 0
     let t : Fin 8 := 0
     let s : State := thr (word 0x36 (imm := 0x2FFFC))
     let x := threadAt s en.val t.val
     let i := before s en.val t.val
     let d := (regBits x i.ra + (BitVec.ofNat 32 i.imm).signExtend 64).toNat
     (Stands s en.val t.val 0x36 ∧ d + 4 ≤ 0x30000 ∧ d % 4 = 0)) ∧
    (let en : Fin 128 := 0
     let t : Fin 8 := 0
     let s : State := thr (word 0x37 (imm := 0x2FFF8))
     let x := threadAt s en.val t.val
     let i := before s en.val t.val
     let d := (regBits x i.ra + (BitVec.ofNat 32 i.imm).signExtend 64).toNat
     (Stands s en.val t.val 0x37 ∧ d + 8 ≤ 0x30000 ∧ d % 8 = 0)) ∧
    (let en : Fin 128 := 0
     let t : Fin 8 := 0
     let s : State := setThread .reset 0 0 { mem := some { rd := 1, value := 5, addr := 0, data := [], load := true } }
     let x := threadAt s en.val t.val
     let m : MemResult := { rd := 1, value := 5, addr := 0, data := [], load := true }
     x.mem = some m ∧ m.load = true ∧ x.pc < 8192) ∧
    (let en : Fin 128 := 0
     let t : Fin 8 := 0
     let s : State := thr (word 0x30 (imm := 0x30000))
     let x := threadAt s en.val t.val
     let i := before s en.val t.val
     let d := (regBits x i.ra + (BitVec.ofNat 32 i.imm).signExtend 64).toNat
     ((Stands s en.val t.val 0x30 ∧ (0x30000 < d + 1 ∨ d % 1 ≠ 0)))) ∧
    (let en : Fin 128 := 0
     let t : Fin 8 := 0
     let s : State := thr (word 0x31 (imm := 1))
     let x := threadAt s en.val t.val
     let i := before s en.val t.val
     let d := (regBits x i.ra + (BitVec.ofNat 32 i.imm).signExtend 64).toNat
     ((Stands s en.val t.val 0x31 ∧ (0x30000 < d + 2 ∨ d % 2 ≠ 0)))) ∧
    (let en : Fin 128 := 0
     let t : Fin 8 := 0
     let s : State := thr (word 0x32 (imm := 1))
     let x := threadAt s en.val t.val
     let i := before s en.val t.val
     let d := (regBits x i.ra + (BitVec.ofNat 32 i.imm).signExtend 64).toNat
     ((Stands s en.val t.val 0x32 ∧ (0x30000 < d + 4 ∨ d % 4 ≠ 0)))) :=
  ⟨by decide +kernel, by decide +kernel, by decide +kernel, by decide +kernel, by decide +kernel, by decide +kernel⟩

/-- States that meet hypotheses of `Obligations.LoadsAndStores`. -/
theorem test_meets_loads_and_stores_3 :
    (let en : Fin 128 := 0
     let t : Fin 8 := 0
     let s : State := thr (word 0x33 (imm := 1))
     let x := threadAt s en.val t.val
     let i := before s en.val t.val
     let d := (regBits x i.ra + (BitVec.ofNat 32 i.imm).signExtend 64).toNat
     ((Stands s en.val t.val 0x33 ∧ (0x30000 < d + 8 ∨ d % 8 ≠ 0)))) ∧
    (let en : Fin 128 := 0
     let t : Fin 8 := 0
     let s : State := thr (word 0x34 (imm := 0x30000))
     let x := threadAt s en.val t.val
     let i := before s en.val t.val
     let d := (regBits x i.ra + (BitVec.ofNat 32 i.imm).signExtend 64).toNat
     ((Stands s en.val t.val 0x34 ∧ (0x30000 < d + 1 ∨ d % 1 ≠ 0)))) ∧
    (let en : Fin 128 := 0
     let t : Fin 8 := 0
     let s : State := thr (word 0x35 (imm := 1))
     let x := threadAt s en.val t.val
     let i := before s en.val t.val
     let d := (regBits x i.ra + (BitVec.ofNat 32 i.imm).signExtend 64).toNat
     ((Stands s en.val t.val 0x35 ∧ (0x30000 < d + 2 ∨ d % 2 ≠ 0)))) ∧
    (let en : Fin 128 := 0
     let t : Fin 8 := 0
     let s : State := thr (word 0x36 (imm := 1))
     let x := threadAt s en.val t.val
     let i := before s en.val t.val
     let d := (regBits x i.ra + (BitVec.ofNat 32 i.imm).signExtend 64).toNat
     ((Stands s en.val t.val 0x36 ∧ (0x30000 < d + 4 ∨ d % 4 ≠ 0)))) ∧
    (let en : Fin 128 := 0
     let t : Fin 8 := 0
     let s : State := thr (word 0x37 (imm := 1))
     let x := threadAt s en.val t.val
     let i := before s en.val t.val
     let d := (regBits x i.ra + (BitVec.ofNat 32 i.imm).signExtend 64).toNat
     ((Stands s en.val t.val 0x37 ∧ (0x30000 < d + 8 ∨ d % 8 ≠ 0)))) :=
  ⟨by decide +kernel, by decide +kernel, by decide +kernel, by decide +kernel, by decide +kernel⟩

/-- States that meet hypotheses of `Obligations.StoreFrame`. -/
theorem test_meets_store_frame :
    (let s : State := thr (word 0x34 (rb := 1) (imm := 0x2FFFF)) (reg1 7)
     Memory.wf (engAt s 0).dmem = true ∧ Stands s 0 0 0x34 ∧ ∃ u, exec (.st8 0 0) s = .next u) ∧
    (let s : State := thr (word 0x35 (rb := 1) (imm := 0x2FFFE)) (reg1 7)
     Memory.wf (engAt s 0).dmem = true ∧ Stands s 0 0 0x35 ∧ ∃ u, exec (.st16 0 0) s = .next u) ∧
    (let s : State := thr (word 0x36 (rb := 1) (imm := 0x2FFFC)) (reg1 7)
     Memory.wf (engAt s 0).dmem = true ∧ Stands s 0 0 0x36 ∧ ∃ u, exec (.st32 0 0) s = .next u) ∧
    (let s : State := thr (word 0x37 (rb := 1) (imm := 0x2FFF8)) (reg1 7)
     Memory.wf (engAt s 0).dmem = true ∧ Stands s 0 0 0x37 ∧ ∃ u, exec (.st64 0 0) s = .next u) :=
  ⟨⟨by decide, by decide, _, rfl⟩, ⟨by decide, by decide, _, rfl⟩, ⟨by decide, by decide, _, rfl⟩, by decide, by decide, _, rfl⟩

/-- States that meet hypotheses of `Obligations.Channels`. -/
theorem test_meets_channels_1 :
    (let en : Fin 128 := 0
     let t : Fin 8 := 0
     let s : State := thr (word 0x40) { staged := List.replicate 15 0 }
     let n := en.val
     let x := threadAt s n t.val
     Stands s n t.val 0x40 ∧ x.staged.length < 16) ∧
    (let en : Fin 128 := 0
     let t : Fin 8 := 0
     let s : State := thr (word 0x40) { staged := List.replicate 16 0 }
     let n := en.val
     let x := threadAt s n t.val
     Stands s n t.val 0x40 ∧ 16 ≤ x.staged.length) ∧
    (let en : Fin 128 := 0
     let t : Fin 8 := 0
     let s : State := thr (word 0x41) { staged := List.replicate 16 0 }
     let n := en.val
     let x := threadAt s n t.val
     Stands s n t.val 0x41 ∧ 16 ≤ x.staged.length) ∧
    (let en : Fin 128 := 0
     let t : Fin 8 := 0
     let s : State := setChan (thr (word 0x41)) 0 0 { words := List.replicate 15 { word := 9, side := 1, visible := true } }
     let n := en.val
     let x := threadAt s n t.val
     let i := before s n t.val
     let s1 := issued s n t.val
     let c := i.imm % 64
     let p := 0
     Stands s n t.val 0x41 ∧ x.staged.length < 16 ∧ chanTarget s1 n i = some p ∧ (chanAt s1 p c).words.length + x.staged.length + 1 ≤ 16) ∧
    (let en : Fin 128 := 0
     let t : Fin 8 := 0
     let s : State := setChan (thr (word 0x41)) 0 0 { words := List.replicate 16 { word := 9, side := 1, visible := true } }
     let n := en.val
     let x := threadAt s n t.val
     let i := before s n t.val
     let s1 := issued s n t.val
     let c := i.imm % 64
     let p := 0
     Stands s n t.val 0x41 ∧ x.staged.length < 16 ∧ chanTarget s1 n i = some p ∧ 16 < (chanAt s1 p c).words.length + x.staged.length + 1) ∧
    (let en : Fin 128 := 0
     let t : Fin 8 := 0
     let s : State := setChan (thr (word 0x42)) 0 0 { words := List.replicate 1 { word := 9, side := 1, visible := true } }
     let n := en.val
     let x := threadAt s n t.val
     let i := before s n t.val
     let s1 := issued s n t.val
     let w := 8 * n + t.val
     let c := i.imm % 64
     let word := regBits x i.rb
     let y := ({ word := 9, side := 1, visible := true } : ChanWord)
     Stands s n t.val 0x42 ∧ chanWord (chanAt s1 (engPhys s1 n) c) w = some y) :=
  ⟨by decide +kernel, by decide +kernel, by decide +kernel, by decide +kernel, by decide +kernel, by decide +kernel⟩

/-- States that meet hypotheses of `Obligations.Channels`. -/
theorem test_meets_channels_2 :
    (let en : Fin 128 := 0
     let t : Fin 8 := 0
     let s : State := thr (word 0x42)
     let n := en.val
     let i := before s n t.val
     let s1 := issued s n t.val
     let w := 8 * n + t.val
     let c := i.imm % 64
     Stands s n t.val 0x42 ∧ chanWord (chanAt s1 (engPhys s1 n) c) w = none) ∧
    (let en : Fin 128 := 0
     let t : Fin 8 := 0
     let s : State := setChan (thr (word 0x43)) 0 0 { words := List.replicate 1 { word := 9, side := 1, visible := true } }
     let n := en.val
     let x := threadAt s n t.val
     let i := before s n t.val
     let s1 := issued s n t.val
     let w := 8 * n + t.val
     let c := i.imm % 64
     let word := regBits x i.rb
     let y := ({ word := 9, side := 1, visible := true } : ChanWord)
     Stands s n t.val 0x43 ∧ chanWord (chanAt s1 (engPhys s1 n) c) w = some y) ∧
    (let en : Fin 128 := 0
     let t : Fin 8 := 0
     let s : State := thr (word 0x43)
     let n := en.val
     let i := before s n t.val
     let s1 := issued s n t.val
     let w := 8 * n + t.val
     let c := i.imm % 64
     Stands s n t.val 0x43 ∧ chanWord (chanAt s1 (engPhys s1 n) c) w = none) ∧
    (let en : Fin 128 := 0
     let t : Fin 8 := 0
     let s : State := thr (word 0x44)
     let n := en.val
     Stands s n t.val 0x44) ∧
    (let s : State := setChan .reset 0 0 { writers := [3] }
     let cl : Fin 17 := 0
     let ch : Fin 64 := 0
     let v : Nat := 3
     nextWriter s cl.val ch.val = some v) ∧
    (let s : State := .reset
     let cl : Fin 17 := 0
     let ch : Fin 64 := 0
     (chanAt s cl.val ch.val).readers = []) :=
  ⟨by decide +kernel, by decide +kernel, by decide +kernel, by decide +kernel, by decide +kernel, by decide +kernel⟩

/-- States that meet hypotheses of `Obligations.Locks`. -/
theorem test_meets_locks_1 :
    (let en : Fin 128 := 0
     let t : Fin 8 := 0
     let s : State := thr (word 0x50) {} (task 1)
     let n := en.val
     let x := threadAt s n t.val
     let i := before s n t.val
     let s1 := issued s n t.val
     let p := engPhys s1 n
     let l := i.imm % 256
     Stands s n t.val 0x50 ∧ (lockAllowed s1 n t.val l = true ∧ x.locks.contains l = false) ∧ x.locks.length < 4 ∧ (lockAt s1 p l).holder = none) ∧
    (let en : Fin 128 := 0
     let t : Fin 8 := 0
     let s : State := thr (word 0x51) {} (task 1)
     let n := en.val
     let x := threadAt s n t.val
     let i := before s n t.val
     let s1 := issued s n t.val
     let p := engPhys s1 n
     let l := i.imm % 256
     Stands s n t.val 0x51 ∧ (lockAllowed s1 n t.val l = true ∧ x.locks.contains l = false) ∧ x.locks.length < 4 ∧ (lockAt s1 p l).holder = none) ∧
    (let en : Fin 128 := 0
     let t : Fin 8 := 0
     let s : State := setLock (thr (word 0x50) {} (task 1)) 0 0 { lockAt .reset 0 0 with holder := some 9 }
     let n := en.val
     let x := threadAt s n t.val
     let i := before s n t.val
     let s1 := issued s n t.val
     let p := engPhys s1 n
     let l := i.imm % 256
     Stands s n t.val 0x50 ∧ (lockAllowed s1 n t.val l = true ∧ x.locks.contains l = false) ∧ x.locks.length < 4 ∧ (lockAt s1 p l).holder ≠ none) ∧
    (let en : Fin 128 := 0
     let t : Fin 8 := 0
     let s : State := setLock (thr (word 0x51) {} (task 1)) 0 0 { lockAt .reset 0 0 with holder := some 9 }
     let n := en.val
     let x := threadAt s n t.val
     let i := before s n t.val
     let s1 := issued s n t.val
     let p := engPhys s1 n
     let l := i.imm % 256
     Stands s n t.val 0x51 ∧ (lockAllowed s1 n t.val l = true ∧ x.locks.contains l = false) ∧ (lockAt s1 p l).holder ≠ none) ∧
    (let en : Fin 128 := 0
     let t : Fin 8 := 0
     let s : State := thr (word 0x50) { locks := [1, 2, 3, 4] } (task 1)
     let n := en.val
     let x := threadAt s n t.val
     let i := before s n t.val
     let s1 := issued s n t.val
     let l := i.imm % 256
     Stands s n t.val 0x50 ∧ (lockAllowed s1 n t.val l = true ∧ x.locks.contains l = false) ∧ 4 ≤ x.locks.length) ∧
    (let en : Fin 128 := 0
     let t : Fin 8 := 0
     let s : State := thr (word 0x51) { locks := [1, 2, 3, 4] } (task 1)
     let n := en.val
     let x := threadAt s n t.val
     let i := before s n t.val
     let s1 := issued s n t.val
     let p := engPhys s1 n
     let l := i.imm % 256
     Stands s n t.val 0x51 ∧ (lockAllowed s1 n t.val l = true ∧ x.locks.contains l = false) ∧ 4 ≤ x.locks.length ∧ (lockAt s1 p l).holder = none) :=
  ⟨by decide +kernel, by decide +kernel, by decide +kernel, by decide +kernel, by decide +kernel, by decide +kernel⟩

/-- States that meet hypotheses of `Obligations.Locks`. -/
theorem test_meets_locks_2 :
    (let en : Fin 128 := 0
     let t : Fin 8 := 0
     let s : State := thr (word 0x50)
     let n := en.val
     let i := before s n t.val
     let s1 := issued s n t.val
     let l := i.imm % 256
     lockAllowed s1 n t.val l = false ∧ Stands s n t.val 0x50) ∧
    (let en : Fin 128 := 0
     let t : Fin 8 := 0
     let s : State := thr (word 0x51)
     let n := en.val
     let i := before s n t.val
     let s1 := issued s n t.val
     let l := i.imm % 256
     lockAllowed s1 n t.val l = false ∧ Stands s n t.val 0x51) ∧
    (let en : Fin 128 := 0
     let t : Fin 8 := 0
     let s : State := thr (word 0x50 (imm := 223)) { locks := [223] } (task 1)
     let n := en.val
     let x := threadAt s n t.val
     let i := before s n t.val
     let s1 := issued s n t.val
     let l := i.imm % 256
     lockAllowed s1 n t.val l = true ∧ x.locks.contains l = true ∧ Stands s n t.val 0x50) ∧
    (let en : Fin 128 := 0
     let t : Fin 8 := 0
     let s : State := thr (word 0x51 (imm := 223)) { locks := [223] } (task 1)
     let n := en.val
     let x := threadAt s n t.val
     let i := before s n t.val
     let s1 := issued s n t.val
     let l := i.imm % 256
     lockAllowed s1 n t.val l = true ∧ x.locks.contains l = true ∧ Stands s n t.val 0x51) ∧
    (let en : Fin 128 := 0
     let t : Fin 8 := 0
     let s : State := thr (word 0x52) { locks := [0] } (task 1)
     let n := en.val
     let x := threadAt s n t.val
     let i := before s n t.val
     let l := i.imm % 256
     Stands s n t.val 0x52 ∧ x.locks.contains l = true) ∧
    (let en : Fin 128 := 0
     let t : Fin 8 := 0
     let s : State := thr (word 0x52)
     let n := en.val
     let x := threadAt s n t.val
     let i := before s n t.val
     let l := i.imm % 256
     Stands s n t.val 0x52 ∧ x.locks.contains l = false) :=
  ⟨by decide +kernel, by decide +kernel, by decide +kernel, by decide +kernel, by decide +kernel, by decide +kernel⟩

/-- States that meet hypotheses of `Obligations.TimersAndStops`. -/
theorem test_meets_timers_and_stops_1 :
    (let en : Fin 128 := 0
     let t : Fin 8 := 0
     let s : State := thr (word 0x72)
     let n := en.val
     Stands s n t.val 0x72) ∧
    (let en : Fin 128 := 0
     let t : Fin 8 := 0
     let s : State := thr (word 0x73)
     let n := en.val
     Stands s n t.val 0x73) ∧
    (let en : Fin 128 := 0
     let t : Fin 8 := 0
     let s : State := setThread .reset 0 0 { timer := some 5, st := .waitTimer }
     let n := en.val
     let x := threadAt s n t.val
     x.timer.isSome = true ∧ x.st = .waitTimer) ∧
    (let en : Fin 128 := 0
     let t : Fin 8 := 0
     let s : State := thr (word 0x74)
     let n := en.val
     let i := before s n t.val
     Stands s n t.val 0x74 ∧ i.imm = 0) ∧
    (let en : Fin 128 := 0
     let t : Fin 8 := 0
     let s : State := thr (word 0x74 (imm := 1))
     let n := en.val
     let i := before s n t.val
     Stands s n t.val 0x74 ∧ i.imm = 1) ∧
    (let en : Fin 128 := 0
     let t : Fin 8 := 0
     let s : State := thr (word 0x74 (imm := 2))
     let n := en.val
     let i := before s n t.val
     Stands s n t.val 0x74 ∧ 2 ≤ i.imm) :=
  ⟨by decide +kernel, by decide +kernel, by decide +kernel, by decide +kernel, by decide +kernel, by decide +kernel⟩

/-- States that meet hypotheses of `Obligations.TimersAndStops`. -/
theorem test_meets_timers_and_stops_2 :
    (let en : Fin 128 := 0
     let t : Fin 8 := 0
     let s : State := thr (word 0x7F)
     let n := en.val
     Stands s n t.val 0x7F) ∧
    (let en : Fin 128 := 0
     let t : Fin 8 := 0
     let s : State := setThread .reset 0 0 { haltReq := true }
     let n := en.val
     let x := threadAt s n t.val
     x.haltReq = true ∧ x.st ≠ .waitMemory ∧ x.st ≠ .halted) ∧
    (let en : Fin 128 := 0
     let t : Fin 8 := 0
     let s : State := thr (word 0x14)
     let n := en.val
     let op := 0x14
     Stands s n t.val op ∧ opKnown op = false) ∧
    (let en : Fin 128 := 0
     let t : Fin 8 := 0
     let s : State := setReg (setThread .reset 0 0 { task := some 0 }) .schedLimitCfg 0 1
     let n := en.val
     let x := threadAt s n t.val
     x.task.isSome = true ∧ x.st ≠ .halted ∧ regField s .schedLimitCfg 0 0 16 ≠ 0) :=
  ⟨by decide +kernel, by decide +kernel, by decide +kernel, by decide +kernel⟩

/-- States that meet hypotheses of `Obligations.TaskOperations`. -/
theorem test_meets_task_operations_1 :
    (let en : Fin 128 := 0
     let t : Fin 8 := 0
     let s : State := thr (word 0x60) {} (task 1)
     let id : Nat := 0
     let y : Task := task 1
     let n := en.val
     let x := threadAt s n t.val
     let i := before s n t.val
     let s1 := issued s n t.val
     let ra := (regBits x i.ra).toNat
     let rb := (regBits x i.rb).toNat
     servedTask s1 n t.val = some (id, y) ∧ Stands s n t.val 0x60 ∧ 1 ≤ taskKind y ∧ taskKind y ≤ 5 ∧ (ra + 40 ≤ 0x30000) ∧ (rb + 128 ≤ 0x30000)) ∧
    (let en : Fin 128 := 0
     let t : Fin 8 := 0
     let s : State := thr (word 0x61) {} (task 1)
     let id : Nat := 0
     let y : Task := task 1
     let n := en.val
     let x := threadAt s n t.val
     let i := before s n t.val
     let s1 := issued s n t.val
     let ra := (regBits x i.ra).toNat
     servedTask s1 n t.val = some (id, y) ∧ Stands s n t.val 0x61 ∧ (taskKind y = 1 ∨ taskKind y = 2 ∨ taskKind y = 5) ∧ (ra + 128 ≤ 0x30000)) ∧
    (let en : Fin 128 := 0
     let t : Fin 8 := 0
     let s : State := hot (thr (word 0x62) {} named)
     let id : Nat := 0
     let y : Task := named
     let n := en.val
     let x := threadAt s n t.val
     let i := before s n t.val
     let s1 := issued s n t.val
     let ra := (regBits x i.ra).toNat
     let k := 0
     servedTask s1 n t.val = some (id, y) ∧ Stands s n t.val 0x62 ∧ (taskKind y = 1 ∨ taskKind y = 2 ∨ taskKind y = 4 ∨ taskKind y = 5) ∧ (ra + 30 ≤ 0x30000) ∧ y.written.bind (writtenPlace s1) = some (.hot k)) ∧
    (let en : Fin 128 := 0
     let t : Fin 8 := 0
     let s : State := cold (thr (word 0x62) {} namedCold)
     let id : Nat := 0
     let y : Task := namedCold
     let n := en.val
     let x := threadAt s n t.val
     let i := before s n t.val
     let s1 := issued s n t.val
     let ra := (regBits x i.ra).toNat
     let k := 0
     servedTask s1 n t.val = some (id, y) ∧ Stands s n t.val 0x62 ∧ (taskKind y = 1 ∨ taskKind y = 2 ∨ taskKind y = 4 ∨ taskKind y = 5) ∧ (ra + 30 ≤ 0x30000) ∧ y.written.bind (writtenPlace s1) = some (.cold k)) ∧
    (let en : Fin 128 := 0
     let t : Fin 8 := 0
     let s : State := thr (word 0x62) {} (task 1)
     let id : Nat := 0
     let y : Task := task 1
     let n := en.val
     let x := threadAt s n t.val
     let i := before s n t.val
     let s1 := issued s n t.val
     let ra := (regBits x i.ra).toNat
     servedTask s1 n t.val = some (id, y) ∧ Stands s n t.val 0x62 ∧ (taskKind y = 1 ∨ taskKind y = 2 ∨ taskKind y = 4 ∨ taskKind y = 5) ∧ (ra + 30 ≤ 0x30000) ∧ y.written.bind (writtenPlace s1) = none) ∧
    (let en : Fin 128 := 0
     let t : Fin 8 := 0
     let s : State := hot (thr (word 0x63) {} (task 1))
     let id : Nat := 0
     let y : Task := task 1
     let n := en.val
     let x := threadAt s n t.val
     let i := before s n t.val
     let s1 := issued s n t.val
     let ra := (regBits x i.ra).toNat
     let k := 0
     servedTask s1 n t.val = some (id, y) ∧ Stands s n t.val 0x63 ∧ (taskKind y = 1 ∨ taskKind y = 4 ∨ taskKind y = 5) ∧ (ra + 40 ≤ 0x30000) ∧ delTarget s1 (dmemBytes s1 n ra 40) = .hot k) :=
  ⟨by decide +kernel, by decide +kernel, by decide +kernel, by decide +kernel, by decide +kernel, by decide +kernel⟩

/-- States that meet hypotheses of `Obligations.TaskOperations`. -/
theorem test_meets_task_operations_2 :
    (let en : Fin 128 := 0
     let t : Fin 8 := 0
     let s : State := cold (thr (word 0x63) {} (task 1))
     let id : Nat := 0
     let y : Task := task 1
     let n := en.val
     let x := threadAt s n t.val
     let i := before s n t.val
     let s1 := issued s n t.val
     let ra := (regBits x i.ra).toNat
     let k := 0
     servedTask s1 n t.val = some (id, y) ∧ Stands s n t.val 0x63 ∧ (taskKind y = 1 ∨ taskKind y = 4 ∨ taskKind y = 5) ∧ (ra + 40 ≤ 0x30000) ∧ delTarget s1 (dmemBytes s1 n ra 40) = .cold k) ∧
    (let en : Fin 128 := 0
     let t : Fin 8 := 0
     let s : State := thr (word 0x63) {} (task 1)
     let id : Nat := 0
     let y : Task := task 1
     let n := en.val
     let x := threadAt s n t.val
     let i := before s n t.val
     let s1 := issued s n t.val
     let ra := (regBits x i.ra).toNat
     servedTask s1 n t.val = some (id, y) ∧ Stands s n t.val 0x63 ∧ (taskKind y = 1 ∨ taskKind y = 4 ∨ taskKind y = 5) ∧ (ra + 40 ≤ 0x30000) ∧ delTarget s1 (dmemBytes s1 n ra 40) = .missing) ∧
    (let en : Fin 128 := 0
     let t : Fin 8 := 0
     let s : State := setIdx (thr (word 0x63) {} (task 1)) 0 (ixMake 0 0 0 0 true)
     let id : Nat := 0
     let y : Task := task 1
     let n := en.val
     let x := threadAt s n t.val
     let i := before s n t.val
     let s1 := issued s n t.val
     let ra := (regBits x i.ra).toNat
     servedTask s1 n t.val = some (id, y) ∧ Stands s n t.val 0x63 ∧ (taskKind y = 1 ∨ taskKind y = 4 ∨ taskKind y = 5) ∧ (ra + 40 ≤ 0x30000) ∧ delTarget s1 (dmemBytes s1 n ra 40) = .busy) ∧
    (let en : Fin 128 := 0
     let t : Fin 8 := 0
     let s : State := (thr (word 0x63) {} (task 1)).withFs { (thr (word 0x63) {} (task 1)).fs with fetches := [{ id := 0, serial := 0, key := [], cold := some 0, slot := some 0 }] }
     let id : Nat := 0
     let y : Task := task 1
     let n := en.val
     let x := threadAt s n t.val
     let i := before s n t.val
     let s1 := issued s n t.val
     let ra := (regBits x i.ra).toNat
     servedTask s1 n t.val = some (id, y) ∧ Stands s n t.val 0x63 ∧ (taskKind y = 1 ∨ taskKind y = 4 ∨ taskKind y = 5) ∧ (ra + 40 ≤ 0x30000) ∧ delTarget s1 (dmemBytes s1 n ra 40) = .promoted) ∧
    (let en : Fin 128 := 0
     let t : Fin 8 := 0
     let s : State := setEnt (thr (word 0x64 (imm := 2)) {} (task 1)) 2 0 0 { st := .valid 0, bytes := [1] }
     let id : Nat := 0
     let y : Task := task 1
     let n := en.val
     let x := threadAt s n t.val
     let i := before s n t.val
     let s1 := issued s n t.val
     let ra := (regBits x i.ra).toNat
     let rb := (regBits x i.rb).toNat
     let b := cut [1] 0 16
     servedTask s1 n t.val = some (id, y) ∧ Stands s n t.val 0x64 ∧ 1 ≤ taskKind y ∧ taskKind y ≤ 5 ∧ (rb + 128 ≤ 0x30000) ∧ (tblKeyLen i = 0 ∨ (ra + (tblKeyLen i) ≤ 0x30000)) ∧ tblEntry s1 n x i = some b) ∧
    (let en : Fin 128 := 0
     let t : Fin 8 := 0
     let s : State := open_ (thr (word 0x65) {} (task 3))
     let id : Nat := 0
     let y : Task := task 3
     let n := en.val
     let x := threadAt s n t.val
     let i := before s n t.val
     let s1 := issued s n t.val
     let ra := (regBits x i.ra).toNat
     let u := (takeCounts s1 0 0).1
     let p := 0
     let b := 0
     servedTask s1 n t.val = some (id, y) ∧ Stands s n t.val 0x65 ∧ taskKind y = 3 ∧ (ra + 16 ≤ 0x30000) ∧ (foldOf s1 (foldName y).1 (foldName y).2).isSome = true ∧ takeCounts s1 (foldName y).1 (foldName y).2 = (u, p, b)) :=
  ⟨by decide +kernel, by decide +kernel, by decide +kernel, by decide +kernel, by decide +kernel, by decide +kernel⟩

/-- States that meet hypotheses of `Obligations.TaskOperations`. -/
theorem test_meets_task_operations_3 :
    (let en : Fin 128 := 0
     let t : Fin 8 := 0
     let s : State := open_ (thr (word 0x66) {} (task 3))
     let id : Nat := 0
     let y : Task := task 3
     let n := en.val
     let x := threadAt s n t.val
     let i := before s n t.val
     let s1 := issued s n t.val
     let ra := (regBits x i.ra).toNat
     servedTask s1 n t.val = some (id, y) ∧ Stands s n t.val 0x66 ∧ taskKind y = 3 ∧ (ra + 16 ≤ 0x30000) ∧ (foldOf s1 (foldName y).1 (foldName y).2).isSome = true) ∧
    (let en : Fin 128 := 0
     let t : Fin 8 := 0
     let s : State := thr (word 0x67) {} (task 1)
     let id : Nat := 0
     let y : Task := task 1
     let n := en.val
     let x := threadAt s n t.val
     let i := before s n t.val
     let s1 := issued s n t.val
     let rb := (regBits x i.rb).toNat
     servedTask s1 n t.val = some (id, y) ∧ Stands s n t.val 0x67 ∧ 1 ≤ taskKind y ∧ taskKind y ≤ 5 ∧ (rb + (memReadLen i) ≤ 0x30000)) ∧
    (let en : Fin 128 := 0
     let t : Fin 8 := 0
     let s : State := setThread (thr (word 0x67)) 0 0 { threadAt (thr (word 0x67)) 0 0 with mem := some { rd := 1, value := 5, addr := 0, data := [], load := false } }
     let id : Nat := 0
     let y : Task := task 5
     let n := en.val
     let x := threadAt s n t.val
     let s1 := issued s n t.val
     let m : MemResult := { rd := 1, value := 5, addr := 0, data := [], load := false }
     servedTask s1 n t.val = some (id, y) ∧ x.mem = some m ∧ m.load = false ∧ m.ddr = none) ∧
    (let en : Fin 128 := 0
     let t : Fin 8 := 0
     let s : State := setThread (thr (word 0x67)) 0 0 { threadAt (thr (word 0x67)) 0 0 with mem := some { rd := 1, value := 5, addr := 0, data := [], load := false, ddr := some (0, 64) } }
     let id : Nat := 0
     let y : Task := task 5
     let n := en.val
     let x := threadAt s n t.val
     let s1 := issued s n t.val
     let m : MemResult := { rd := 1, value := 5, addr := 0, data := [], load := false, ddr := some (0, 64) }
     let a : Nat := 0
     let len : Nat := 64
     servedTask s1 n t.val = some (id, y) ∧ x.mem = some m ∧ m.load = false ∧ m.ddr = some (a, len)) ∧
    (let en : Fin 128 := 0
     let t : Fin 8 := 0
     let s : State := thr (word 0x70 (rb := 1)) (reg1 60) (task 1)
     let id : Nat := 0
     let y : Task := task 1
     let n := en.val
     let x := threadAt s n t.val
     let i := before s n t.val
     let s1 := issued s n t.val
     let ra := (regBits x i.ra).toNat
     let rb := (regBits x i.rb).toNat
     servedTask s1 n t.val = some (id, y) ∧ Stands s n t.val 0x70 ∧ 60 ≤ rb ∧ rb ≤ 2044 ∧ (ra + rb ≤ 0x30000)) ∧
    (let en : Fin 128 := 0
     let t : Fin 8 := 0
     let s : State := thr (word 0x7E) {} (task 1)
     let id : Nat := 0
     let y : Task := task 1
     let n := en.val
     let s1 := issued s n t.val
     servedTask s1 n t.val = some (id, y) ∧ Stands s n t.val 0x7E) :=
  ⟨by decide +kernel, by decide +kernel, by decide +kernel, by decide +kernel, by decide +kernel, by decide +kernel⟩

/-- States that meet hypotheses of `Obligations.TaskOperations`. -/
theorem test_meets_task_operations_4 :
    (let en : Fin 128 := 0
     let t : Fin 8 := 0
     let s : State := thr (word 0x61) {} (task 3)
     let id : Nat := 0
     let y : Task := task 3
     let n := en.val
     let s1 := issued s n t.val
     servedTask s1 n t.val = some (id, y) ∧ Stands s n t.val 0x61 ∧ (taskKind y = 3 ∨ taskKind y = 4)) ∧
    (let en : Fin 128 := 0
     let t : Fin 8 := 0
     let s : State := thr (word 0x62) {} (task 3)
     let id : Nat := 0
     let y : Task := task 3
     let n := en.val
     let s1 := issued s n t.val
     servedTask s1 n t.val = some (id, y) ∧ Stands s n t.val 0x62 ∧ taskKind y = 3) ∧
    (let en : Fin 128 := 0
     let t : Fin 8 := 0
     let s : State := thr (word 0x63) {} (task 2)
     let id : Nat := 0
     let y : Task := task 2
     let n := en.val
     let s1 := issued s n t.val
     servedTask s1 n t.val = some (id, y) ∧ Stands s n t.val 0x63 ∧ (taskKind y = 2 ∨ taskKind y = 3)) ∧
    (let en : Fin 128 := 0
     let t : Fin 8 := 0
     let s : State := thr (word 0x65) {} (task 1)
     let id : Nat := 0
     let y : Task := task 1
     let n := en.val
     let s1 := issued s n t.val
     servedTask s1 n t.val = some (id, y) ∧ Stands s n t.val 0x65 ∧ taskKind y ≠ 3) ∧
    (let en : Fin 128 := 0
     let t : Fin 8 := 0
     let s : State := thr (word 0x66) {} (task 1)
     let id : Nat := 0
     let y : Task := task 1
     let n := en.val
     let s1 := issued s n t.val
     servedTask s1 n t.val = some (id, y) ∧ Stands s n t.val 0x66 ∧ taskKind y ≠ 3) ∧
    (let en : Fin 128 := 0
     let t : Fin 8 := 0
     let s : State := thr (word 0x60 (ra := 1)) (reg1 0x2FFD9) (task 1)
     let id : Nat := 0
     let y : Task := task 1
     let n := en.val
     let x := threadAt s n t.val
     let i := before s n t.val
     let s1 := issued s n t.val
     let ra := (regBits x i.ra).toNat
     let rb := (regBits x i.rb).toNat
     servedTask s1 n t.val = some (id, y) ∧ 1 ≤ taskKind y ∧ taskKind y ≤ 5 ∧ Stands s n t.val 0x60 ∧ (0x30000 < ra + 40 ∨ 0x30000 < rb + 128)) :=
  ⟨by decide +kernel, by decide +kernel, by decide +kernel, by decide +kernel, by decide +kernel, by decide +kernel⟩

/-- States that meet hypotheses of `Obligations.TaskOperations`. -/
theorem test_meets_task_operations_5 :
    (let en : Fin 128 := 0
     let t : Fin 8 := 0
     let s : State := thr (word 0x64 (rb := 1)) (reg1 0x2FF81) (task 1)
     let id : Nat := 0
     let y : Task := task 1
     let n := en.val
     let x := threadAt s n t.val
     let i := before s n t.val
     let s1 := issued s n t.val
     let rb := (regBits x i.rb).toNat
     servedTask s1 n t.val = some (id, y) ∧ 1 ≤ taskKind y ∧ taskKind y ≤ 5 ∧ Stands s n t.val 0x64 ∧ 0x30000 < rb + 128) ∧
    (let en : Fin 128 := 0
     let t : Fin 8 := 0
     let s : State := thr (word 0x67 (rb := 1) (imm := 64)) (reg1 0x2FFFE) (task 1)
     let id : Nat := 0
     let y : Task := task 1
     let n := en.val
     let x := threadAt s n t.val
     let i := before s n t.val
     let s1 := issued s n t.val
     let rb := (regBits x i.rb).toNat
     servedTask s1 n t.val = some (id, y) ∧ 1 ≤ taskKind y ∧ taskKind y ≤ 5 ∧ Stands s n t.val 0x67 ∧ 0x30000 < rb + memReadLen i) ∧
    (let en : Fin 128 := 0
     let t : Fin 8 := 0
     let s : State := thr (word 0x70 (rb := 1)) (reg1 59) (task 1)
     let id : Nat := 0
     let y : Task := task 1
     let n := en.val
     let x := threadAt s n t.val
     let i := before s n t.val
     let s1 := issued s n t.val
     let rb := (regBits x i.rb).toNat
     servedTask s1 n t.val = some (id, y) ∧ Stands s n t.val 0x70 ∧ (rb < 60 ∨ 2044 < rb)) ∧
    (let en : Fin 128 := 0
     let t : Fin 8 := 0
     let s : State := thr (word 0x70 (ra := 2) (rb := 1)) { regs := [(1, 60), (2, 0x2FFC5)] } (task 1)
     let id : Nat := 0
     let y : Task := task 1
     let n := en.val
     let x := threadAt s n t.val
     let i := before s n t.val
     let s1 := issued s n t.val
     let ra := (regBits x i.ra).toNat
     let rb := (regBits x i.rb).toNat
     servedTask s1 n t.val = some (id, y) ∧ Stands s n t.val 0x70 ∧ 60 ≤ rb ∧ rb ≤ 2044 ∧ 0x30000 < ra + rb) :=
  ⟨by decide +kernel, by decide +kernel, by decide +kernel, by decide +kernel⟩

/-- States that meet hypotheses of `Obligations.Tasks`. -/
theorem test_meets_tasks_1 :
    (let s : State := setSlice (setTask .reset 0 (some (task 5))) 0 { setupQ := [0] }
     let p : Nat := 0
     let n : SliceNo := 0
     let c : Fin 16 := 0
     let id : Nat := 0
     let t : Task := task 5
     let s1 := checkAdmission (setSlice s n.val
               { sliceAt s n.val with setupQ := (sliceAt s n.val).setupQ.filter (· != id) }) n.val
     clusterPhys s c.val = some p ∧ (sliceAt s n.val).setupQ.find? (fun id => match taskAt s id with | some t => t.cluster == c.val | none => false) = some id ∧ taskAt s id = some t ∧ storeRoom s p (taskKind t) = true ∧ arriveEnd s1 t = none) ∧
    (let s : State := open_ .reset
     let p : Nat := 0
     let slot : Nat := 0
     let f : Fold := fold
     clusterPhys s (slot % 16) = some p ∧ s.fs.folds.find? (fun f => f.slot == slot && f.task.isNone) = some f ∧ storeRoom s p 3 = true) ∧
    (let s : State := setQueue (setFrame .reset 0 (some frm)) (internalQ 0) { copies := [copy0] }
     let p : Nat := 0
     let q : Fin 16 := 0
     let c : Copy := copy0
     let cs : List Copy := []
     let f : Frame := frm
     clusterPhys s q.val = some p ∧ (queueAt s (internalQ q.val)).copies = c :: cs ∧ frameAt s c.fid = some f ∧ f.whole = true ∧ shaperOpen s (internalQ q.val) = true ∧ storeRoom s p 4 = true) ∧
    (let s : State := run 0x0700
     let p : Nat := 0
     let aseq : BitVec 32 := 1
     let a : Accepted := acc 0x0700
     clusterPhys s 0 = some p ∧ s.host.accepted.find? (fun a => a.aseq == aseq.toNat && !a.started) = some a ∧ mustWait s a = false ∧ storeRoom s p 5 = true) ∧
    (let s : State := setTask .reset 0 (some t0)
     let task : Nat := 0
     let k : Fin 4 := 0
     let t : Task := t0
     let b : Bytes := (operandBytes s t 0).1
     let u : State := (operandBytes s t 0).2
     taskAt s task = some t ∧ t.missing.contains k.val = true ∧ operandDdr s t k.val = none ∧ operandBytes s t k.val = (b, u)) ∧
    (let s : State := stored (task 5) (eight {})
     let c : Fin 16 := 0
     let p : Nat := 0
     let id : Nat := 0
     let n : Nat := 0
     let t : Nat := 0
     let x : Task := task 5
     clusterPhys s c.val = some p ∧ nextTask s c.val p = some id ∧ chooseThread s c.val = some (n, t) ∧ taskAt s id = some x) :=
  ⟨by decide +kernel, by decide +kernel, by decide +kernel, by decide +kernel, by decide +kernel, by decide +kernel⟩

/-- States that meet hypotheses of `Obligations.Tasks`. -/
theorem test_meets_tasks_2 :
    (let s : State := setTask ((upFrom 1 7).foldl (fun s n => setReg s .engineMap n 0) (stored (task 1) (eight { st := .ready, task := some 1 }))) 1 (some (task 5))
     let en : Fin 128 := 0
     let t : Fin 8 := 0
     let p : Nat := 0
     let id : Nat := 1
     let x : Task := task 5
     clusterPhys s (en.val / 8) = some p ∧ (threadAt s en.val t.val).task = some id ∧ taskAt s id = some x ∧ mayPreempt s (en.val / 8) p en.val t.val x = true) ∧
    (let s : State := stored (task 5)
     let c : Fin 16 := 0
     let p : Nat := 0
     let id : Nat := 0
     let q : Nat := 0
     clusterPhys s c.val = some p ∧ nextTask s c.val p = some id ∧ chooseThread s c.val = none ∧ ((clusterEngines c.val).filterMap (physOf s)).find? (fun q => (blkAt s .engine q).st == .clockGated || (blkAt s .engine q).st == .powerGated) = some q) :=
  ⟨by decide +kernel, by decide +kernel⟩

/-- States that meet hypotheses of `Obligations.EngineEvents`. -/
theorem test_meets_engine_events_1 :
    (let s : State := setTask (eight { st := .waitLock 0, task := some 0 }) 0 (some (task 5))
     let en : Fin 128 := 0
     let p : Nat := 0
     let n := en.val
     physOf s en.val = some p ∧ engineStuck s n = true ∧ clusterHalted s (n / 8) = false) ∧
    (let s : State := .reset
     let en : Fin 128 := 0
     let p : Nat := 0
     physOf s en.val = some p) ∧
    (let s : State := setEng .reset 0 { spare := some 128 }
     let en : Fin 128 := 0
     let p : Nat := 0
     let n := en.val
     let q := 128
     physOf s en.val = some p ∧ (engAt s n).spare = some q) ∧
    (let s : State := setPhys .reset 128 .selfTest
     let en : Fin 128 := 0
     let p : Nat := 0
     let phys : Fin 136 := 128
     physOf s en.val = some p ∧ physAt s phys.val = .selfTest) ∧
    (let s : State := .reset
     let en : Fin 128 := 0
     let p : Nat := 0
     let cl : Fin 16 := 0
     let q : Nat := 0
     physOf s en.val = some p ∧ clusterPhys s cl.val = some q) ∧
    (let s : State := setEng .reset 0 { draining := some 1 }
     let en : Fin 128 := 0
     let p : Nat := 0
     let n := en.val
     let a := 1
     physOf s en.val = some p ∧ (engAt s n).draining = some a ∧ allIdle s n = true) :=
  ⟨by decide +kernel, by decide +kernel, by decide +kernel, by decide +kernel, by decide +kernel, by decide +kernel⟩

/-- States that meet hypotheses of `Obligations.EngineCommands`. -/
theorem test_meets_engine_commands_1 :
    (let c : Cmd := cmd
     let s : State := run 0x0801 (setEng .reset 0 { image := some 0 })
     let a : Accepted := acc 0x0801
     let en : BitVec 16 := 0
     let t : BitVec 8 := 0
     let s0 := begun c s a
     let n := en.toNat
     let k := t.toNat
     let e := engAt s0 n
     n < 128 ∧ k < 8 ∧ (physOf s0 n).isSome = true ∧ CmdRuns c 0x0801 s a ∧ engDrained e = false ∧ e.draining = none ∧ allIdle s0 n = true) ∧
    (let c : Cmd := cmd
     let s : State := run 0x0801 (setThread (setEng .reset 0 { image := some 0 }) 0 0 { st := .ready })
     let a : Accepted := acc 0x0801
     let en : BitVec 16 := 0
     let t : BitVec 8 := 0
     let s0 := begun c s a
     let n := en.toNat
     let k := t.toNat
     let e := engAt s0 n
     n < 128 ∧ k < 8 ∧ (physOf s0 n).isSome = true ∧ CmdRuns c 0x0801 s a ∧ engDrained e = false ∧ e.draining = none ∧ allIdle s0 n = false) ∧
    (let c : Cmd := cmd
     let s : State := run 0x0803 (setEng .reset 0 { image := some 0, drained := true })
     let a : Accepted := acc 0x0803
     let en : BitVec 16 := 0
     let t : BitVec 8 := 0
     let s0 := begun c s a
     let n := en.toNat
     let k := t.toNat
     let e := engAt s0 n
     n < 128 ∧ k < 8 ∧ (physOf s0 n).isSome = true ∧ CmdRuns c 0x0803 s a ∧ e.drained = true ∧ e.image.isSome = true) ∧
    (let c : Cmd := cmd
     let s : State := run 0x0804
     let a : Accepted := acc 0x0804
     let en : BitVec 16 := 0
     let t : BitVec 8 := 0
     let s0 := begun c s a
     let n := en.toNat
     let k := t.toNat
     n < 128 ∧ k < 8 ∧ (physOf s0 n).isSome = true ∧ CmdRuns c 0x0804 s a) ∧
    (let c : Cmd := cmd
     let s : State := run 0x0805
     let a : Accepted := acc 0x0805
     let en : BitVec 16 := 0
     let t : BitVec 8 := 0
     let s0 := begun c s a
     let n := en.toNat
     let k := t.toNat
     let cl : BitVec 8 := 0
     n < 128 ∧ k < 8 ∧ (physOf s0 n).isSome = true ∧ CmdRuns c 0x0805 s a ∧ cl.toNat < 16) ∧
    (let c : Cmd := cmd
     let s : State := run 0x0806
     let a : Accepted := acc 0x0806
     let en : BitVec 16 := 0
     let t : BitVec 8 := 0
     let s0 := begun c s a
     let n := en.toNat
     let k := t.toNat
     n < 128 ∧ k < 8 ∧ (physOf s0 n).isSome = true ∧ CmdRuns c 0x0806 s a) :=
  ⟨by decide +kernel, by decide +kernel, by decide +kernel, by decide +kernel, by decide +kernel, by decide +kernel⟩

/-- States that meet hypotheses of `Obligations.EngineCommands`. -/
theorem test_meets_engine_commands_2 :
    (let c : Cmd := cmd
     let s : State := run 0x0807 (setThread .reset 0 0 { st := .halted })
     let a : Accepted := acc 0x0807
     let en : BitVec 16 := 0
     let t : BitVec 8 := 0
     let s0 := begun c s a
     let n := en.toNat
     let k := t.toNat
     let x := threadAt s0 n k
     n < 128 ∧ k < 8 ∧ (physOf s0 n).isSome = true ∧ CmdRuns c 0x0807 s a ∧ x.st = .halted ∧ x.resume = .ready) ∧
    (let c : Cmd := cmd
     let s : State := run 0x0808 (setThread .reset 0 0 { st := .halted })
     let a : Accepted := acc 0x0808
     let en : BitVec 16 := 0
     let t : BitVec 8 := 0
     let s0 := begun c s a
     let n := en.toNat
     let k := t.toNat
     let x := threadAt s0 n k
     let mask : BitVec 8 := 1
     n < 128 ∧ k < 8 ∧ (physOf s0 n).isSome = true ∧ CmdRuns c 0x0808 s a ∧ bit mask.toNat k = true ∧ x.st = .halted) ∧
    (let c : Cmd := cmd
     let s : State := run 0x0809
     let a : Accepted := acc 0x0809
     let en : BitVec 16 := 0
     let t : BitVec 8 := 0
     let s0 := begun c s a
     let n := en.toNat
     let k := t.toNat
     let x := threadAt s0 n k
     let kind : BitVec 8 := 1
     let start : BitVec 32 := 0
     let len : BitVec 32 := 0
     n < 128 ∧ k < 8 ∧ (physOf s0 n).isSome = true ∧ CmdRuns c 0x0809 s a ∧ c.src ≠ .relay ∧ kind = 1 ∧ start.toNat + len.toNat ≤ 0x30000 ∧ len.toNat + 8 * x.staged.length + 2 ≤ 4096) ∧
    (let c : Cmd := cmd
     let s : State := run 0x0809
     let a : Accepted := acc 0x0809
     let en : BitVec 16 := 0
     let t : BitVec 8 := 0
     let s0 := begun c s a
     let n := en.toNat
     let k := t.toNat
     let x := threadAt s0 n k
     let kind : BitVec 8 := 0
     let start : BitVec 32 := 0
     let len : BitVec 32 := 0
     n < 128 ∧ k < 8 ∧ (physOf s0 n).isSome = true ∧ CmdRuns c 0x0809 s a ∧ c.src ≠ .relay ∧ kind = 0 ∧ start.toNat + len.toNat ≤ 32 ∧ 8 * len.toNat + 8 * x.staged.length + 2 ≤ 4096) ∧
    (let c : Cmd := cmd
     let s : State := run 0x080A (setThread .reset 0 0 { st := .halted })
     let a : Accepted := acc 0x080A
     let en : BitVec 16 := 0
     let t : BitVec 8 := 0
     let s0 := begun c s a
     let n := en.toNat
     let k := t.toNat
     let x := threadAt s0 n k
     let start : BitVec 32 := 0
     let data : Bytes := []
     n < 128 ∧ k < 8 ∧ (physOf s0 n).isSome = true ∧ CmdRuns c 0x080A s a ∧ x.st = .halted ∧ start.toNat + data.length ≤ 0x30000) ∧
    (let c : Cmd := cmd
     let s : State := run 0x080A (setThread .reset 0 0 { st := .halted })
     let a : Accepted := acc 0x080A
     let en : BitVec 16 := 0
     let t : BitVec 8 := 0
     let s0 := begun c s a
     let n := en.toNat
     let k := t.toNat
     let x := threadAt s0 n k
     let start : BitVec 32 := 0
     let data : Bytes := []
     n < 128 ∧ k < 8 ∧ (physOf s0 n).isSome = true ∧ CmdRuns c 0x080A s a ∧ x.st = .halted ∧ start.toNat + data.length / 8 ≤ 32) :=
  ⟨by decide +kernel, by decide +kernel, by decide +kernel, by decide +kernel, by decide +kernel, by decide +kernel⟩

/-- States that meet hypotheses of `Obligations.EngineCommands`. -/
theorem test_meets_engine_commands_3 :
    (let c : Cmd := cmd
     let s : State := run 0x080B (setLock (setThread .reset 0 0 { st := .halted }) 0 0 { holder := some 0 })
     let a : Accepted := acc 0x080B
     let en : BitVec 16 := 0
     let t : BitVec 8 := 0
     let s0 := begun c s a
     let n := en.toNat
     let k := t.toNat
     let cl : BitVec 8 := 0
     let lock : BitVec 8 := 0
     let p : Nat := 0
     let w : Nat := 0
     n < 128 ∧ k < 8 ∧ (physOf s0 n).isSome = true ∧ CmdRuns c 0x080B s a ∧ cl.toNat < 16 ∧ clusterPhys s0 cl.toNat = some p ∧ (lockAt s0 p lock.toNat).holder = some w ∧ (wThread s0 w).st = .halted) ∧
    (let c : Cmd := cmd
     let s : State := run 0x080C (setThread .reset 0 0 { st := .halted, task := some 0 })
     let a : Accepted := acc 0x080C
     let en : BitVec 16 := 0
     let t : BitVec 8 := 0
     let s0 := begun c s a
     let n := en.toNat
     let k := t.toNat
     let x := threadAt s0 n k
     n < 128 ∧ k < 8 ∧ (physOf s0 n).isSome = true ∧ CmdRuns c 0x080C s a ∧ x.st = .halted ∧ x.task.isSome = true) :=
  ⟨by decide +kernel, by decide +kernel⟩

/-- States that meet hypotheses of `Obligations.RegisterWrites`. -/
theorem test_meets_register_writes_1 :
    (let s : State := owned
     let m : Master := 0
     let off : BitVec 26 := at_ .engThreadCfg
     let r : Reg := .engThreadCfg
     let i : Nat := 0
     let u := seen s m off.toNat
     s.boot.phase = .ready ∧ masterPresent s m.val = true ∧ regAt off.toNat = some (r, i) ∧ (r.written ≠ 0 ∧ r ∉ [.ringCfg, .ringBase, .ringWb, .ownBid, .ownNonce, .ownCtrl, .dmaChCfg, .bootPushCtrl, .hashKey, .imgSvnFloor]) ∧ r.size = 4 ∧ off.toNat % 4 = 0 ∧ writeRefused u m.val r i = none) ∧
    (let s : State := owned
     let m : Master := 0
     let off : BitVec 26 := at_ .dmaChChain
     let r : Reg := .dmaChChain
     let i : Nat := 0
     let w := setHeld (seen s m off.toNat) m.val none
     s.boot.phase = .ready ∧ masterPresent s m.val = true ∧ regAt off.toNat = some (r, i) ∧ (r.written ≠ 0 ∧ r ∉ [.ringCfg, .ringBase, .ringWb, .ownBid, .ownNonce, .ownCtrl, .dmaChCfg, .bootPushCtrl, .hashKey, .imgSvnFloor]) ∧ r.size = 8 ∧ off.toNat % 8 = 0 ∧ writeRefused w m.val r i = none) ∧
    (let s : State := on
     let m : Master := 0
     let off : BitVec 26 := at_ .engThreadCfg
     let r : Reg := .engThreadCfg
     let i : Nat := 0
     s.boot.phase = .ready ∧ masterPresent s m.val = true ∧ regAt off.toNat = some (r, i) ∧ (r.written ≠ 0 ∧ r ∉ [.ringCfg, .ringBase, .ringWb, .ownBid, .ownNonce, .ownCtrl, .dmaChCfg, .bootPushCtrl, .hashKey, .imgSvnFloor]) ∧ r.size = 4 ∧ off.toNat % 4 = 0 ∧ r.ownerOnly = true ∧ s.own.owner ≠ some m.val ∧ r ∉ [.bootPushAddr, .bootPushLen, .bootCertAddr]) ∧
    (let s : State := owned
     let m : Master := 0
     let off : BitVec 26 := at_ .dmaChChain
     let r : Reg := .dmaChChain
     let i : Nat := 0
     let u := seen s m off.toNat
     s.boot.phase = .ready ∧ masterPresent s m.val = true ∧ regAt off.toNat = some (r, i) ∧ r.size = 8 ∧ off.toNat = Reg.off r i ∧ off.toNat % 4 = 0 ∧ writeRefused u m.val r i = none) ∧
    (let s : State := owned
     let m : Master := 0
     s.boot.phase = .ready ∧ masterPresent s m.val = true ∧ s.own.owner = some m.val) ∧
    (let s : State := on
     let m : Master := 0
     s.boot.phase = .ready ∧ masterPresent s m.val = true ∧ s.own.owner ≠ some m.val) :=
  ⟨by decide +kernel, by decide +kernel, by decide +kernel, by decide +kernel, by decide +kernel, by decide +kernel⟩

/-- States that meet hypotheses of `Obligations.WrittenFieldsOnly`. -/
theorem test_meets_written_fields_only_1 :
    (let k : Nat := 0
     k < 64) :=
  by decide +kernel

/-- States that meet hypotheses of `Obligations.DmaRegistersLocked`. -/
theorem test_meets_dma_registers_locked_1 :
    (let s : State := setReg owned .dmaChCfg 31 1
     let m : Master := 0
     let r : Reg := .dmaChWb
     let ch : Nat := 31
     let off : BitVec 26 := at_ .dmaChWb 31
     m.val < 2 ∧ s.boot.phase = .ready ∧ hostPresent s m.val = true ∧ s.own.owner = some m.val ∧ (r = .dmaChChain ∨ r = .dmaChWb) ∧ regAt off.toNat = some (r, ch) ∧ dmaEnabled s ch = true ∧ off.toNat % 8 = 0) ∧
    (let s : State := setReg owned .dmaChCfg 31 1
     let m : Master := 0
     let r : Reg := .dmaChWb
     let ch : Nat := 31
     let off : BitVec 26 := at_ .dmaChWb 31
     m.val < 2 ∧ s.boot.phase = .ready ∧ hostPresent s m.val = true ∧ s.own.owner = some m.val ∧ (r = .dmaChChain ∨ r = .dmaChWb) ∧ regAt off.toNat = some (r, ch) ∧ dmaEnabled s ch = true ∧ off.toNat % 4 = 0) :=
  ⟨by decide +kernel, by decide +kernel⟩

/-- States that meet hypotheses of `Obligations.RingEvents`. -/
theorem test_meets_ring_events_1 :
    (let s : State := ring0
     let host : HostNo := 0
     let page : Fin 184 := 0
     let h := host.val
     let p := page.val
     let r := ringAt s h p
     let v : BitVec 32 := 64
     hostPresent s host.val = true ∧ r.st = .running ∧ ringChain s h p = false ∧ doorbellValid s h p v.toNat = true) ∧
    (let s : State := ring0
     let host : HostNo := 0
     let page : Fin 184 := 0
     let h := host.val
     let p := page.val
     let r := ringAt s h p
     let v : BitVec 32 := 65
     hostPresent s host.val = true ∧ r.st = .running ∧ ringChain s h p = false ∧ doorbellValid s h p v.toNat = false) ∧
    (let s : State := ring0 0 {} (chain0 on)
     let host : HostNo := 0
     let page : Fin 184 := 0
     let h := host.val
     let p := page.val
     let r := ringAt s h p
     hostPresent s host.val = true ∧ r.st = .running ∧ ringChain s h p = true) ∧
    (let s : State := on
     let host : HostNo := 0
     let page : Fin 184 := 0
     let h := host.val
     let p := page.val
     let r := ringAt s h p
     hostPresent s host.val = true ∧ r.st ≠ .running) ∧
    (let s : State := on
     let host : HostNo := 0
     let off : BitVec 12 := 0
     let size : Nat := 0
     hostPresent s host.val = true ∧ (off ≠ 0 ∨ size ≠ 4)) ∧
    (let s : State := on
     let host : HostNo := 0
     let page : Fin 184 := 180
     let h := host.val
     let p := page.val
     let m : Master := ⟨h, by have := host.isLt; omega⟩
     let u := seen s m (Reg.off .ringCfg (ringNo h p))
     hostPresent s host.val = true ∧ s.boot.phase = .ready ∧ ringEnabled u h p = false) :=
  ⟨by decide +kernel, by decide +kernel, by decide +kernel, by decide +kernel, by decide +kernel, by decide +kernel⟩

/-- States that meet hypotheses of `Obligations.RingEvents`. -/
theorem test_meets_ring_events_2 :
    (let s : State := setReg on .ringCfg 0 0x10
     let host : HostNo := 0
     let page : Fin 184 := 0
     let h := host.val
     let p := page.val
     let m : Master := ⟨h, by have := host.isLt; omega⟩
     let u := seen s m (Reg.off .ringCfg (ringNo h p))
     hostPresent s host.val = true ∧ s.boot.phase = .ready ∧ ringEnabled u h p = true) ∧
    (let s : State := setReg (ring0 64 { unsignalled := 1 }) .ringCfg 64 0x10000000
     let host : HostNo := 0
     let page : Fin 184 := 64
     let h := host.val
     let p := page.val
     let r := ringAt s h p
     hostPresent s host.val = true ∧ r.unsignalled ≠ 0 ∧ bits (regVal s .ringCfg (ringNo h p)) 28 4 ≠ 0) ∧
    (let s : State := on
     let host : HostNo := 0
     let h := host.val
     let v : BitVec 8 := 255
     hostPresent s host.val = true ∧ getAt false s.host.msixPending (256 * h + v.toNat) = false) ∧
    (let s : State := on
     let host : HostNo := 0
     let cause : Fin 4 := 1
     hostPresent s host.val = true ∧ cause.val ≠ 0) ∧
    (let s : State := on
     let host : HostNo := 0
     hostPresent s host.val = true) ∧
    (let s : State := owned 2
     let host : HostNo := 0
     hostPresent s host.val = true ∧ s.own.owner = some 2) :=
  ⟨by decide +kernel, by decide +kernel, by decide +kernel, by decide +kernel, by decide +kernel, by decide +kernel⟩

/-- States that meet hypotheses of `Obligations.RingEvents`. -/
theorem test_meets_ring_events_3 :
    (let s : State := on
     let host : HostNo := 0
     hostPresent s host.val = true ∧ s.own.owner ≠ some 2) :=
  by decide +kernel

/-- States that meet hypotheses of `Obligations.DescriptorsTaken`. -/
theorem test_meets_descriptors_taken_1 :
    (let s : State := on
     s.boot.phase = .ready ∧ s.host.mailbox = none) ∧
    (let s : State := on.withHost { on.host with mailbox := some [] }
     s.boot.phase = .ready ∧ s.host.mailbox.isSome = true) ∧
    (let s : State := on.withHost { on.host with mailbox := some [] }
     let d : Bytes := []
     s.boot.phase = .ready ∧ s.host.mailbox = some d ∧ s.host.accepted.any (fun a => a.src == .mailbox) = false) ∧
    (let s : State := on
     s.boot.phase = .ready) ∧
    (let s : State := ring0 63 { prod := 1 }
     let desc : Bytes := []
     let h : HostNo := 0
     let ring : Fin 64 := 63
     s.boot.phase = .ready ∧ ringRuns s h.val ring.val = true ∧ ringChain s h.val ring.val = false ∧ ringUsed (ringAt s h.val ring.val) ≠ 0 ∧ leAt desc 3 1 < 64 ∧ cplRoom s (.cmdRing h ring) (leAt desc 3 1) = true ∧ (s.own.owner ≠ some h.val ∨ s.host.accepted.length < 1024)) ∧
    (let s : State := ring0 0 { chainReading := true } (chain0 on)
     let h : HostNo := 0
     let page : Fin 184 := 0
     s.boot.phase = .ready ∧ ringRuns s h.val page.val = true ∧ ringChain s h.val page.val = true ∧ (ringAt s h.val page.val).chainReading = true) :=
  ⟨by decide +kernel, by decide +kernel, by decide +kernel, by decide +kernel, by decide +kernel, by decide +kernel⟩

/-- States that meet hypotheses of `Obligations.AcceptNumbers`. -/
theorem test_meets_accept_numbers_1 :
    (let s : State := (owned 2).withHost { (owned 2).host with lastAseq := 0xFFFFFFFF }
     let t : State := (accept s .mailbox 0 0 0 false false 0 0 0 false).1
     let src : Source := .mailbox
     let op : Nat := 0
     let seq : Nat := 0
     let cpl : Nat := 0
     let result : Nat := 0
     let tag : Nat := 0
     let inst : Nat := 0
     let fence : Bool := false
     let quiet : Bool := false
     let ok : Bool := false
     let a : Accepted := (accept s .mailbox 0 0 0 false false 0 0 0 false).2.getD (acc 0)
     accept s src op seq cpl fence quiet result tag inst ok = (t, some a)) :=
  by decide +kernel

/-- States that meet hypotheses of `Obligations.CompletionPosted`. -/
theorem test_meets_completion_posted_1 :
    (let s : State := (ring0 127).withHost { (ring0 127).host with masked := [(regField (ring0 127) .ringCfg (ringNo 0 127) 8 8, false)] }
     let a : Accepted := { acc 0x0700 with src := .cmdRing 0 0, cpl := 63, quiet := false }
     let h : HostNo := 0
     let ring : Fin 64 := 0
     let r : Reply := {}
     a.src = .cmdRing h ring ∧ a.quiet = false ∧ r.block = [] ∧ a.cpl < 64 ∧ ringRuns s h.val (64 + a.cpl) = true ∧ regVal s .ringWb (ringNo h.val (64 + a.cpl)) = 0 ∧ regField s .ringCfg (ringNo h.val (64 + a.cpl)) 28 4 = 0 ∧ getAt true s.host.masked (256 * h.val + regField s .ringCfg (ringNo h.val (64 + a.cpl)) 8 8) = false) :=
  by decide +kernel

/-- States that meet hypotheses of `Obligations.HostCommands`. -/
theorem test_meets_host_commands_1 :
    (let c : Cmd := cmd
     let s : State := run 0x0B03
     let a : Accepted := acc 0x0B03
     CmdRuns c 0x0B03 s a) ∧
    (let c : Cmd := cmd
     let s : State := run 0x0B01
     let a : Accepted := acc 0x0B01
     let host : BitVec 8 := 1
     let type : BitVec 8 := 5
     let ring : BitVec 8 := 7
     CmdRuns c 0x0B01 s a ∧ host.toNat < 2 ∧ hostPresent s host.toNat = true ∧ ring.toNat < typeCount type.toNat) ∧
    (let c : Cmd := cmd
     let s : State := run 0x0B02
     let a : Accepted := acc 0x0B02
     let host : BitVec 8 := 1
     CmdRuns c 0x0B02 s a ∧ host.toNat < 2 ∧ hostPresent s host.toNat = true) ∧
    (let s : State := on.withHost { on.host with accepted := [acc 0x0700, { acc 0x0B03 with aseq := 2, fence := true }] }
     let c : Cmd := cmd
     let a : Accepted := { acc 0x0B03 with aseq := 2, fence := true }
     let b : Accepted := acc 0x0700
     let rest : List Accepted := [{ acc 0x0B03 with aseq := 2, fence := true }]
     s.boot.phase = .ready ∧ s.host.accepted.find? (fun b => !b.started && b.src == c.src && b.seq == c.seq.toNat && b.opcode == 0x0B03) = some a ∧ a.fence = true ∧ s.host.accepted = b :: rest ∧ b.aseq ≠ a.aseq) :=
  ⟨by decide +kernel, by decide +kernel, by decide +kernel, by decide +kernel⟩

/-- States that meet hypotheses of `Obligations.Ownership`. -/
theorem test_meets_ownership_1 :
    (let s : State := on
     let v : BitVec 32 := 15
     s.boot.phase = .ready ∧ (v ||| 0x10).toNat &&& Reg.ownBid.named = (v ||| 0x10).toNat) ∧
    (let s : State := on
     let v : BitVec 32 := 15
     s.boot.phase = .ready ∧ (v &&& 0xffffffef).toNat &&& Reg.ownBid.named = (v &&& 0xffffffef).toNat) ∧
    (let s : State := owned 3
     let m : Master := 3
     s.boot.phase = .ready ∧ s.own.owner = some m.val) ∧
    (let s : State := owned
     let m : Master := 3
     s.boot.phase = .ready ∧ s.own.owner ≠ some m.val) ∧
    (let s : State := owned.withOwn { owned.own with bids := [{ master := 3, prio := 15, nonce := 0 }] }
     let m : Master := 0
     let k : Fin 4 := 3
     s.boot.phase = .ready ∧ s.own.owner = some m.val ∧ k.val ≠ m.val ∧ (bidOf s k.val).isSome = true) ∧
    (let s : State := on.withOwn { window := true, bids := [{ master := 3, prio := 15, nonce := 0 }] }
     let x := { master := 3, prio := 15, nonce := 0 }
     s.boot.phase = .ready ∧ s.own.window = true ∧ s.own.owner = none ∧ bestBid s.own.bids = some x) :=
  ⟨by decide +kernel, by decide +kernel, by decide +kernel, by decide +kernel, by decide +kernel, by decide +kernel⟩

/-- States that meet hypotheses of `Obligations.Handover`. -/
theorem test_meets_handover_1 :
    (let new : Option Nat := some 0
     new ≠ none) ∧
    (let s : State := owned.withOwn { owned.own with bids := [{ master := 3, prio := 15, nonce := 0 }] }
     let new : Option Nat := none
     let cause : Nat := 4
     let t := changeOwner s new cause
     let f := 0
     let b := { master := 3, prio := 15, nonce := 0 }
     s.own.owner = some f ∧ b ∈ t.own.bids) :=
  ⟨by decide +kernel, by decide +kernel⟩

/-- States that meet hypotheses of `Obligations.BestBid`. -/
theorem test_meets_best_bid_1 :
    (let bids : List Bid := [{ master := 3, prio := 15, nonce := 0 }]
     let b := { master := 3, prio := 15, nonce := 0 }
     bestBid bids = some b) :=
  by decide +kernel

/-- States that meet hypotheses of `Obligations.DmaEnables`. -/
theorem test_meets_dma_enables_1 :
    (let s : State := owned
     let m : Master := 0
     let ch : Fin 32 := 31
     let n := ch.val
     let u := seen s m (Reg.off .dmaChCfg n)
     s.boot.phase = .ready ∧ s.own.owner = some m.val ∧ dmaEnabled u n = false) ∧
    (let s : State := setReg owned .dmaChCfg 0 1
     let m : Master := 0
     let ch : Fin 32 := 0
     let n := ch.val
     let u := seen s m (Reg.off .dmaChCfg n)
     s.boot.phase = .ready ∧ s.own.owner = some m.val ∧ dmaEnabled u n = true) ∧
    (let s : State := on
     let m : Master := 3
     s.boot.phase = .ready ∧ s.own.owner ≠ some m.val) ∧
    (let s : State := .reset
     s.boot.phase ≠ .ready) ∧
    (let s : State := on
     let ch : Fin 32 := 0
     let n := ch.val
     let x := dmaAt s n
     x.disable = false) ∧
    (let s : State := dma0 { disable := true, st := .waiting }
     let ch : Fin 32 := 0
     let n := ch.val
     let x := dmaAt s n
     x.disable = true ∧ x.st ≠ .running) :=
  ⟨by decide +kernel, by decide +kernel, by decide +kernel, by decide +kernel, by decide +kernel, by decide +kernel⟩

/-- States that meet hypotheses of `Obligations.DmaEnables`. -/
theorem test_meets_dma_enables_2 :
    (let s : State := dma0 { disable := true, st := .running }
     let ch : Fin 32 := 0
     let n := ch.val
     let x := dmaAt s n
     x.disable = true ∧ x.st = .running ∧ x.error = 0) ∧
    (let s : State := dma0 { disable := true, st := .running, error := 5 }
     let ch : Fin 32 := 0
     let n := ch.val
     let x := dmaAt s n
     x.disable = true ∧ x.st = .running ∧ x.error ≠ 0) :=
  ⟨by decide +kernel, by decide +kernel⟩

/-- States that meet hypotheses of `Obligations.DmaCommands`. -/
theorem test_meets_dma_commands_1 :
    (let c : Cmd := cmd
     let s : State := run 0x0C01 (setReg (dma0 { st := .waiting }) .dmaChCfg 31 1 |> (setDma · 31 { st := .waiting }))
     let a : Accepted := acc 0x0C01
     let ch : BitVec 16 := 31
     let s0 := begun c s a
     let n := ch.toNat
     let x := dmaAt s0 n
     CmdRuns c 0x0C01 s a ∧ n < 32 ∧ dmaEnabled s0 n = true ∧ x.st = .waiting ∧ x.reading = false) ∧
    (let c : Cmd := cmd
     let s : State := run 0x0C01 (setReg .reset .dmaChCfg 31 1)
     let a : Accepted := acc 0x0C01
     let ch : BitVec 16 := 31
     let s0 := begun c s a
     let n := ch.toNat
     let x := dmaAt s0 n
     CmdRuns c 0x0C01 s a ∧ n < 32 ∧ dmaEnabled s0 n = true ∧ ((x.st ≠ .waiting ∨ x.reading = true))) ∧
    (let c : Cmd := cmd
     let s : State := run 0x0C01
     let a : Accepted := acc 0x0C01
     let ch : BitVec 16 := 31
     let s0 := begun c s a
     let n := ch.toNat
     CmdRuns c 0x0C01 s a ∧ n < 32 ∧ dmaEnabled s0 n = false) ∧
    (let c : Cmd := cmd
     let s : State := run 0x0C01
     let a : Accepted := acc 0x0C01
     let ch : BitVec 16 := 32
     let n := ch.toNat
     CmdRuns c 0x0C01 s a ∧ 32 ≤ n) ∧
    (let c : Cmd := cmd
     let s : State := run 0x0C02
     let a : Accepted := acc 0x0C02
     let ch : BitVec 16 := 31
     let n := ch.toNat
     CmdRuns c 0x0C02 s a ∧ n < 32) ∧
    (let c : Cmd := cmd
     let s : State := run 0x0C02
     let a : Accepted := acc 0x0C02
     let ch : BitVec 16 := 32
     let n := ch.toNat
     CmdRuns c 0x0C02 s a ∧ 32 ≤ n) :=
  ⟨by decide +kernel, by decide +kernel, by decide +kernel, by decide +kernel, by decide +kernel, by decide +kernel⟩

/-- States that meet hypotheses of `Obligations.DmaBursts`. -/
theorem test_meets_dma_bursts_1 :
    (let s : State := dma0 { st := .fetching }
     let ch : Fin 32 := 0
     let n := ch.val
     let x := dmaAt s n
     x.st = .fetching) ∧
    (let s : State := dma0 { st := .waiting, reading := true }
     let ch : Fin 32 := 0
     let n := ch.val
     let x := dmaAt s n
     x.st = .waiting ∧ x.reading = true) ∧
    (let s : State := setReg (dma0 { st := .running, desc := paste (le 64 1) 4 (le 4 512) }) .dmaChCfg 0 1
     let ch : Fin 32 := 0
     let n := ch.val
     let l : Nat := 0
     burstsInFlight s < 256 ∧ grantChannel s = some (l, n)) ∧
    (let s : State := dma0 { bursts := List.replicate 256 burst }
     256 ≤ burstsInFlight s) ∧
    (let s : State := dma0 { desc := [2], bursts := [burst] }
     let ch : Fin 32 := 0
     let n := ch.val
     let x := dmaAt s n
     let k : Nat := 0
     let b : Burst := burst
     x.op = 2 ∧ x.bursts.find? (fun b => b.idx == k && b.data.isNone) = some b) ∧
    (let s : State := dma0 { desc := [1], bursts := [burst] }
     let ch : Fin 32 := 0
     let n := ch.val
     let x := dmaAt s n
     let k : Nat := 0
     let b : Burst := burst
     let src : Bytes := []
     let d : Bytes := cut [] 0 32
     let ok : Bool := true
     let poison : Bool := false
     let r : ReadOutcome := .clean
     let u : State := s
     x.op = 1 ∧ x.bursts.find? (fun b => b.idx == k && b.data.isNone) = some b ∧ dmaRead s x.srcSpace (x.src + b.off) b.len src ok poison r = (u, d, 0)) :=
  ⟨by decide +kernel, by decide +kernel, by decide +kernel, by decide +kernel, by decide +kernel, by decide +kernel⟩

/-- States that meet hypotheses of `Obligations.DmaBursts`. -/
theorem test_meets_dma_bursts_2 :
    (let s : State := dma0 { desc := [3], bursts := [burst] }
     let ch : Fin 32 := 0
     let n := ch.val
     let x := dmaAt s n
     let k : Nat := 0
     let i : Nat := 0
     let b : Burst := burst
     let src : Bytes := [1]
     let dst : Bytes := []
     let d : Bytes := cut [1] 0 32
     let e : Bytes := cut [] 0 32
     let ok : Bool := true
     let poison : Bool := false
     let r : ReadOutcome := .clean
     let r2 : ReadOutcome := .clean
     let u : State := s
     let w : State := s
     x.op = 3 ∧ x.bursts.find? (fun b => b.idx == k && b.data.isNone) = some b ∧ dmaRead s x.srcSpace (x.src + b.off) b.len src ok poison r = (u, d, 0) ∧ dmaRead u x.dstSpace (x.dst + b.off) b.len dst ok poison r2 = (w, e, 0) ∧ firstDiff d e b.len = some i ∧ x.diff = none) ∧
    (let s : State := dma0 { bursts := [burst (some [1])] }
     let ch : Fin 32 := 0
     let n := ch.val
     let x := dmaAt s n
     let k : Nat := 0
     let b : Burst := burst (some [1])
     let d : Bytes := [1]
     x.bursts.find? (fun b => b.idx == k) = some b ∧ b.data = some d) ∧
    (let s : State := dma0 { bursts := [burst (some [1])] }
     let ch : Fin 32 := 0
     let n := ch.val
     let x := dmaAt s n
     let k : Nat := 0
     let b : Burst := burst (some [1])
     let d : Bytes := [1]
     x.bursts.find? (fun b => b.idx == k) = some b ∧ b.data = some d ∧ x.error = 0) :=
  ⟨by decide +kernel, by decide +kernel, by decide +kernel⟩

/-- States that meet hypotheses of `Obligations.AgeingAndDemotion`. -/
theorem test_meets_ageing_and_demotion_1 :
    (let s : State := formatted
     s.fs.formatted = true) ∧
    (let s : State := hot (formatted (fun f => { f with purges := [purge0] }))
     let k : Nat := 0
     let v := touchRecord s 0 (some (.hot k))
     let r := recAt v k
     let p := purge0
     s.fs.formatted = true ∧ sweepSkips s k = false ∧ purgeOf v (recKey r 0) = some p) ∧
    (let s : State := setReg (hot formatted) .sweepCfg 0 1
     let k : Nat := 0
     let v := touchRecord s 0 (some (.hot k))
     let r := recAt v k
     s.fs.formatted = true ∧ sweepSkips s k = false ∧ purgeOf v (recKey r 0) = none ∧ regField v .sweepCfg 0 0 1 = 1 ∧ judged v r = true ∧ exports v r = false) ∧
    (let s : State := on
     let k : Nat := 0
     sweepSkips s k = true) ∧
    (let s : State := cold formatted
     let k : Nat := 0
     let o : ReadOutcome := .uncorrectable
     s.fs.formatted = true ∧ k < coldSlots s ∧ readsBad s (coldAddr s k) 256 o = true) ∧
    (let s : State := cold (formatted (fun f => { f with purges := [purge0] }))
     let k : Nat := 0
     let o : ReadOutcome := .clean
     let w := ddrRead s (coldAddr s k) 256 o 4
     let b := coldAt w k
     let p := purge0
     s.fs.formatted = true ∧ k < coldSlots s ∧ readsBad s (coldAddr s k) 256 o = false ∧ coldLive b = true ∧ isCopy w (coldRec b) = false ∧ promotingCold w k = false ∧ w.fs.dels.any (fun d => d.tierB && d.slot == k) = false ∧ purgeOf w (recKey (coldRec b) 0) = some p) :=
  ⟨by decide +kernel, by decide +kernel, by decide +kernel, by decide +kernel, by decide +kernel, by decide +kernel⟩

/-- States that meet hypotheses of `Obligations.AgeingAndDemotion`. -/
theorem test_meets_ageing_and_demotion_2 :
    (let s : State := setReg (cold formatted) .sweepCfg 0 1
     let k : Nat := 0
     let o : ReadOutcome := .clean
     let w := ddrRead s (coldAddr s k) 256 o 4
     let b := coldAt w k
     s.fs.formatted = true ∧ k < coldSlots s ∧ readsBad s (coldAddr s k) 256 o = false ∧ coldLive b = true ∧ isCopy w (coldRec b) = false ∧ promotingCold w k = false ∧ w.fs.dels.any (fun d => d.tierB && d.slot == k) = false ∧ purgeOf w (recKey (coldRec b) 0) = none ∧ regField w .sweepCfg 0 0 1 = 1 ∧ idleCode w (coldRec b) ≠ 15 ∧ exports w (coldRec b) = false) ∧
    (let s : State := later (formatted (fun f => { f with dels := [del false] }))
     let k : Nat := 0
     let d := del false
     s.fs.dels.find? (fun d => d.tierB == false && d.slot == k) = some d ∧ deletionFenced s d = true) ∧
    (let s : State := later (formatted (fun f => { f with dels := [del true] }))
     let k : Nat := 0
     let d := del true
     s.fs.dels.find? (fun d => d.tierB == true && d.slot == k) = some d ∧ deletionFenced s d = true) ∧
    (let s : State := formatted (fun f => { f with dels := [del false] })
     let k : Nat := 0
     let d : Del := del false
     let b : Bool := false
     s.fs.dels.find? (fun d => d.tierB == b && d.slot == k) = some d ∧ deletionFenced s d = false) ∧
    (let s : State := setFrame on 0 (some { frm with stage := .setup })
     let k : Nat := 0
     let f : Frame := { frm with stage := .setup }
     frameAt s k = some f ∧ f.stage = .setup) ∧
    (let s : State := hot1 (setPier formatted 0 { passes := 1 })
     let k : Nat := 1
     let p := slotPier s k
     let age := wrapSub 32 (coarse s) (recLast (recAt s k))
     let x := pierAt s p
     s.fs.formatted = true ∧ k % pierSlots s ≠ 0 ∧ x.passes ≠ 0 ∧ slotLive s k = true ∧ (s.fs.demoting = false ∨ x.passes ≤ 1 ∨ age < x.threshold)) :=
  ⟨by decide +kernel, by decide +kernel, by decide +kernel, by decide +kernel, by decide +kernel, by decide +kernel⟩

/-- States that meet hypotheses of `Obligations.AgeingAndDemotion`. -/
theorem test_meets_ageing_and_demotion_3 :
    (let s : State := hot1 (setPier (formatted (fun f => { f with demoting := true })) 0 { passes := 2 })
     let k : Nat := 1
     let p := slotPier s k
     let age := wrapSub 32 (coarse s) (recLast (recAt s k))
     let x := pierAt s p
     let u := setPier s p { x with hist := setAt 0 x.hist (ageBin age) (getAt 0 x.hist (ageBin age) + 1) }
     s.fs.formatted = true ∧ k % pierSlots s ≠ 0 ∧ x.passes ≠ 0 ∧ slotLive s k = true ∧ s.fs.demoting = true ∧ 1 < x.passes ∧ x.threshold ≤ age ∧ demotable u k = true) ∧
    (let s : State := formatted
     let k : Nat := 1
     let p := slotPier s k
     let x := pierAt s p
     s.fs.formatted = true ∧ k % pierSlots s ≠ 0 ∧ (x.passes = 0 ∨ slotLive s k = false)) ∧
    (let s : State := later (formatted (fun f => { f with dems := [dem] }))
     let k : Nat := 1
     let d := dem
     s.fs.formatted = true ∧ demOf s k = some d ∧ d.back = false ∧ fencePassed s d.stamp = true) ∧
    (let s : State := formatted (fun f => { f with dems := [dem] })
     let k : Nat := 1
     let d := dem
     s.fs.formatted = true ∧ demOf s k = some d ∧ (d.back = true ∨ fencePassed s d.stamp = false)) :=
  ⟨by decide +kernel, by decide +kernel, by decide +kernel, by decide +kernel⟩

/-- States that meet hypotheses of `Obligations.Clockwork`. -/
theorem test_meets_clockwork_1 :
    (let s : State := on.withRegs { on.regs with shadow := [(0, some 1)] }
     s.regs.shadow ≠ []) ∧
    (let s : State := on
     s.regs.shadow = []) ∧
    (let s : State := formatted (fun f => { f with dems := [dem] })
     let waits (fid : Nat) : Bool := match frameAt s fid with
           | some f => noVerdict f && !f.context
           | none => false
     (s.fs.dels ≠ [] ∨ s.fs.dems ≠ [] ∨ s.fs.refused ≠ []) ∧ s.tbl.waits.any (·.batch) = false) ∧
    (let s : State := wake .slice 0
     let slice : SliceNo := 0
     let n := slice.val
     admits s n = true) ∧
    (let s : State := on
     let slice : SliceNo := 0
     let n := slice.val
     admits s n = false) ∧
    (let s : State := setSlice (setFrame on 0 (some { frm with stage := .slice })) 0 { ctxWait := [0] }
     let slice : SliceNo := 0
     let n := slice.val
     let waits (fid : Nat) : Bool := match frameAt s fid with
           | some f => noVerdict f && !f.context
           | none => false
     let fid : Nat := 0
     let rest : List Nat := []
     let f : Frame := { frm with stage := .slice }
     (sliceAt s n).ctxWait.filter waits = fid :: rest ∧ frameAt s fid = some f ∧ contextsUsed s n < 9216) :=
  ⟨by decide +kernel, by decide +kernel, by decide +kernel, by decide +kernel, by decide +kernel, by decide +kernel⟩

/-- States that meet hypotheses of `Obligations.Clockwork`. -/
theorem test_meets_clockwork_2 :
    (let s : State := (setSlice on 0 { ctxWait := [0] }).withSlices { (setSlice on 0 { ctxWait := [0] }).slices with frames := (0, some { frm with stage := .slice }) :: List.replicate 9216 (1, some { frm with stage := .slice, context := true }) }
     let slice : SliceNo := 0
     let n := slice.val
     let waits (fid : Nat) : Bool := match frameAt s fid with
           | some f => noVerdict f && !f.context
           | none => false
     let fid : Nat := 0
     let rest : List Nat := []
     let f : Frame := { frm with stage := .slice }
     (sliceAt s n).ctxWait.filter waits = fid :: rest ∧ frameAt s fid = some f ∧ 9216 ≤ contextsUsed s n) :=
  by decide +kernel

/-- States that meet hypotheses of `Obligations.FramesAndGates`. -/
theorem test_meets_frames_and_gates_1 :
    (let s : State := setSub on 159 { up := true }
     let sub : SubNo := 159
     let n := sub.val
     let cws : List (BitVec 4) := []
     isBond (countCodewords s n cws) (n / 4) = false ∧ (subAt s n).up = true) ∧
    (let s : State := setSub on 159 { recUp := true }
     let sub : SubNo := 159
     let n := sub.val
     let cws : List (BitVec 4) := []
     isBond (countCodewords s n cws) (n / 4) = false ∧ (subAt s n).up = false ∧ (subAt s n).recUp = true) ∧
    (let s : State := (setSub on 159 { up := true }).withPorts { (setSub on 159 { up := true }).ports with bond := [(39, true)] }
     let sub : SubNo := 159
     let n := sub.val
     let cws : List (BitVec 4) := []
     (subAt s n).up = true ∧ isBond (countCodewords s n cws) (n / 4) = true) ∧
    (let s : State := on
     let sub : SubNo := 159
     let n := sub.val
     (subAt s n).up = false ∧ (subAt s n).recUp = false) ∧
    (let bytes : Bytes := List.replicate 59 0
     bytes.length < 60) ∧
    (let s : State := on
     let sub : SubNo := 0
     let n := sub.val
     (subAt s n).rxFrame = none) :=
  ⟨by decide +kernel, by decide +kernel, by decide +kernel, by decide +kernel, by decide +kernel, by decide +kernel⟩

/-- States that meet hypotheses of `Obligations.FramesAndGates`. -/
theorem test_meets_frames_and_gates_2 :
    (let s : State := setSub on 159 { rxFrame := some 0 }
     let sub : SubNo := 159
     let n := sub.val
     let fid := 0
     (subAt s n).rxFrame = some fid) ∧
    (let s : State := setSub on 159 { up := true }
     let sub : SubNo := 159
     let n := sub.val
     txReady (endTx s n) n = true) ∧
    (let s : State := on
     let sub : SubNo := 0
     let n := sub.val
     txReady (endTx s n) n = false) ∧
    (let s : State := setGate on 0 { change := some (0, 0, 1, 1) }
     let sub : SubNo := 0
     let n := sub.val
     let t := 0
     let bank := 0
     let x := (1, 1)
     (gateAt s n).change = some (t, bank, x)) ∧
    (let s : State := setGate on 0 { enabled := true }
     let sub : SubNo := 0
     let n := sub.val
     (gateAt s n).enabled = true) ∧
    (let s : State := on
     let sub : SubNo := 0
     let n := sub.val
     (gateAt s n).enabled = false) :=
  ⟨by decide +kernel, by decide +kernel, by decide +kernel, by decide +kernel, by decide +kernel, by decide +kernel⟩

/-- States that meet hypotheses of `Obligations.InvalidLaneMap`. -/
theorem test_meets_invalid_lane_map_1 :
    (let c : Cmd := cmd
     let s : State := run 0x0101
     let a : Accepted := acc 0x0101
     let map : BitVec 32 := 0
     let i : Nat := 0
     let j : Nat := 7
     CmdRuns c 0x0101 s a ∧ i < 8 ∧ j < 8 ∧ i ≠ j ∧ bits map.toNat (3 * i) 3 = bits map.toNat (3 * j) 3) :=
  by decide +kernel

/-- States that meet hypotheses of `Obligations.StrictPriority`. -/
theorem test_meets_strict_priority :
    (let s : State := setReg (setQueue (setFrame on 0 (some frm)) 0 { copies := [copy0] }) .queueCfg 0 0x800000
     let u := (subQueues 0).foldl rejoin s
     ¬(subShaperRate s 0 ≠ 0 ∧ (settleSched s 0).tokens < 0) ∧ 0 ∈ subQueues 0 ∧ (candidate u 0 0).any (fun d => isSp u d.frame.epoch 0) = true) ∧
    (let s : State := on
     let u := (subQueues 159).foldl rejoin s
     ¬(subShaperRate s 159 ≠ 0 ∧ (settleSched s 159).tokens < 0) ∧
     ∀ q ∈ subQueues 159, (candidate u 159 q).all (fun d => !isSp u d.frame.epoch q) = true) := by
  decide +kernel

/-- States that meet hypotheses of `Obligations.ShedHandshake`. -/
theorem test_meets_shed_handshake_1 :
    (let s : State := on
     let sub : SubNo := 0
     let n := sub.val
     takesShed s n = false) ∧
    (let s : State := shed { }
     let sub : SubNo := 0
     let n := sub.val
     takesShed s n = true) ∧
    (let s : State := shed { recUp := true }
     let sub : SubNo := 0
     let m : ShedMsg := { target := 8 }
     let n := sub.val
     let x := subAt s n
     takesShed s n = true ∧ x.recUp = true ∧ (allowedWidths s n).contains m.target.toNat = true ∧ m.target.toNat ≤ (bothHealthy s n).length) ∧
    (let s : State := shed { recUp := true }
     let sub : SubNo := 0
     let m : ShedMsg := { target := 3 }
     let n := sub.val
     let x := subAt s n
     takesShed s n = true ∧ x.recUp = true ∧ ((allowedWidths s n).contains m.target.toNat = false ∨ (bothHealthy s n).length < m.target.toNat)) ∧
    (let s : State := shed { width := 1, req := some { seq := 0, target := 2, tries := 0 } }
     let sub : SubNo := 0
     let m : ShedMsg := { target := 1 }
     let n := sub.val
     let x := subAt s n
     let r := { seq := 0, target := 2, tries := 0 }
     takesShed s n = true ∧ x.recUp = false ∧ x.req = some r ∧ ourReqStands s n m r = true) ∧
    (let s : State := shed { width := 8, req := some { seq := 0, target := 2, tries := 0 } }
     let sub : SubNo := 0
     let m : ShedMsg := { target := 4 }
     let n := sub.val
     let x := subAt s n
     takesShed s n = true ∧ x.recUp = false ∧ x.req.all (fun r => !ourReqStands s n m r) = true) :=
  ⟨by decide +kernel, by decide +kernel, by decide +kernel, by decide +kernel, by decide +kernel, by decide +kernel⟩

/-- States that meet hypotheses of `Obligations.ShedHandshake`. -/
theorem test_meets_shed_handshake_2 :
    (let s : State := shed { req := some { seq := 0, target := 2, tries := 0 } }
     let sub : SubNo := 0
     let m : ShedMsg := {}
     let n := sub.val
     let x := subAt s n
     let r := { seq := 0, target := 2, tries := 0 }
     takesShed s n = true ∧ x.req = some r ∧ r.seq = m.seq.toNat ∧ x.recUp = false) ∧
    (let s : State := shed { recUp := true, req := some { seq := 0, target := 2, tries := 0 } }
     let sub : SubNo := 0
     let m : ShedMsg := {}
     let n := sub.val
     let x := subAt s n
     let r := { seq := 0, target := 2, tries := 0 }
     takesShed s n = true ∧ x.req = some r ∧ r.seq = m.seq.toNat ∧ x.recUp = true) ∧
    (let s : State := shed { }
     let sub : SubNo := 0
     let m : ShedMsg := {}
     let n := sub.val
     let x := subAt s n
     takesShed s n = true ∧ x.req.all (fun r => r.seq != m.seq.toNat) = true) ∧
    (let s : State := shed { stepTo := some 2 }
     let sub : SubNo := 0
     let m : ShedMsg := {}
     let n := sub.val
     let x := subAt s n
     takesShed s n = true ∧ x.stepTo ≠ none ∧ x.stepSeq = m.seq.toNat) ∧
    (let s : State := shed { }
     let sub : SubNo := 0
     let m : ShedMsg := { seq := 65535 }
     let n := sub.val
     let x := subAt s n
     takesShed s n = true ∧ x.stepSeq ≠ m.seq.toNat) ∧
    (let s : State := shed { helloTries := 3 }
     let sub : SubNo := 0
     let n := sub.val
     let x := subAt s n
     x.up = true ∧ shedEnabled s n = true ∧ x.answering = none ∧ x.helloTries < 4) :=
  ⟨by decide +kernel, by decide +kernel, by decide +kernel, by decide +kernel, by decide +kernel, by decide +kernel⟩

/-- States that meet hypotheses of `Obligations.ShedHandshake`. -/
theorem test_meets_shed_handshake_3 :
    (let s : State := shed { answering := some true }
     let sub : SubNo := 0
     let n := sub.val
     let x := subAt s n
     x.answering ≠ none) ∧
    (let s : State := shed { }
     let sub : SubNo := 0
     let n := sub.val
     let x := subAt s n
     x.up = true ∧ x.answering = none) ∧
    (let s : State := sub0 { req := some { seq := 0, target := 2, tries := 2 } }
     let sub : SubNo := 0
     let n := sub.val
     let x := subAt s n
     let r := { seq := 0, target := 2, tries := 2 }
     x.req = some r ∧ r.tries < 3) ∧
    (let s : State := sub0 { req := some { seq := 0, target := 2, tries := 3 } }
     let sub : SubNo := 0
     let n := sub.val
     let x := subAt s n
     let r := { seq := 0, target := 2, tries := 3 }
     x.req = some r ∧ 3 ≤ r.tries) :=
  ⟨by decide +kernel, by decide +kernel, by decide +kernel, by decide +kernel⟩

/-- States that meet hypotheses of `Obligations.ShedSteps`. -/
theorem test_meets_shed_steps_1 :
    (let s : State := sub0 { up := true }
     let sub : SubNo := 0
     let n := sub.val
     let x := subAt s n
     x.up = true) ∧
    (let s : State := on
     let sub : SubNo := 0
     let n := sub.val
     let x := subAt s n
     x.up = false) ∧
    (let s : State := sub0 { stepTo := some 8, width := 7 }
     let sub : SubNo := 0
     let n := sub.val
     let x := subAt s n
     let t := 8
     x.stepTo = some t ∧ x.width < t) ∧
    (let s : State := sub0 { stepTo := some 8, width := 8 }
     let sub : SubNo := 0
     let n := sub.val
     let x := subAt s n
     let t := 8
     x.stepTo = some t ∧ (t ≤ x.width ∨ (x.readySent = true ∧ x.readyRcvd = true))) ∧
    (let s : State := sub0 { stepTo := some 8, width := 7, readySent := true }
     let sub : SubNo := 0
     let n := sub.val
     let x := subAt s n
     let t := 8
     x.stepTo = some t ∧ x.width < t ∧ (x.readySent = false ∨ x.readyRcvd = false)) ∧
    (let s : State := sub0 { switching := true }
     let sub : SubNo := 0
     let n := sub.val
     let x := subAt s n
     x.switching = true) :=
  ⟨by decide +kernel, by decide +kernel, by decide +kernel, by decide +kernel, by decide +kernel, by decide +kernel⟩

/-- States that meet hypotheses of `Obligations.ShedSteps`. -/
theorem test_meets_shed_steps_2 :
    (let s : State := on
     let sub : SubNo := 0
     let n := sub.val
     let x := subAt s n
     x.stepTo = none) ∧
    (let s : State := setLane on 0 { failed := true }
     let lane : LaneNo := 0
     let l := lane.val
     (laneAt s l).failed = true) ∧
    (let s : State := sub0 { recovery := some 0 }
     let sub : SubNo := 0
     let k := 0
     (subAt s sub.val).recovery = some k ∧ (subAt s sub.val).recUp = false) ∧
    (let s : State := sub0 { recUp := true }
     let sub : SubNo := 0
     (subAt s sub.val).recUp = true) :=
  ⟨by decide +kernel, by decide +kernel, by decide +kernel, by decide +kernel⟩

/-- States that meet hypotheses of `Obligations.Pauses`. -/
theorem test_meets_pauses_1 :
    (let s : State := sub0 { up := true }
     let sub : SubNo := 0
     let n := sub.val
     let x := subAt s n
     x.up = true ∧ isBond s (n / 4) = false) ∧
    (let s : State := setReg on .subportLinkCfg 0 0x4000
     let sub : SubNo := 0
     let n := sub.val
     fcMode s n = 1) ∧
    (let s : State := sub0 { pausing := [[]] }
     let sub : SubNo := 0
     let n := sub.val
     let x := subAt s n
     let m := []
     let ms := []
     x.pausing = m :: ms) ∧
    (let s : State := on
     let sub : SubNo := 0
     let n := sub.val
     let x := subAt s n
     x.pausing = []) ∧
    (let s : State := setReg (sub0 { up := true, xoff := 256 }) .subportLinkCfg 0 0x4000
     let sub : SubNo := 0
     let n := sub.val
     pauseOwed s n = true ∧ controlReady s n = true) ∧
    (let s : State := setReg (sub0 { xoff := 256 }) .subportLinkCfg 0 0x4000
     let sub : SubNo := 0
     let n := sub.val
     pauseOwed s n = true ∧ controlReady s n = false) :=
  ⟨by decide +kernel, by decide +kernel, by decide +kernel, by decide +kernel, by decide +kernel, by decide +kernel⟩

/-- States that meet hypotheses of `Obligations.Pauses`. -/
theorem test_meets_pauses_2 :
    (let s : State := on
     let sub : SubNo := 0
     let n := sub.val
     pauseOwed s n = false) ∧
    (let s : State := setReg (sub0 { up := true, xoff := 256 }) .subportLinkCfg 0 0x4000
     let sub : SubNo := 0
     let n := sub.val
     let x := subAt s n
     (x.xoff &&& fcBits s n ≠ 0 ∨ x.xoffSent ≠ 0) ∧ controlReady s n = true) ∧
    (let s : State := setReg (sub0 { xoff := 256 }) .subportLinkCfg 0 0x4000
     let sub : SubNo := 0
     let n := sub.val
     let x := subAt s n
     (x.xoff &&& fcBits s n ≠ 0 ∨ x.xoffSent ≠ 0) ∧ controlReady s n = false) ∧
    (let s : State := on
     let sub : SubNo := 0
     let n := sub.val
     let x := subAt s n
     x.xoff &&& fcBits s n = 0 ∧ x.xoffSent = 0) :=
  ⟨by decide +kernel, by decide +kernel, by decide +kernel, by decide +kernel⟩

/-- States that meet hypotheses of `Obligations.LinkStates`. -/
theorem test_meets_link_states_1 :
    (let s : State := setReg (sub0 { up := true, method := .eee }) .subportEee 0 0x10001
     let sub : SubNo := 0
     let n := sub.val
     let x := subAt s n
     x.up = true ∧ x.method = .eee ∧ x.lpi = .active ∧ subIdle s n = true ∧ regField s .subportEee n 0 16 ≠ 0 ∧ regField s .subportEee n 16 16 ≠ 0) ∧
    (let s : State := on
     let sub : SubNo := 0
     let n := sub.val
     let x := subAt s n
     (x.up = false ∨ x.method ≠ .eee ∨ x.lpi ≠ .active ∨ subIdle s n = false)) ∧
    (let s : State := sub0 { lpi := .waking }
     let sub : SubNo := 0
     let n := sub.val
     let x := subAt s n
     x.lpi = .waking) ∧
    (let s : State := on
     let sub : SubNo := 0
     let n := sub.val
     let x := subAt s n
     x.lpi ≠ .waking) ∧
    (let s : State := sub0 { up := true }
     let sub : SubNo := 0
     let n := sub.val
     let x := subAt s n
     x.up = true) ∧
    (let s : State := on
     let sub : SubNo := 0
     let n := sub.val
     let x := subAt s n
     x.up = false) :=
  ⟨by decide +kernel, by decide +kernel, by decide +kernel, by decide +kernel, by decide +kernel, by decide +kernel⟩

/-- States that meet hypotheses of `Obligations.LinkStates`. -/
theorem test_meets_link_states_2 :
    (let s : State := powered (linked {})
     let sub : SubNo := 0
     let n := sub.val
     let x := subAt s n
     x.up = false ∧ x.recUp = false ∧ linkWanted s n = true ∧ x.recovery = none ∧ linkPowered s n (upLanes s n) = true) ∧
    (let s : State := powered (linked { recovery := some 0 })
     let sub : SubNo := 0
     let n := sub.val
     let x := subAt s n
     let l := 0
     x.up = false ∧ x.recUp = false ∧ linkWanted s n = true ∧ x.recovery = some l ∧ linkPowered s n [l] = true) ∧
    (let s : State := on
     let sub : SubNo := 0
     let n := sub.val
     linkWanted s n = false) ∧
    (let s : State := linked {}
     let sub : SubNo := 0
     let n := sub.val
     let x := subAt s n
     x.recovery = none ∧ linkPowered s n (upLanes s n) = false) ∧
    (let s : State := sub0 { hold := some 1 }
     let sub : SubNo := 0
     let n := sub.val
     let x := subAt s n
     x.hold ≠ none) ∧
    (let s : State := on
     let sub : SubNo := 0
     let n := sub.val
     let x := subAt s n
     x.hold = none) :=
  ⟨by decide +kernel, by decide +kernel, by decide +kernel, by decide +kernel, by decide +kernel, by decide +kernel⟩

/-- States that meet hypotheses of `Obligations.PortAndTrafficCommands`. -/
theorem test_meets_port_and_traffic_commands_1 :
    (let c : Cmd := cmd
     let s : State := run 0x0101
     let a : Accepted := acc 0x0101
     let s0 := begun c s a
     let port : BitVec 16 := 95
     let mode : BitVec 8 := 6
     let map : BitVec 32 := 0xFAC688
     CmdRuns c 0x0101 s a ∧ port.toNat < 96 ∧ mode.toNat < 7 ∧ laneMapOk map.toNat = true ∧ bondsWith s0 port.toNat ≤ 16) ∧
    (let c : Cmd := cmd
     let s : State := run 0x0101
     let a : Accepted := acc 0x0101
     let port : BitVec 16 := 96
     let mode : BitVec 8 := 0
     let map : BitVec 32 := 0
     CmdRuns c 0x0101 s a ∧ (96 ≤ port.toNat ∨ 7 ≤ mode.toNat ∨ laneMapOk map.toNat = false)) ∧
    (let c : Cmd := cmd
     let s : State := run 0x0102
     let a : Accepted := acc 0x0102
     let s0 := begun c s a
     let sub : BitVec 16 := 0
     CmdRuns c 0x0102 s a ∧ sub.toNat < 384 ∧ subExists s0 sub.toNat = true) ∧
    (let c : Cmd := cmd
     let s : State := run 0x0103
     let a : Accepted := acc 0x0103
     let s0 := begun c s a
     let sub : BitVec 16 := 0
     let width : BitVec 8 := (BitVec.ofNat 8 (fullOf .reset 0))
     CmdRuns c 0x0103 s a ∧ sub.toNat < 384 ∧ subExists s0 sub.toNat = true ∧ width ≠ 0 ∧ (allowedWidths s0 sub.toNat).contains width.toNat = true) ∧
    (let c : Cmd := cmd
     let s : State := run 0x0103
     let a : Accepted := acc 0x0103
     let s0 := begun c s a
     let sub : BitVec 16 := 0
     let enable : BitVec 8 := 0
     CmdRuns c 0x0103 s a ∧ sub.toNat < 384 ∧ subExists s0 sub.toNat = true ∧ enable.toNat ≤ 1) ∧
    (let c : Cmd := cmd
     let s : State := run 0x0104
     let a : Accepted := acc 0x0104
     let port : BitVec 16 := 95
     let lane : BitVec 8 := 7
     CmdRuns c 0x0104 s a ∧ port.toNat < 96 ∧ lane.toNat < 8) :=
  ⟨by decide +kernel, by decide +kernel, by decide +kernel, by decide +kernel, by decide +kernel, by decide +kernel⟩

/-- States that meet hypotheses of `Obligations.PortAndTrafficCommands`. -/
theorem test_meets_port_and_traffic_commands_2 :
    (let c : Cmd := cmd
     let s : State := run 0x0105
     let a : Accepted := acc 0x0105
     let port : BitVec 16 := 95
     CmdRuns c 0x0105 s a ∧ port.toNat < 96) ∧
    (let c : Cmd := cmd
     let s : State := run 0x0901
     let a : Accepted := acc 0x0901
     CmdRuns c 0x0901 s a) ∧
    (let c : Cmd := cmd
     let s : State := run 0x0902
     let a : Accepted := acc 0x0902
     CmdRuns c 0x0902 s a) ∧
    (let c : Cmd := cmd
     let s : State := run 0x0903
     let a : Accepted := acc 0x0903
     CmdRuns c 0x0903 s a) ∧
    (let c : Cmd := cmd
     let s : State := run 0x0904
     let a : Accepted := acc 0x0904
     let sub : BitVec 16 := 383
     CmdRuns c 0x0904 s a ∧ sub.toNat < 384) ∧
    (let c : Cmd := cmd
     let s : State := run 0x0904
     let a : Accepted := acc 0x0904
     let sub : BitVec 16 := 384
     CmdRuns c 0x0904 s a ∧ 384 ≤ sub.toNat) :=
  ⟨by decide +kernel, by decide +kernel, by decide +kernel, by decide +kernel, by decide +kernel, by decide +kernel⟩

/-- States that meet hypotheses of `Obligations.Lookups`. -/
theorem test_meets_lookups_1 :
    (let s : State := framed inPass
     let fid : Nat := 0
     let f : Frame := inPass
     frameAt s fid = some f ∧ f.stage = .slice ∧ flowKnown f = false) ∧
    (let s : State := framed inPass
     let f : Frame := inPass
     candidates s f.key = []) ∧
    (let s : State := hot (framed inPass)
     let f : Frame := inPass
     let k : Nat := 0
     let w := readAt s (slotPier s (ixSlot (idxAt s k))) (recordAddr s (ixSlot (idxAt s k))) .clean
     let r := recAt w (ixSlot (idxAt w k))
     candidates s f.key = [k] ∧ recGen r % 16 = ixGen (idxAt w k) ∧ recKey r (ixDir (idxAt w k)) = f.key ∧ servable w r = true ∧ hiddenFor w f.epoch false (ixSlot (idxAt w k)) (recGen r) = false) ∧
    (let s : State := fetch0 { id := 0, serial := 0, key := [] }
     let fid : Nat := 0
     let f : Fetch := { id := 0, serial := 0, key := [] }
     fetchAt s fid = some f ∧ f.directory = false) ∧
    (let s : State := fetch0 { id := 0, serial := 0, key := [], directory := true, cands := [0] }
     let fid : Nat := 0
     let f : Fetch := { id := 0, serial := 0, key := [], directory := true, cands := [0] }
     let c : Nat := 0
     let cs : List Nat := []
     fetchAt s fid = some f ∧ f.cands = c :: cs ∧ f.directory = true ∧ f.slot = none ∧ f.cold = none) ∧
    (let s : State := framed inPass
     let fid : Nat := 0
     let f : Frame := inPass
     frameAt s fid = some f ∧ inEpochCount f = true ∧ f.lpm = none) :=
  ⟨by decide +kernel, by decide +kernel, by decide +kernel, by decide +kernel, by decide +kernel, by decide +kernel⟩

/-- States that meet hypotheses of `Obligations.Lookups`. -/
theorem test_meets_lookups_2 :
    (let s : State := framed { inPass with secReqs := [(0, [])] }
     let fid : Nat := 0
     let f : Frame := { inPass with secReqs := [(0, [])] }
     let req : Nat × Bytes := (0, [])
     let later : List (Nat × Bytes) := []
     frameAt s fid = some f ∧ inEpochCount f = true ∧ f.secReqs = req :: later) ∧
    (let s : State := on
     let fid : Nat := 0
     frameAt s fid = none) :=
  ⟨by decide +kernel, by decide +kernel⟩

/-- States that meet hypotheses of `Obligations.FlowUpdates`. -/
theorem test_meets_flow_updates_1 :
    (let s : State := formatted (fun f => { f with comb := [{ slot := 0, gen := 0, tierB := false, packets := 1, octets := 60, hitRet := false }] })
     let k : Nat := 0
     let c := { slot := 0, gen := 0, tierB := false, packets := 1, octets := 60, hitRet := false }
     let tierB := false
     s.fs.comb.find? (fun c => c.slot == k && c.tierB == tierB) = some c ∧ (tierB && moreWriteBacks s k) = false) ∧
    (let s : State := formatted (fun f => { f with comb := [{ slot := 0, gen := 0, tierB := true, packets := 1, octets := 60, hitRet := false }], fetches := [{ id := 0, serial := 0, key := [], frames := [1], joined := 1 }] })
     let k : Nat := 0
     let c := { slot := 0, gen := 0, tierB := true, packets := 1, octets := 60, hitRet := false }
     s.fs.comb.find? (fun c => c.slot == k && c.tierB == true) = some c ∧ moreWriteBacks s k = true) ∧
    (let s : State := on
     let k : Nat := 0
     let tierB := true
     s.fs.comb.find? (fun c => c.slot == k && c.tierB == tierB) = none) ∧
    (let s : State := formatted (fun f => { f with tracks := [{ slot := 0, gen := 1, tierB := false, ret := false, flags := 0 }] })
     let t := { slot := 0, gen := 1, tierB := false, ret := false, flags := 0 }
     let ts := []
     s.fs.tracks = t :: ts) ∧
    (let s : State := on
     s.fs.tracks = []) ∧
    (let s : State := on
     let t : Track := { slot := 0, gen := 1, tierB := false, ret := false, flags := 0 }
     t.tierB = false ∧ recGen (recAt s t.slot) ≠ t.gen) :=
  ⟨by decide +kernel, by decide +kernel, by decide +kernel, by decide +kernel, by decide +kernel, by decide +kernel⟩

/-- States that meet hypotheses of `Obligations.FlowUpdates`. -/
theorem test_meets_flow_updates_2 :
    (let s : State := formatted (fun f => { f with spillDec := [1, 0] })
     let k : Nat := 0
     let x := 0
     let rest := [1]
     takeFirst (· == k) s.fs.spillDec = some (x, rest)) ∧
    (let s : State := on
     let k : Nat := 0
     takeFirst (· == k) s.fs.spillDec = none) ∧
    (let s : State := on
     let k : Nat := 0
     let dir : Bool := false
     s.fs.moves.find? (fun m => m.dir == dir && moveSource m == k) = none) ∧
    (let s : State := formatted (fun f => { f with moves := [{ path := [0, 8], entry := 1, who := .insertion 0 , dir := true, since := 1 }], fetches := [{ id := 0, serial := 0, key := [] }] })
     let k : Nat := 0
     let m := { path := [0, 8], entry := 1, who := .insertion 0 , dir := true, since := 1 }
     s.fs.moves.find? (fun m => m.dir == true && moveSource m == k) = some m ∧ s.fs.fetches.any (fun f => decide (f.serial < m.since)) = true) ∧
    (let s : State := formatted (fun f => { f with moves := [{ path := [0, 8], entry := 1, who := .insertion 0 }] })
     let k : Nat := 0
     let m : Move := { path := [0, 8], entry := 1, who := .insertion 0 }
     let dir : Bool := false
     s.fs.moves.find? (fun m => m.dir == dir && moveSource m == k) = some m ∧ (dir && s.fs.fetches.any (fun f => decide (f.serial < m.since))) = false) ∧
    (let m : Move := { path := [0, 8], entry := 1, who := .insertion 0 }
     m.dir = false ∧ moveSource m ≠ moveTarget m) :=
  ⟨by decide +kernel, by decide +kernel, by decide +kernel, by decide +kernel, by decide +kernel, by decide +kernel⟩

/-- States that meet hypotheses of `Obligations.FlowUpdates`. -/
theorem test_meets_flow_updates_3 :
    (let s : State := setIdx on 8 (ixMake 0 0 0 0 false)
     let m : Move := { path := [0, 8], entry := 1, who := .insertion 0 }
     m.dir = false ∧ moveSource m ≠ moveTarget m ∧ ixValid (idxAt s (moveTarget m)) = true) ∧
    (let st : Nat := 9
     st ≤ 9) ∧
    (let st : Nat := 7
     1 ≤ st ∧ st ≤ 7) ∧
    (let st : Nat := 9
     let ret : Bool := false
     let syn : Bool := false
     let ack : Bool := false
     let fin : Bool := false
     let rst : Bool := false
     (trackStep st ret syn ack fin rst).unmatched = true) :=
  ⟨by decide +kernel, by decide +kernel, by decide +kernel, by decide +kernel⟩

/-- States that meet hypotheses of `Obligations.Sequencer`. -/
theorem test_meets_sequencer_1 :
    (let s : State := framed inPass
     let fid : Nat := 0
     let f : Frame := inPass
     let e : BitVec 320 := 0
     let word := bankWord s f.bank f.pc ^^^ e
     frameAt s fid = some f ∧ noVerdict f = true ∧ f.context = true ∧ waitMet f word.toNat = true ∧ wordParity word = 0) ∧
    (let s : State := framed inPass
     let fid : Nat := 0
     let f : Frame := inPass
     let e : BitVec 320 := BitVec.ofNat 320 (2 ^ 312)
     let word := bankWord s f.bank f.pc ^^^ e
     frameAt s fid = some f ∧ noVerdict f = true ∧ f.context = true ∧ waitMet f word.toNat = true ∧ wordParity word ≠ 0) ∧
    (let s : State := framed frm
     let fid : Nat := 0
     let f : Frame := frm
     frameAt s fid = some f ∧ (noVerdict f = false ∨ f.context = false)) ∧
    (let s : State := framed inPass
     let fid : Nat := 0
     let f : Frame := inPass
     frameAt s fid = some f ∧ noVerdict f = true) ∧
    (let s : State := framed frm
     let fid : Nat := 0
     let f : Frame := frm
     frameAt s fid = some f ∧ noVerdict f = false) ∧
    (let s : State := on.withSeq { on.seq with swap := some { boundary := 0, aseq := 1 } }
     let w := { boundary := 0, aseq := 1 }
     s.seq.swap = some w ∧ epochDrained s w.boundary = true) :=
  ⟨by decide +kernel, by decide +kernel, by decide +kernel, by decide +kernel, by decide +kernel, by decide +kernel⟩

/-- States that meet hypotheses of `Obligations.Sequencer`. -/
theorem test_meets_sequencer_2 :
    (let s : State := later (framed inPass (on.withSeq { on.seq with swap := some { boundary := 1, aseq := 1 } }))
     let w := { boundary := 1, aseq := 1 }
     s.seq.swap = some w ∧ epochDrained s w.boundary = false) ∧
    (let s : State := run 0x0202 (on.withSeq { on.seq with bank1 := { loaded := true } })
     let c : Cmd := cmd
     let a : Accepted := acc 0x0202
     let s0 := begun c s a
     let x := bankOf s0 (1 - s0.seq.live)
     CmdRuns c 0x0202 s a ∧ s0.seq.swap = none ∧ s0.seq.loading = false ∧ bankValid x = true) ∧
    (let s : State := run 0x0203
     let c : Cmd := cmd
     let a : Accepted := acc 0x0203
     let slice : BitVec 16 := 16
     CmdRuns c 0x0203 s a ∧ slice.toNat < 17) :=
  ⟨by decide +kernel, by decide +kernel, by decide +kernel⟩

/-- States that meet hypotheses of `Obligations.BufferAndRings`. -/
theorem test_meets_buffer_and_rings_1 :
    (let s : State := framed { frm with policed := true }
     let fid : Nat := 0
     let f : Frame := { frm with policed := true }
     frameAt s fid = some f ∧ f.policed = true ∧ f.colour = none) ∧
    (let loc : BitVec 64 := BitVec.ofNat 64 (256 * (cellCount - 1))
     loc.toNat % 256 = 0 ∧ loc.toNat / 256 < cellCount) ∧
    (let s : State := setReg on .bufCfg 0 0
     regField s .bufCfg 0 16 8 = 0) ∧
    (let s : State := on
     regField s .bufCfg 0 16 8 ≠ 0) ∧
    (let s : State := on.withBuf { on.buf with walking := true }
     s.buf.walking = true) ∧
    (let s : State := setQueue (framed frm) (internalQ 0x40) { copies := [copy0] }
     let k := 0
     let c := copy0
     let f := frm
     nextList s s.buf.replRot = some (k, c, f)) :=
  ⟨by decide +kernel, by decide +kernel, by decide +kernel, by decide +kernel, by decide +kernel, by decide +kernel⟩

/-- States that meet hypotheses of `Obligations.BufferAndRings`. -/
theorem test_meets_buffer_and_rings_2 :
    (let s : State := on
     nextList s s.buf.replRot = none) ∧
    (let s : State := ring0 159 { prod := 1 } (setQueue (framed frm) (internalQ 0x1F) { copies := [copy0] })
     let ring : Fin 16 := 15
     let readOk : Bool := true
     let c : Copy := copy0
     let cs : List Copy := []
     let f : Frame := frm
     let h := puntHost s f.epoch ring.val
     let page := 144 + ring.val
     let q := internalQ (0x10 + ring.val)
     let size := 256 * 2 ^ min (regField s .ringCfg (ringNo h page) 16 4) 6
     (queueAt s q).copies = c :: cs ∧ frameAt s c.fid = some f ∧ f.whole = true ∧ shaperOpen s q = true ∧ ringRuns s h page = true ∧ ((puntBytes f c).length + size - 1) / size ≤ ringUsed (ringAt s h page) ∧ readOk = true) ∧
    (let s : State := ring0 159 {} (setQueue (framed frm) (internalQ 0x1F) { copies := [copy0] })
     let ring : Fin 16 := 15
     let c : Copy := copy0
     let cs : List Copy := []
     let f : Frame := frm
     let h := puntHost s f.epoch ring.val
     let page := 144 + ring.val
     let q := internalQ (0x10 + ring.val)
     let size := 256 * 2 ^ min (regField s .ringCfg (ringNo h page) 16 4) 6
     (queueAt s q).copies = c :: cs ∧ frameAt s c.fid = some f ∧ f.whole = true ∧ shaperOpen s q = true ∧ ringRuns s h page = true ∧ ringUsed (ringAt s h page) < ((puntBytes f c).length + size - 1) / size) ∧
    (let s : State := ring0 175 { prod := 1 } (setSlice (wake .slice 15 on) 15 { opened := 1 })
     let host : HostNo := 0
     let ring : Fin 16 := 15
     let entry : Bytes := List.replicate 8 0 ++ le 2 10236 ++ [15]
     let t : Nat := 15
     let page := 160 + ring.val
     s.boot.phase = .ready ∧ injHas s host.val page = true ∧ 60 ≤ leAt entry 8 2 ∧ leAt entry 8 2 ≤ 10236 ∧ leAt entry 10 1 ≤ 15 ∧ injSlice s (leAt entry 10 1) = some t ∧ ((sliceAt s t).heads.getD 6 []).length < 64) ∧
    (let s : State := ring0 175 { prod := 1 }
     let host : HostNo := 0
     let ring : Fin 16 := 15
     let entry : Bytes := List.replicate 8 0 ++ le 2 10237
     let page := 160 + ring.val
     s.boot.phase = .ready ∧ injHas s host.val page = true ∧ (leAt entry 8 2 < 60 ∨ 10236 < leAt entry 8 2)) :=
  ⟨by decide +kernel, by decide +kernel, by decide +kernel, by decide +kernel, by decide +kernel⟩

/-- States that meet hypotheses of `Obligations.BondCells`. -/
theorem test_meets_bond_cells_1 :
    (let s : State := on
     let u : State := s
     let sub : SubNo := 0
     let cell : Bytes := []
     let ok : Bool := false
     let n := sub.val
     cellTaken s n cell ok = (u, false)) ∧
    (let s : State := bonded
     let u : State := s
     let sub : SubNo := 0
     let cell : Bytes := le 16 6
     let ok : Bool := true
     let n := sub.val
     cellTaken s n cell ok = (u, true) ∧ (bondAt u n).left = false) ∧
    (let s : State := bonded { left := true }
     let u : State := s
     let sub : SubNo := 0
     let cell : Bytes := le 16 6
     let ok : Bool := true
     let n := sub.val
     cellTaken s n cell ok = (u, true) ∧ (bondAt u n).left = true) ∧
    (let s : State := bonded
     let u : State := s
     let sub : SubNo := 0
     let cell : Bytes := le 16 6
     let ok : Bool := true
     let n := sub.val
     cellTaken s n cell ok = (u, true)) ∧
    (let s : State := bonded
     let u : State := s
     let sub : SubNo := 0
     let cell : Bytes := le 16 6
     let ok : Bool := true
     let n := sub.val
     cellTaken s n cell ok = (u, true) ∧ (u.stk.isolated = false ∨ u.stk.needFormat = false)) ∧
    (let s : State := bonded {} (on.withStk { on.stk with isolated := true, needFormat := true })
     let u : State := s
     let sub : SubNo := 0
     let cell : Bytes := le 16 6
     let ok : Bool := true
     let n := sub.val
     cellTaken s n cell ok = (u, true) ∧ u.stk.isolated = true ∧ u.stk.needFormat = true) :=
  ⟨by decide +kernel, by decide +kernel, by decide +kernel, by decide +kernel, by decide +kernel, by decide +kernel⟩

/-- States that meet hypotheses of `Obligations.BondCells`. -/
theorem test_meets_bond_cells_2 :
    (let s : State := bonded
     let sub : SubNo := 0
     let n := sub.val
     isBond s (n / 4) = true ∧ (subAt s n).up = true ∧ (bondAt s n).left = false) ∧
    (let s : State := on
     let sub : SubNo := 0
     let n := sub.val
     isBond s (n / 4) = false) ∧
    (let s : State := bonded
     let sub : SubNo := 0
     let n := sub.val
     isBond s (n / 4) = true) :=
  ⟨by decide +kernel, by decide +kernel, by decide +kernel⟩

/-- States that meet hypotheses of `Obligations.StackMembers`. -/
theorem test_meets_stack_members_1 :
    (let s : State := stack
     let dev : Fin 4 := 1
     let m := dev.val
     s.stk.formed = true ∧ bit s.stk.members m = true ∧ m ≠ ownDev s ∧ reachable s m = false ∧ bit s.stk.aliveIn m = false) ∧
    (let s : State := stack 0 (on.withStk { on.stk with aliveIn := 2 })
     let dev : Fin 4 := 1
     let m := dev.val
     s.stk.formed = true ∧ bit s.stk.members m = true ∧ m ≠ ownDev s ∧ reachable s m = false ∧ bit s.stk.aliveIn m = true ∧ survives s = true) ∧
    (let s : State := stack 1 (on.withStk { on.stk with aliveIn := 2 })
     let dev : Fin 4 := 1
     let m := dev.val
     s.stk.formed = true ∧ bit s.stk.members m = true ∧ m ≠ ownDev s ∧ reachable s m = false ∧ bit s.stk.aliveIn m = true ∧ survives s = false) ∧
    (let s : State := on
     let dev : Fin 4 := 0
     let m := dev.val
     (s.stk.formed = false ∨ reachable s m = true)) ∧
    (let s : State := on.withStk { on.stk with awaits := [{ partner := 3, seq := 0xFFFFFFFF, link := 0, tries := 3, payload := [], move := false }] }
     let dev : Fin 4 := 3
     let m := dev.val
     let seq : BitVec 32 := 0xFFFFFFFF
     let w : MirrorWait := { partner := 3, seq := 0xFFFFFFFF, link := 0, tries := 3, payload := [], move := false }
     let rest : List MirrorWait := []
     takeFirst (fun w => w.partner == m && w.seq == seq.toNat) s.stk.awaits = some (w, rest) ∧ w.tries ≤ 3) ∧
    (let s : State := on.withStk { on.stk with awaits := [{ partner := 3, seq := 0xFFFFFFFF, link := 0, tries := 4, payload := [], move := false }] }
     let dev : Fin 4 := 3
     let m := dev.val
     let seq : BitVec 32 := 0xFFFFFFFF
     let w : MirrorWait := { partner := 3, seq := 0xFFFFFFFF, link := 0, tries := 4, payload := [], move := false }
     let rest : List MirrorWait := []
     takeFirst (fun w => w.partner == m && w.seq == seq.toNat) s.stk.awaits = some (w, rest) ∧ 3 < w.tries ∧ w.move = false) :=
  ⟨by decide +kernel, by decide +kernel, by decide +kernel, by decide +kernel, by decide +kernel, by decide +kernel⟩

/-- States that meet hypotheses of `Obligations.StackCommands`. -/
theorem test_meets_stack_commands_1 :
    (let c : Cmd := cmd
     let s : State := run 0x0E01
     let a : Accepted := acc 0x0E01
     let s0 := begun c s a
     CmdRuns c 0x0E01 s a ∧ chosenQuoin s0 = ownDev s0) ∧
    (let c : Cmd := cmd
     let s : State := run 0x0E01 (bonded { peerStrap := true })
     let a : Accepted := acc 0x0E01
     let s0 := begun c s a
     CmdRuns c 0x0E01 s a ∧ chosenQuoin s0 ≠ ownDev s0) ∧
    (let c : Cmd := cmd
     let s : State := run 0x0E02 (stack 0 bonded)
     let a : Accepted := acc 0x0E02
     let dev : BitVec 8 := 1
     let s0 := begun c s a
     let d := dev.toNat
     CmdRuns c 0x0E02 s a ∧ isQuoin s0 = true ∧ d < 4 ∧ d ≠ ownDev s0 ∧ reachable s0 d = true) ∧
    (let c : Cmd := cmd
     let s : State := run 0x0E02
     let a : Accepted := acc 0x0E02
     let s0 := begun c s a
     isQuoin s0 = false ∧ CmdRuns c 0x0E02 s a) ∧
    (let c : Cmd := cmd
     let s : State := run 0x0E06
     let a : Accepted := acc 0x0E06
     let s0 := begun c s a
     isQuoin s0 = false ∧ CmdRuns c 0x0E06 s a) ∧
    (let c : Cmd := cmd
     let s : State := run 0x0E07
     let a : Accepted := acc 0x0E07
     let s0 := begun c s a
     isQuoin s0 = false ∧ CmdRuns c 0x0E07 s a) :=
  ⟨by decide +kernel, by decide +kernel, by decide +kernel, by decide +kernel, by decide +kernel, by decide +kernel⟩

/-- States that meet hypotheses of `Obligations.StackCommands`. -/
theorem test_meets_stack_commands_2 :
    (let c : Cmd := cmd
     let s : State := run 0x0E03
     let a : Accepted := acc 0x0E03
     CmdRuns c 0x0E03 s a) ∧
    (let c : Cmd := cmd
     let s : State := run 0x0E04 (stack 0 bonded)
     let a : Accepted := acc 0x0E04
     let dev : BitVec 8 := 1
     let s0 := begun c s a
     let d := dev.toNat
     CmdRuns c 0x0E04 s a ∧ isQuoin s0 = true ∧ d < 4 ∧ d ≠ ownDev s0 ∧ bit s0.stk.members d = true ∧ reachable s0 d = true) ∧
    (let c : Cmd := cmd
     let s : State := run 0x0E05 (stack 0 bonded)
     let a : Accepted := acc 0x0E05
     let dev : BitVec 8 := 1
     let s0 := begun c s a
     let d := dev.toNat
     let space : BitVec 8 := 1
     let addr : BitVec 64 := 0
     let stage : BitVec 64 := 0
     let len : BitVec 32 := 64
     let data : Bytes := []
     let b : Bytes := cut [] 0 64
     let ok : Bool := true
     let r : ReadOutcome := .clean
     let u : State := begun cmd (run 0x0E05 (stack 0 bonded)) (acc 0x0E05)
     CmdRuns c 0x0E05 s a ∧ s0.stk.formed = true ∧ d < 4 ∧ d ≠ ownDev s0 ∧ space.toNat ≤ 3 ∧ len.toNat ≤ 2 ^ 24 ∧ stage.toNat + len.toNat ≤ 2 ^ 24 ∧ c.src ≠ .relay ∧ bit s0.stk.members d = true ∧ reachable s0 d = true ∧ dmaRead s0 space.toNat addr.toNat len.toNat data ok false r = (u, b, 0)) ∧
    (let c : Cmd := cmd
     let s : State := run 0x0E06 (setEnt (stack 0 bonded) 0x51 0 63 { st := .valid 0, settled := true, bytes := [0, 0, 0, 0] })
     let a : Accepted := acc 0x0E06
     let dev : BitVec 8 := 1
     let s0 := begun c s a
     let d := dev.toNat
     let e : BitVec 8 := 63
     let v := mapAt s0 s0.tbl.epoch e.toNat
     let here := fun (m : Nat) => bit s0.stk.members m && (m == ownDev s0 || reachable s0 m)
     CmdRuns c 0x0E06 s a ∧ isQuoin s0 = true ∧ e.toNat < 64 ∧ d < 4 ∧ mapLocal v = false ∧ here (mapOwner v) = true ∧ here d = true ∧ s0.stk.moves.any (fun m => m.entry == e.toNat) = false ∧ mapOwner v ≠ d) ∧
    (let c : Cmd := cmd
     let s : State := run 0x0E07 (stack.withStk { stack.stk with members := 1 })
     let a : Accepted := acc 0x0E07
     let s0 := begun c s a
     CmdRuns c 0x0E07 s a ∧ c.src ≠ .relay ∧ isQuoin s0 = true ∧ (devsOf s0.stk.members).filter (· != ownDev s0) = []) ∧
    (let c : Cmd := cmd
     let s : State := run 0x0E08
     let a : Accepted := acc 0x0E08
     CmdRuns c 0x0E08 s a) :=
  ⟨by decide +kernel, by decide +kernel, by decide +kernel, by decide +kernel, by decide +kernel, by decide +kernel⟩

/-- States that meet hypotheses of `Obligations.LearnedEntries`. -/
theorem test_meets_learned_entries_1 :
    (let s : State := on
     let mac : Bytes := []
     let ten : BitVec 16 := 0
     let t := ten.toNat
     s.tbl.flight.find? (fun l => l.is mac t) = none) ∧
    (let s : State := setEnt flying 0x08 0 ((keyIdxs on 0x08 macInfo (macKey learn0.mac 0)).headD 0) { st := .valid 0, bytes := List.replicate 16 0 }
     let mac : Bytes := List.replicate 6 0
     let ten : BitVec 16 := 0
     let t := ten.toNat
     let l := learn0
     s.tbl.flight.find? (fun l => l.is mac t) = some l ∧ s.tbl.flips.any (fun m => m.who == .learn l.mac l.tenant) = false ∧ writtenFor s l = true) ∧
    (let s : State := setReg flying .subportLearnCfg 383 0
     let mac : Bytes := List.replicate 6 0
     let ten : BitVec 16 := 0
     let t := ten.toNat
     let l := learn0
     s.tbl.flight.find? (fun l => l.is mac t) = some l ∧ s.tbl.flips.any (fun m => m.who == .learn l.mac l.tenant) = false ∧ writtenFor s l = false ∧ atLimit s l.epoch l.sub = true) ∧
    (let s : State := full 0x08 macInfo (macKey learn0.mac 0) flying
     let mac : Bytes := List.replicate 6 0
     let ten : BitVec 16 := 0
     let t := ten.toNat
     let l := learn0
     s.tbl.flight.find? (fun l => l.is mac t) = some l ∧ s.tbl.flips.any (fun m => m.who == .learn l.mac l.tenant) = false ∧ writtenFor s l = false ∧ atLimit s l.epoch l.sub = false ∧ placeFor s 0x08 macInfo (macKey l.mac l.tenant) = none) ∧
    (let s : State := flying
     let mac : Bytes := List.replicate 6 0
     let ten : BitVec 16 := 0
     let t := ten.toNat
     let l := learn0
     let i := (keyIdxs on 0x08 macInfo (macKey learn0.mac 0)).headD 0
     s.tbl.flight.find? (fun l => l.is mac t) = some l ∧ s.tbl.flips.any (fun m => m.who == .learn l.mac l.tenant) = false ∧ writtenFor s l = false ∧ atLimit s l.epoch l.sub = false ∧ placeFor s 0x08 macInfo (macKey l.mac l.tenant) = some [i]) ∧
    (let s : State := on
     let idx : Nat := 0
     let e := entAt s 0x08 0 idx
     let fl := macFlags e.bytes
     (regField s .learnCfg 0 1 1 = 0 ∨ isValid e = false ∨ bit fl 0 = true)) :=
  ⟨by decide +kernel, by decide +kernel, by decide +kernel, by decide +kernel, by decide +kernel, by decide +kernel⟩

/-- States that meet hypotheses of `Obligations.LearnedEntries`. -/
theorem test_meets_learned_entries_2 :
    (let s : State := learned 2
     let idx : Nat := 0
     let e := entAt s 0x08 0 idx
     let fl := macFlags e.bytes
     regField s .learnCfg 0 1 1 = 1 ∧ isValid e = true ∧ bit fl 0 = false ∧ bit fl 1 = true) ∧
    (let s : State := learned 0
     let idx : Nat := 0
     let e := entAt s 0x08 0 idx
     let fl := macFlags e.bytes
     regField s .learnCfg 0 1 1 = 1 ∧ isValid e = true ∧ bit fl 0 = false ∧ bit fl 1 = false ∧ bit fl 2 = false) ∧
    (let s : State := setReg (learned 4) .learnCfg 0 3
     let idx : Nat := 0
     let e := entAt s 0x08 0 idx
     let fl := macFlags e.bytes
     regField s .learnCfg 0 1 1 = 1 ∧ isValid e = true ∧ bit fl 0 = false ∧ bit fl 1 = false ∧ bit fl 2 = true ∧ directMode s s.tbl.epoch = true) ∧
    (let s : State := learned 4
     let idx : Nat := 0
     let e := entAt s 0x08 0 idx
     let fl := macFlags e.bytes
     regField s .learnCfg 0 1 1 = 1 ∧ isValid e = true ∧ bit fl 0 = false ∧ bit fl 1 = false ∧ bit fl 2 = true ∧ directMode s s.tbl.epoch = false) :=
  ⟨by decide +kernel, by decide +kernel, by decide +kernel, by decide +kernel⟩

/-- States that meet hypotheses of `Obligations.TableUpkeep`. -/
theorem test_meets_table_upkeep_repoint :
    let s : State := setReg on .tableSearchCfg 0 0x10000
    targetOf 0x17 0x10 = some { count := 262144, size := 32, first := 0x10, insts := 8 } ∧ repointing s = true ∧
      262143 < 262144 ∧ (∀ x, (entAt s 0x10 0x17 262143).st ≠ .retiring x) ∧
      cut [] 0 32 = cut (entAt s 0x10 0x17 262143).bytes 0 32 ∧ cut [1] 0 32 ≠ cut (entAt s 0x10 0x17 262143).bytes 0 32 :=
  ⟨by decide, by decide, by decide, (fun _ h => nomatch h), by decide, by decide⟩

/-- States that meet hypotheses of `Obligations.TableUpkeep`. -/
theorem test_meets_table_upkeep_1 :
    (let s : State := on.withTbl { on.tbl with flips := [{ id := 8, path := [0, 8], bytes := [], who := .learn [9] 9 }] }
     let id : BitVec 8 := 8
     let k : Nat := 0
     let m := { id := 8, path := [0, 8], bytes := [], who := .learn [9] 9 }
     s.tbl.flips.find? (fun m => m.id == id.toNat && m.path.getD (m.path.length - 2) 0 == k) = some m ∧ m.path.length ≤ 2) ∧
    (let s : State := on.withTbl { on.tbl with flips := [{ id := 8, path := [8, 0, 8], bytes := [], who := .learn [9] 9 }] }
     let id : BitVec 8 := 8
     let k : Nat := 0
     let m := { id := 8, path := [8, 0, 8], bytes := [], who := .learn [9] 9 }
     s.tbl.flips.find? (fun m => m.id == id.toNat && m.path.getD (m.path.length - 2) 0 == k) = some m ∧ 2 < m.path.length) ∧
    (let s : State := on
     let id : BitVec 8 := 0
     let k : Nat := 0
     s.tbl.flips.find? (fun m => m.id == id.toNat && m.path.getD (m.path.length - 2) 0 == k) = none) ∧
    (let s : State := setReg on .tableSearchCfg 0 0x10000
     let id : BitVec 8 := 2
     let inst : BitVec 8 := 0
     let k : Nat := 255
     let t := { count := 256, size := 16 }
     targetOf inst.toNat id.toNat = some t ∧ repointing s = true ∧ id.toNat < 0x30 ∧ k < t.count) ∧
    (let s : State := setReg on .tableSearchCfg 0 0x10000
     let id : BitVec 8 := 2
     let inst : BitVec 8 := 0
     let k : Nat := 255
     let t := { count := 256, size := 16 }
     targetOf inst.toNat id.toNat = some t ∧ repointing s = true ∧ id.toNat < 0x30 ∧ k < t.count ∧ id.toNat < 0x10) ∧
    (let s : State := setReg on .tableSearchCfg 0 0x10000
     let id : BitVec 8 := 0x11
     let inst : BitVec 8 := 0x17
     let k : Nat := 511
     let t := { count := 512, size := 4, first := 0x10, insts := 8 }
     targetOf inst.toNat id.toNat = some t ∧ repointing s = true ∧ id.toNat < 0x30 ∧ k < t.count ∧ 0x10 ≤ id.toNat) :=
  ⟨by decide +kernel, by decide +kernel, by decide +kernel, by decide +kernel, by decide +kernel, by decide +kernel⟩

/-- States that meet hypotheses of `Obligations.TableCommands`. -/
theorem test_meets_table_commands_1 :
    (let c : Cmd := cmd
     let s : State := run 0x0701
     let a : Accepted := acc 0x0701
     let table : BitVec 16 := 0x30
     let s0 := begun c s a
     let inst := c.inst.toNat
     let id := table.toNat
     instBusy s0 inst = false ∧ CmdRuns c 0x0701 s a ∧ targetOf inst id = none) ∧
    (let c : Cmd := cmd
     let s : State := run 0x0701 (entry 2 0 255)
     let a : Accepted := acc 0x0701
     let table : BitVec 16 := 2
     let idx : BitVec 32 := 255
     let key : Bytes := []
     let s0 := begun c s a
     let inst := c.inst.toNat
     let id := table.toNat
     let t := ({ count := 256, size := 16 } : TableInfo)
     let i := 255
     instBusy s0 inst = false ∧ CmdRuns c 0x0701 s a ∧ targetOf inst id = some t ∧ placeOf s0 id t idx.toNat key = some i ∧ isValid (entAt s0 id inst i) = true) ∧
    (let c : Cmd := cmd
     let s : State := run 0x0701
     let a : Accepted := acc 0x0701
     let table : BitVec 16 := 2
     let idx : BitVec 32 := 255
     let key : Bytes := []
     let s0 := begun c s a
     let inst := c.inst.toNat
     let id := table.toNat
     let t := ({ count := 256, size := 16 } : TableInfo)
     let i := 255
     instBusy s0 inst = false ∧ CmdRuns c 0x0701 s a ∧ targetOf inst id = some t ∧ placeOf s0 id t idx.toNat key = some i ∧ isValid (entAt s0 id inst i) = false) ∧
    (let c : Cmd := cmd
     let s : State := run 0x0701 (full 1 ({ count := 262144, size := 16, keyLen := 8 } : TableInfo) [])
     let a : Accepted := acc 0x0701
     let table : BitVec 16 := 1
     let idx : BitVec 32 := 0
     let key : Bytes := []
     let s0 := begun c s a
     let inst := c.inst.toNat
     let id := table.toNat
     let t := ({ count := 262144, size := 16, keyLen := 8 } : TableInfo)
     instBusy s0 inst = false ∧ CmdRuns c 0x0701 s a ∧ targetOf inst id = some t ∧ placeOf s0 id t idx.toNat key = none ∧ t.keyLen ≠ 0 ∧ placeFor s0 id t key = none) ∧
    (let c : Cmd := cmd
     let s : State := run 0x0702
     let a : Accepted := acc 0x0702
     let table : BitVec 16 := 2
     let idx : BitVec 32 := 255
     let key : Bytes := []
     let s0 := begun c s a
     let inst := c.inst.toNat
     let id := table.toNat
     let t := ({ count := 256, size := 16 } : TableInfo)
     let i := 255
     instBusy s0 inst = false ∧ CmdRuns c 0x0702 s a ∧ targetOf inst id = some t ∧ (t.keyLen ≠ 0 ∨ idx.toNat < t.count) ∧ placeOf s0 id t idx.toNat key = some i ∧ isValid (entAt s0 id inst i) = false) ∧
    (let c : Cmd := cmd
     let s : State := run 0x0702 (entry 2 0 255)
     let a : Accepted := acc 0x0702
     let table : BitVec 16 := 2
     let idx : BitVec 32 := 255
     let key : Bytes := []
     let s0 := begun c s a
     let inst := c.inst.toNat
     let id := table.toNat
     let t := ({ count := 256, size := 16 } : TableInfo)
     let i := 255
     instBusy s0 inst = false ∧ CmdRuns c 0x0702 s a ∧ targetOf inst id = some t ∧ (t.keyLen ≠ 0 ∨ idx.toNat < t.count) ∧ placeOf s0 id t idx.toNat key = some i ∧ isValid (entAt s0 id inst i) = true) :=
  ⟨by decide +kernel, by decide +kernel, by decide +kernel, by decide +kernel, by decide +kernel, by decide +kernel⟩

/-- States that meet hypotheses of `Obligations.TableCommands`. -/
theorem test_meets_table_commands_2 :
    (let c : Cmd := cmd
     let s : State := run 0x0703
     let a : Accepted := acc 0x0703
     let s0 := begun c s a
     let inst := c.inst.toNat
     let list : Bytes := []
     let n : BitVec 16 := 64
     let b := checkItems inst list n.toNat { s := s0 }
     let k := 0
     let d := 2
     instBusy s0 inst = false ∧ CmdRuns c 0x0703 s a ∧ 1 ≤ n.toNat ∧ n.toNat ≤ 4096 ∧ b.failed = some (k, d)) ∧
    (let c : Cmd := cmd
     let s : State := run 0x0703
     let a : Accepted := acc 0x0703
     let table : BitVec 16 := 0
     let s0 := begun c s a
     let inst := c.inst.toNat
     let id := table.toNat
     let list : Bytes := ([1, 0, 2, 0] : Bytes)
     let n : BitVec 16 := 1
     let b := checkItems inst list n.toNat { s := s0 }
     instBusy s0 inst = false ∧ CmdRuns c 0x0703 s a ∧ 1 ≤ n.toNat ∧ n.toNat ≤ 4096 ∧ b.failed = none ∧ b.ops.any (fun o => isValid (entAt b.s o.id inst (opPlace b.s o))) = false) ∧
    (let c : Cmd := cmd
     let s : State := run 0x0703 (entry 2 0 0)
     let a : Accepted := acc 0x0703
     let table : BitVec 16 := 0
     let s0 := begun c s a
     let inst := c.inst.toNat
     let id := table.toNat
     let list : Bytes := ([1, 0, 2, 0] : Bytes)
     let n : BitVec 16 := 1
     let b := checkItems inst list n.toNat { s := s0 }
     instBusy s0 inst = false ∧ CmdRuns c 0x0703 s a ∧ 1 ≤ n.toNat ∧ n.toNat ≤ 4096 ∧ b.failed = none ∧ b.ops.any (fun o => isValid (entAt b.s o.id inst (opPlace b.s o))) = true) ∧
    (let c : Cmd := cmd
     let s : State := run 0x0704
     let a : Accepted := acc 0x0704
     let table : BitVec 16 := 2
     let idx : BitVec 32 := 0
     let key : Bytes := []
     let s0 := begun c s a
     let inst := c.inst.toNat
     let id := table.toNat
     let t := ({ count := 256, size := 16 } : TableInfo)
     let i := 0
     instBusy s0 inst = false ∧ CmdRuns c 0x0704 s a ∧ c.src ≠ .relay ∧ targetOf inst id = some t ∧ placeOf s0 id t idx.toNat key = some i) ∧
    (let c : Cmd := cmd
     let s : State := run 0x0701 (on.withTbl { on.tbl with waits := [{ aseq := 1, inst := 0, fence := 0, batch := false, ops := [] }] })
     let a : Accepted := acc 0x0701
     let s0 := begun c s a
     let inst := c.inst.toNat
     instBusy s0 inst = true ∧ CmdRuns c 0x0701 s a) ∧
    (let c : Cmd := cmd
     let s : State := run 0x0702 (on.withTbl { on.tbl with waits := [{ aseq := 1, inst := 0, fence := 0, batch := false, ops := [] }] })
     let a : Accepted := acc 0x0702
     let s0 := begun c s a
     let inst := c.inst.toNat
     instBusy s0 inst = true ∧ CmdRuns c 0x0702 s a) :=
  ⟨by decide +kernel, by decide +kernel, by decide +kernel, by decide +kernel, by decide +kernel, by decide +kernel⟩

/-- States that meet hypotheses of `Obligations.TableCommands`. -/
theorem test_meets_table_commands_3 :
    (let c : Cmd := cmd
     let s : State := run 0x0705
     let a : Accepted := acc 0x0705
     CmdRuns c 0x0705 s a ∧ c.src ≠ .relay) ∧
    (let c : Cmd := cmd
     let s : State := run 0x0706
     let a : Accepted := acc 0x0706
     let s0 := begun c s a
     CmdRuns c 0x0706 s a ∧ instBusy s0 0 = false) :=
  ⟨by decide +kernel, by decide +kernel⟩

/-- States that meet hypotheses of `Obligations.Courses`. -/
theorem test_meets_courses_1 :
    (let s : State := on
     let pier : PierNo := 0
     let p := pier.val
     let course : Fin 7 := 0
     let n : Nat := 0
     let k := course.val
     let x := courseOf s p k
     let run := if regField s .fsDemoteCfg 0 16 16 < x.window + n then x.overs + 1 else 0
     run ≠ 3) ∧
    (let s : State := setReg (course0 { overs := 2 }) .ftCfg 0 0
     let pier : PierNo := 3
     let p := pier.val
     let course : Fin 7 := 5
     let n : Nat := 0x100000
     let k := course.val
     let x := courseOf s p k
     let run := if regField s .fsDemoteCfg 0 16 16 < x.window + n then x.overs + 1 else 0
     run = 3 ∧ regField s .ftCfg 0 1 1 = 0) ∧
    (let s : State := setReg (course0 { overs := 2 }) .ftCfg 0 2
     let pier : PierNo := 3
     let p := pier.val
     let course : Fin 7 := 5
     let n : Nat := 0x100000
     let k := course.val
     let x := courseOf s p k
     let run := if regField s .fsDemoteCfg 0 16 16 < x.window + n then x.overs + 1 else 0
     run = 3 ∧ regField s .ftCfg 0 1 1 = 1 ∧ x.retired = false ∧ x.rebuilding = false) ∧
    (let s : State := on
     let pier : PierNo := 0
     let p := pier.val
     rebuildingCourse s p = none) ∧
    (let s : State := wake .course 27 (course0 { rebuilding := true })
     let pier : PierNo := 3
     let p := pier.val
     let k := 5
     let x := courseOf s p k
     let bank : Fin 64 := 63
     let off : BitVec 16 := 65535
     let i := 65536 * bank.val + off.toNat
     rebuildingCourse s p = some k ∧ x.copied ≤ i ∧ isAwake s .course (7 * p + 6) = true) ∧
    (let s : State := course0 { rebuilding := true, copied := 4194303 }
     let pier : PierNo := 3
     let p := pier.val
     let k := 5
     let x := courseOf s p k
     rebuildingCourse s p = some k ∧ x.copied < courseGranules) :=
  ⟨by decide +kernel, by decide +kernel, by decide +kernel, by decide +kernel, by decide +kernel, by decide +kernel⟩

/-- States that meet hypotheses of `Obligations.Courses`. -/
theorem test_meets_courses_2 :
    (let s : State := course0 { rebuilding := true, copied := 4194304 }
     let pier : PierNo := 3
     let p := pier.val
     let k := 5
     let x := courseOf s p k
     rebuildingCourse s p = some k ∧ courseGranules ≤ x.copied ∧ s.fs.lost.any (fun b => bucketPier s b == p) = false ∧ x.aseq = none) ∧
    (let s : State := (course0 { rebuilding := true, copied := 4194304 }).withFs { (course0 { rebuilding := true, copied := 4194304 }).fs with lost := [3 * 2 ^ 22] }
     let pier : PierNo := 3
     let p := pier.val
     let k := 5
     let x := courseOf s p k
     let bs := s.fs.lost.filter (fun b => bucketPier s b == p)
     rebuildingCourse s p = some k ∧ courseGranules ≤ x.copied ∧ bs ≠ []) ∧
    (let s : State := run 0x0F04
     let pier : PierNo := 3
     let p := pier.val
     let c : Cmd := cmd
     let a : Accepted := acc 0x0F04
     let course : BitVec 8 := 5
     let u : State := (retireCourse (begun cmd (run 0x0F04) (acc 0x0F04)) 3 5 1 (some 1)).1
     let s0 := begun c s a
     CmdRuns c 0x0F04 s a ∧ course.toNat < 6 ∧ (courseOf s0 p course.toNat).rebuilding = false ∧ (courseOf s0 p course.toNat).retired = false ∧ retireCourse s0 p course.toNat 1 (some a.aseq) = (u, true)) ∧
    (let s : State := run 0x0F04 (setCourse on 3 6 { retired := true })
     let pier : PierNo := 3
     let p := pier.val
     let c : Cmd := cmd
     let a : Accepted := acc 0x0F04
     let course : BitVec 8 := 5
     let u : State := (retireCourse (begun cmd (run 0x0F04 (setCourse on 3 6 { retired := true })) (acc 0x0F04)) 3 5 1 (some 1)).1
     let s0 := begun c s a
     CmdRuns c 0x0F04 s a ∧ course.toNat < 6 ∧ (courseOf s0 p course.toNat).rebuilding = false ∧ (courseOf s0 p course.toNat).retired = false ∧ retireCourse s0 p course.toNat 1 (some a.aseq) = (u, false)) :=
  ⟨by decide +kernel, by decide +kernel, by decide +kernel, by decide +kernel⟩

/-- States that meet hypotheses of `Obligations.DdrEvents`. -/
theorem test_meets_ddr_events_1 :
    (let s : State := ddr0 { st := .retraining, step := 14 }
     let ch : Fin 32 := 31
     let n := ch.val
     let x := ddrCh s n
     x.st = .retraining ∧ x.step < 15) ∧
    (let s : State := ddr0 { st := .retraining, step := 15 }
     let ch : Fin 32 := 31
     let n := ch.val
     let x := ddrCh s n
     x.st = .retraining ∧ x.step = 15) ∧
    (let s : State := ddr0 { st := .retraining }
     let ch : Fin 32 := 31
     let n := ch.val
     let x := ddrCh s n
     x.st = .retraining ∧ x.failed ≠ 1) ∧
    (let s : State := ddr0 { st := .retraining, failed := 1 }
     let ch : Fin 32 := 31
     let n := ch.val
     let x := ddrCh s n
     x.st = .retraining ∧ x.failed = 1) ∧
    (let s : State := on
     let ch : Fin 32 := 0
     let n := ch.val
     let x := ddrCh s n
     x.st ≠ .retraining ∧ x.st ≠ .inService) ∧
    (let s : State := on
     let ch : Fin 32 := 0
     let n := ch.val
     let x := ddrCh s n
     x.st ≠ .evacuating) :=
  ⟨by decide +kernel, by decide +kernel, by decide +kernel, by decide +kernel, by decide +kernel, by decide +kernel⟩

/-- States that meet hypotheses of `Obligations.DdrEvents`. -/
theorem test_meets_ddr_events_2 :
    (let s : State := ddr0 { st := .evacuating, evacuated := 2 ^ 40 }
     let ch : Fin 32 := 31
     let n := ch.val
     let x := ddrCh s n
     x.st = .evacuating ∧ granuleCount s ≤ nextGranule s n x.evacuated) ∧
    (let s : State := ddr0 { st := .evacuating }
     let ch : Fin 32 := 31
     let n := ch.val
     let x := ddrCh s n
     let g := nextGranule s n x.evacuated
     x.st = .evacuating ∧ g < granuleCount s) :=
  ⟨by decide +kernel, by decide +kernel⟩

/-- States that meet hypotheses of `Obligations.MemoryAndCounterCommands`. -/
theorem test_meets_memory_and_counter_commands_1 :
    (let c : Cmd := cmd
     let s : State := run 0x0C03
     let a : Accepted := acc 0x0C03
     let s0 := begun c s a
     let ch : BitVec 16 := 31
     let u := (sampleCounters s0 15 ch.toNat (List.range 5)).1
     let vs := (sampleCounters s0 15 ch.toNat (List.range 5)).2
     ch.toNat < 32 ∧ CmdRuns c 0x0C03 s a ∧ sampleCounters s0 15 ch.toNat (List.range 5) = (u, vs)) ∧
    (let c : Cmd := cmd
     let s : State := run 0x0C04 (ddr0 { st := .inService })
     let a : Accepted := acc 0x0C04
     let s0 := begun c s a
     let ch : BitVec 16 := 31
     ch.toNat < 32 ∧ CmdRuns c 0x0C04 s a ∧ (ddrCh s0 ch.toNat).st = .inService ∧ retraining s0 = false ∧ (ddrCh s0 ch.toNat).trainAseq = none) ∧
    (let c : Cmd := cmd
     let s : State := run 0x0C04
     let a : Accepted := acc 0x0C04
     let s0 := begun c s a
     let ch : BitVec 16 := 31
     ch.toNat < 32 ∧ CmdRuns c 0x0C04 s a ∧ (ddrCh s0 ch.toNat).st ≠ .inService ∧ (ddrCh s0 ch.toNat).st ≠ .retraining) ∧
    (let c : Cmd := cmd
     let s : State := run 0x0C05 ((ddr0 { st := .inService }).withFs { on.fs with tbSize := 32 })
     let a : Accepted := acc 0x0C05
     let s0 := begun c s a
     let ch : BitVec 16 := 31
     ch.toNat < 32 ∧ CmdRuns c 0x0C05 s a ∧ retireRefusal s0 ch.toNat = none) ∧
    (let c : Cmd := cmd
     let s : State := run 0x0C03
     let a : Accepted := acc 0x0C03
     let ch : BitVec 16 := 32
     32 ≤ ch.toNat ∧ CmdRuns c 0x0C03 s a) ∧
    (let c : Cmd := cmd
     let s : State := run 0x0C04
     let a : Accepted := acc 0x0C04
     let ch : BitVec 16 := 32
     32 ≤ ch.toNat ∧ CmdRuns c 0x0C04 s a) :=
  ⟨by decide +kernel, by decide +kernel, by decide +kernel, by decide +kernel, by decide +kernel, by decide +kernel⟩

/-- States that meet hypotheses of `Obligations.MemoryAndCounterCommands`. -/
theorem test_meets_memory_and_counter_commands_2 :
    (let c : Cmd := cmd
     let s : State := run 0x0C05
     let a : Accepted := acc 0x0C05
     let ch : BitVec 16 := 32
     32 ≤ ch.toNat ∧ CmdRuns c 0x0C05 s a) ∧
    (let c : Cmd := cmd
     let s : State := run 0x1101
     let a : Accepted := acc 0x1101
     CmdRuns c 0x1101 s a ∧ c.src ≠ .relay) ∧
    (let c : Cmd := cmd
     let s : State := run 0x1102
     let a : Accepted := acc 0x1102
     let s0 := begun c s a
     let list : Bytes := (List.range 64).flatMap (fun _ => le 8 1)
     let n : BitVec 8 := 64
     CmdRuns c 0x1102 s a ∧ c.src ≠ .relay ∧ n ≠ 0 ∧ n.toNat ≤ 64 ∧ (scanList list n.toNat).any (fun g => (groupVals s0 g.1 g.2).isNone) = false) ∧
    (let c : Cmd := cmd
     let s : State := run 0x1103
     let a : Accepted := acc 0x1103
     let s0 := begun c s a
     let mask : BitVec 64 := 0
     let action : BitVec 8 := 2
     CmdRuns c 0x1103 s a ∧ action.toNat ≤ 2 ∧ (action ≠ 0 ∨ (maskPmcs mask).any (badFilter s0) = false)) ∧
    (let c : Cmd := cmd
     let s : State := run 0x1104
     let a : Accepted := acc 0x1104
     CmdRuns c 0x1104 s a ∧ c.src ≠ .relay) :=
  ⟨by decide +kernel, by decide +kernel, by decide +kernel, by decide +kernel, by decide +kernel⟩

/-- States that meet hypotheses of `Obligations.Time`. -/
theorem test_meets_time_1 :
    (let c : Cmd := cmd
     let s : State := run 0x0A01
     let a : Accepted := acc 0x0A01
     let dom : BitVec 8 := 1
     CmdRuns c 0x0A01 s a ∧ dom.toNat < 2) ∧
    (let c : Cmd := cmd
     let s : State := run 0x0A02
     let a : Accepted := acc 0x0A02
     let dom : BitVec 8 := 1
     CmdRuns c 0x0A02 s a ∧ dom.toNat < 2) ∧
    (let c : Cmd := cmd
     let s : State := run 0x0A03 (on.withTime { on.time with dom1 := { st := .locked } })
     let a : Accepted := acc 0x0A03
     let s0 := begun c s a
     let alt := domainOf s0.time (1 - primaryDom s0)
     let lim : Int := ((max 1 (regField s0 .timeLimitCfg 0 20 12) * 1000 * 4294967296 : Nat) : Int)
     CmdRuns c 0x0A03 s a ∧ alt.st = .locked ∧ timeGap alt.t (primaryTime s0) ≤ lim) ∧
    (let c : Cmd := cmd
     let s : State := run 0x0A03
     let a : Accepted := acc 0x0A03
     let s0 := begun c s a
     let alt := domainOf s0.time (1 - primaryDom s0)
     CmdRuns c 0x0A03 s a ∧ alt.st ≠ .locked) ∧
    (let c : Cmd := cmd
     let s : State := run 0x0A03 (on.withTime { on.time with dom1 := { t := 2 ^ 80, st := .locked } })
     let a : Accepted := acc 0x0A03
     let s0 := begun c s a
     let alt := domainOf s0.time (1 - primaryDom s0)
     let lim : Int := ((max 1 (regField s0 .timeLimitCfg 0 20 12) * 1000 * 4294967296 : Nat) : Int)
     CmdRuns c 0x0A03 s a ∧ lim < timeGap alt.t (primaryTime s0)) ∧
    (let c : Cmd := cmd
     let s : State := run 0x0A04
     let a : Accepted := acc 0x0A04
     CmdRuns c 0x0A04 s a ∧ c.src ≠ .relay) :=
  ⟨by decide +kernel, by decide +kernel, by decide +kernel, by decide +kernel, by decide +kernel, by decide +kernel⟩

/-- States that meet hypotheses of `Obligations.Time`. -/
theorem test_meets_time_2 :
    (let c : Cmd := cmd
     let s : State := run 0x0A05
     let a : Accepted := acc 0x0A05
     let s0 := begun c s a
     let out : BitVec 8 := 3
     let role : BitVec 8 := 0
     let mode : BitVec 8 := 0
     let secs : BitVec 64 := 0
     let ns : BitVec 32 := 999999999
     let period : BitVec 32 := 100
     let width : BitVec 32 := 10
     let pol : BitVec 8 := 0
     let p : PulsePattern :=
             { alternate := role == 1, mode := mode.toNat, start := secs.toNat * 1000000000 + ns.toNat
               period := period.toNat, width := width.toNat, polarity := pol == 1 }
     let now := acceptTime s0 a.aseq p.alternate
     CmdRuns c 0x0A05 s a ∧ out.toNat < 4 ∧ role.toNat < 2 ∧ mode.toNat < 3 ∧ pol.toNat < 2 ∧ ns.toNat < 1000000000 ∧ pulseOk p now = true) ∧
    (let c : Cmd := cmd
     let s : State := run 0x0A06
     let a : Accepted := acc 0x0A06
     let inp : BitVec 8 := 3
     let edges : BitVec 8 := 2
     let role : BitVec 8 := 1
     let on : BitVec 8 := 0
     CmdRuns c 0x0A06 s a ∧ inp.toNat < 4 ∧ edges.toNat < 3 ∧ role.toNat < 2 ∧ on.toNat < 2) ∧
    (let s : State := on.withTime { on.time with dom1 := { st := .locked } }
     let dom : Fin 2 := 1
     (domainOf s.time dom.val).st = .locked) ∧
    (let s : State := on.withTime { on.time with dom1 := { st := .locking } }
     let dom : Fin 2 := 1
     (domainOf s.time dom.val).st = .locking) ∧
    (let s : State := setReg on .timePpsCfg 0 1
     regField s .timePpsCfg 0 0 1 ≠ 0) ∧
    (let s : State := on.withTime { on.time with caps := [(3, { enabled := true, edges := 2, lastAt := some 0 })] }
     let inp : Fin 4 := 3
     let x := captureAt s inp.val
     let t := 0
     x.enabled = true ∧ x.edges = 2 ∧ x.lastAt = some t ∧ s.clk.cc < t + 1500) :=
  ⟨by decide +kernel, by decide +kernel, by decide +kernel, by decide +kernel, by decide +kernel, by decide +kernel⟩

/-- States that meet hypotheses of `Obligations.Time`. -/
theorem test_meets_time_3 :
    (let s : State := on.withTime { on.time with caps := [(3, { enabled := true, edges := 2 })] }
     let inp : Fin 4 := 3
     let x := captureAt s inp.val
     x.enabled = true ∧ x.edges = 2 ∧ x.lastAt = none) :=
  by decide +kernel

/-- States that meet hypotheses of `Obligations.WakingAndSleep`. -/
theorem test_meets_waking_and_sleep_1 :
    (let s : State := on.withPwr { on.pwr with queue := [({ cls := 3, kind := .slice, nums := [0], credits := 64, queuedAt := 0 } : WakeReq)] }
     let r := ({ cls := 3, kind := .slice, nums := [0], credits := 64, queuedAt := 0 } : WakeReq)
     s.pwr.queue.find? (fun r => !passedOver s r) = some r ∧ s.pwr.used + r.credits ≤ 64) ∧
    (let s : State := on.withPwr { on.pwr with queue := [({ cls := 3, kind := .slice, nums := [0], credits := 5, queuedAt := 0 } : WakeReq)], used := 60 }
     let r := ({ cls := 3, kind := .slice, nums := [0], credits := 5, queuedAt := 0 } : WakeReq)
     s.pwr.queue.find? (fun r => !passedOver s r) = some r ∧ 64 < s.pwr.used + r.credits) ∧
    (let s : State := on.withPwr { on.pwr with grants := [4], used := 4 }
     let x := 4
     let xs := []
     s.pwr.grants = x :: xs) ∧
    (let s : State := on
     let k : BlockKind := .slice
     let n : Nat := 0
     let b := blkAt s k n
     b.st ≠ .waking) ∧
    (let s : State := setBlk on .slice 16 { st := .waking }
     let k : BlockKind := .slice
     let n : Nat := 16
     let b := blkAt s k n
     b.st = .waking ∧ k = .slice) ∧
    (let s : State := setBlk on .lane 767 { st := .waking }
     let k : BlockKind := .lane
     let n : Nat := 767
     let b := blkAt s k n
     b.st = .waking ∧ k ≠ .slice ∧ k ≠ .engine) :=
  ⟨by decide +kernel, by decide +kernel, by decide +kernel, by decide +kernel, by decide +kernel, by decide +kernel⟩

/-- States that meet hypotheses of `Obligations.WakingAndSleep`. -/
theorem test_meets_waking_and_sleep_2 :
    (let s : State := setBlk on .lane 767 { st := .waking }
     let k : BlockKind := .lane
     let n : Nat := 767
     let b := blkAt s k n
     b.st = .waking ∧ b.late = false) ∧
    (let s : State := setBlk on .lane 767 { st := .waking, late := true }
     let k : BlockKind := .lane
     let n : Nat := 767
     let b := blkAt s k n
     b.st = .waking ∧ b.late = true) ∧
    (let s : State := setBlk on .engine 127 { st := .awake }
     let k : BlockKind := .engine
     let n : Nat := 127
     let power : Bool := false
     let deep := sleepTarget k power == .powerGated
     n < kindCount k ∧ maySleep s k n = true ∧ blockIdle s k n deep = true) ∧
    (let s : State := eight { st := .ready } on
     let k : BlockKind := .engine
     let n : Nat := 0
     let power : Bool := false
     let deep := sleepTarget k power == .powerGated
     n < kindCount k ∧ blockIdle s k n deep = false) ∧
    (let temps : List Int := [114]
     ((∀ t ∈ temps, t < 115))) ∧
    (let s : State := run 0x0D01
     let k : BlockKind := .slice
     let c : Cmd := cmd
     let a : Accepted := acc 0x0D01
     let kind : BitVec 8 := BitVec.ofNat 8 (kindCode .slice)
     let num : BitVec 16 := 16
     namedBlock kind num = some k ∧ CmdRuns c 0x0D01 s a) :=
  ⟨by decide +kernel, by decide +kernel, by decide +kernel, by decide +kernel, by decide +kernel, by decide +kernel⟩

/-- States that meet hypotheses of `Obligations.WakingAndSleep`. -/
theorem test_meets_waking_and_sleep_3 :
    (let s : State := run 0x0D02 (wake .slice 16)
     let k : BlockKind := .slice
     let c : Cmd := cmd
     let a : Accepted := acc 0x0D02
     let kind : BitVec 8 := BitVec.ofNat 8 (kindCode .slice)
     let num : BitVec 16 := 16
     let s0 := begun c s a
     let x := blkAt s0 k num.toNat
     namedBlock kind num = some k ∧ CmdRuns c 0x0D02 s a ∧ x.st = .awake) ∧
    (let s : State := run 0x0D02 (setBlk on .slice 16 { st := .gone })
     let k : BlockKind := .slice
     let c : Cmd := cmd
     let a : Accepted := acc 0x0D02
     let kind : BitVec 8 := BitVec.ofNat 8 (kindCode .slice)
     let num : BitVec 16 := 16
     let s0 := begun c s a
     let x := blkAt s0 k num.toNat
     namedBlock kind num = some k ∧ CmdRuns c 0x0D02 s a ∧ x.st = .gone) ∧
    (let s : State := run 0x0D02 (setReg on .portCfg 95 4)
     let k : BlockKind := .lane
     let c : Cmd := cmd
     let a : Accepted := acc 0x0D02
     let kind : BitVec 8 := BitVec.ofNat 8 (kindCode .lane)
     let num : BitVec 16 := 767
     let s0 := begun c s a
     let x := blkAt s0 k num.toNat
     namedBlock kind num = some k ∧ CmdRuns c 0x0D02 s a ∧ x.st ≠ .awake ∧ askable s0 k [num.toNat] = []) ∧
    (let s : State := run 0x0D02
     let k : BlockKind := .slice
     let c : Cmd := cmd
     let a : Accepted := acc 0x0D02
     let kind : BitVec 8 := BitVec.ofNat 8 (kindCode .slice)
     let num : BitVec 16 := 16
     let s0 := begun c s a
     let x := blkAt s0 k num.toNat
     namedBlock kind num = some k ∧ CmdRuns c 0x0D02 s a ∧ x.st ≠ .awake ∧ x.st ≠ .gone ∧ askable s0 k [num.toNat] ≠ []) ∧
    (let s : State := run 0x0D03
     let k : BlockKind := .slice
     let c : Cmd := cmd
     let a : Accepted := acc 0x0D03
     let kind : BitVec 8 := BitVec.ofNat 8 (kindCode .slice)
     let num : BitVec 16 := 16
     let hold : BitVec 8 := 1
     namedBlock kind num = some k ∧ CmdRuns c 0x0D03 s a ∧ hold.toNat < 2) ∧
    (let s : State := run 0x0D04
     let k : BlockKind := .slice
     let c : Cmd := cmd
     let a : Accepted := acc 0x0D04
     let kind : BitVec 8 := BitVec.ofNat 8 (kindCode .slice)
     let num : BitVec 16 := 16
     namedBlock kind num = some k ∧ CmdRuns c 0x0D04 s a ∧ c.src ≠ .relay) :=
  ⟨by decide +kernel, by decide +kernel, by decide +kernel, by decide +kernel, by decide +kernel, by decide +kernel⟩

/-- States that meet hypotheses of `Obligations.WakingAndSleep`. -/
theorem test_meets_waking_and_sleep_4 :
    (let s : State := run 0x0D05
     let k : BlockKind := .slice
     let c : Cmd := cmd
     let a : Accepted := acc 0x0D05
     let kind : BitVec 8 := BitVec.ofNat 8 (kindCode .slice)
     let num : BitVec 16 := 16
     namedBlock kind num = some k ∧ CmdRuns c 0x0D05 s a) :=
  by decide +kernel

/-- States that meet hypotheses of `Obligations.FaultEvents`. -/
theorem test_meets_fault_events_1 :
    (let s : State := on.withFt { on.ft with switch := some { grp := 0, src := 0, dst := 16, aseq := 1, begun := true } }
     let m := { grp := 0, src := 0, dst := 16, aseq := 1, begun := true }
     s.ft.switch = some m ∧ m.begun = true ∧ holdsUnjudged s m.src = false) ∧
    (let s : State := on.withFt { on.ft with switch := some { grp := 0, src := 0, dst := 16, aseq := 1, begun := false } }
     let m := { grp := 0, src := 0, dst := 16, aseq := 1, begun := false }
     s.ft.switch = some m ∧ (m.begun = false ∨ holdsUnjudged s m.src = true)) ∧
    (let s : State := on
     s.ft.switch = none) ∧
    (let s : State := on.withFt { on.ft with selfTest := some (15, 1) }
     let n := 15
     let aseq := 1
     s.ft.selfTest = some (n, aseq)) ∧
    (let s : State := on.withFt { on.ft with selfTest := some (15, 1), joined := [(15, some 16)] }
     let n := 15
     let aseq := 1
     let u := s.withFt { s.ft with selfTest := none }
     s.ft.selfTest = some (n, aseq) ∧ servingSlice u n = some 16) ∧
    (let s : State := on.withFt { on.ft with selfTest := some (15, 1) }
     let n := 15
     let aseq := 1
     let u := s.withFt { s.ft with selfTest := none }
     s.ft.selfTest = some (n, aseq) ∧ servingSlice u n ≠ some 16) :=
  ⟨by decide +kernel, by decide +kernel, by decide +kernel, by decide +kernel, by decide +kernel, by decide +kernel⟩

/-- States that meet hypotheses of `Obligations.FaultEvents`. -/
theorem test_meets_fault_events_2 :
    (let s : State := setReg (on.withFt { on.ft with recals := [{ port := 95, lane := 7, path := 2, aseq := 1 }] }) .portCfg 95 4
     let lane : LaneNo := 767
     let r : Recal := { port := 95, lane := 7, path := 2, aseq := 1 }
     let rest : List Recal := []
     takeFirst (fun (r : Recal) => r.port * 8 + r.lane == lane.val) s.ft.recals = some (r, rest) ∧ laneSub s lane.val = none) ∧
    (let s : State := on.withFt { on.ft with reclaim := some (1, 1) }
     let t := 1
     let aseq := 1
     s.ft.reclaim = some (t, aseq)) :=
  ⟨by decide +kernel, by decide +kernel⟩

/-- States that meet hypotheses of `Obligations.FaultCommands`. -/
theorem test_meets_fault_commands_1 :
    (let c : Cmd := cmd
     let s : State := run 0x0F01
     let a : Accepted := acc 0x0F01
     CmdRuns c 0x0F01 s a ∧ c.src ≠ .relay) ∧
    (let c : Cmd := cmd
     let s : State := run 0x0F02 (setSlice on 16 { retired := true })
     let a : Accepted := acc 0x0F02
     let s0 := begun c s a
     let slice : BitVec 8 := 15
     CmdRuns c 0x0F02 s a ∧ slice.toNat < 16 ∧ (sliceAt s0 slice.toNat).retired = false ∧ s0.ft.switch = none ∧ s0.ft.selfTest = none ∧ s0.ft.waitAseq = none ∧ spareFree s0 = false) ∧
    (let c : Cmd := cmd
     let s : State := run 0x0F02 (joined 15 none)
     let a : Accepted := acc 0x0F02
     let s0 := begun c s a
     let slice : BitVec 8 := 15
     let n := slice.toNat
     CmdRuns c 0x0F02 s a ∧ slice.toNat < 16 ∧ (sliceAt s0 slice.toNat).retired = false ∧ s0.ft.switch = none ∧ s0.ft.selfTest = none ∧ s0.ft.waitAseq = none ∧ spareFree s0 = true ∧ servingSlice s0 n = none) ∧
    (let c : Cmd := cmd
     let s : State := run 0x0F02
     let a : Accepted := acc 0x0F02
     let s0 := begun c s a
     let slice : BitVec 8 := 15
     let n := slice.toNat
     let k := 15
     CmdRuns c 0x0F02 s a ∧ slice.toNat < 16 ∧ (sliceAt s0 slice.toNat).retired = false ∧ s0.ft.switch = none ∧ s0.ft.selfTest = none ∧ s0.ft.waitAseq = none ∧ spareFree s0 = true ∧ servingSlice s0 n = some k) ∧
    (let c : Cmd := cmd
     let s : State := run 0x0F02 (joined 15 (some 16))
     let a : Accepted := acc 0x0F02
     let s0 := begun c s a
     let slice : BitVec 8 := 15
     let n := slice.toNat
     CmdRuns c 0x0F02 s a ∧ slice.toNat < 16 ∧ (sliceAt s0 slice.toNat).retired = false ∧ s0.ft.switch = none ∧ s0.ft.selfTest = none ∧ s0.ft.waitAseq = none ∧ servingSlice s0 n ≠ some n) ∧
    (let c : Cmd := cmd
     let s : State := run 0x0F02
     let a : Accepted := acc 0x0F02
     let s0 := begun c s a
     let slice : BitVec 8 := 15
     let n := slice.toNat
     CmdRuns c 0x0F02 s a ∧ slice.toNat < 16 ∧ (sliceAt s0 slice.toNat).retired = false ∧ s0.ft.switch = none ∧ s0.ft.selfTest = none ∧ s0.ft.waitAseq = none ∧ servingSlice s0 n = some n) :=
  ⟨by decide +kernel, by decide +kernel, by decide +kernel, by decide +kernel, by decide +kernel, by decide +kernel⟩

/-- States that meet hypotheses of `Obligations.FaultCommands`. -/
theorem test_meets_fault_commands_2 :
    (let c : Cmd := cmd
     let s : State := run 0x0F03 (setReg on .clusterMap 15 0)
     let a : Accepted := acc 0x0F03
     let s0 := begun c s a
     let cl : BitVec 8 := 15
     CmdRuns c 0x0F03 s a ∧ cl.toNat < 16 ∧ clusterPhys s0 cl.toNat = none ∧ spareWorks s0 = true ∧ s0.ft.remap = none ∧ (List.range 16).any (fun d => clusterPhys s0 d == some 16) = false) ∧
    (let c : Cmd := cmd
     let s : State := run 0x0F05 (on.withFt { on.ft with recals := [{ port := 95, lane := 7, path := 2, aseq := 1 }] })
     let a : Accepted := acc 0x0F05
     let s0 := begun c s a
     let port : BitVec 16 := 95
     let lane : BitVec 8 := 7
     CmdRuns c 0x0F05 s a ∧ port.toNat < 96 ∧ lane.toNat < 8 ∧ s0.ft.recals.any (fun r => r.port == port.toNat) = true) ∧
    (let c : Cmd := cmd
     let s : State := run 0x0F05
     let a : Accepted := acc 0x0F05
     let s0 := begun c s a
     let port : BitVec 16 := 95
     let lane : BitVec 8 := 7
     let l := port.toNat * 8 + lane.toNat
     let inUse := (laneSub s0 l).filter (fun n => (subAt s0 n).up && (usedLanes s0 n).contains l)
     CmdRuns c 0x0F05 s a ∧ port.toNat < 96 ∧ lane.toNat < 8 ∧ s0.ft.recals.any (fun r => r.port == port.toNat) = false ∧ inUse = none) ∧
    (let c : Cmd := cmd
     let s : State := run 0x0F05 (sub0 { up := true, width := 1 })
     let a : Accepted := acc 0x0F05
     let s0 := begun c s a
     let port : BitVec 16 := 0
     let lane : BitVec 8 := 0
     let l := port.toNat * 8 + lane.toNat
     let inUse := (laneSub s0 l).filter (fun n => (subAt s0 n).up && (usedLanes s0 n).contains l)
     let n := 0
     CmdRuns c 0x0F05 s a ∧ port.toNat < 96 ∧ lane.toNat < 8 ∧ s0.ft.recals.any (fun r => r.port == port.toNat) = false ∧ inUse = some n ∧ recalNarrows s0 n l = false) ∧
    (let c : Cmd := cmd
     let s : State := run 0x0F05 (sub0 { up := true, width := 1 })
     let a : Accepted := acc 0x0F05
     let s0 := begun c s a
     let port : BitVec 16 := 0
     let lane : BitVec 8 := 0
     let force : BitVec 8 := 1
     let l := port.toNat * 8 + lane.toNat
     let inUse := (laneSub s0 l).filter (fun n => (subAt s0 n).up && (usedLanes s0 n).contains l)
     let n := 0
     CmdRuns c 0x0F05 s a ∧ port.toNat < 96 ∧ lane.toNat < 8 ∧ s0.ft.recals.any (fun r => r.port == port.toNat) = false ∧ inUse = some n ∧ recalNarrows s0 n l = false ∧ force ≠ 0) ∧
    (let c : Cmd := cmd
     let s : State := run 0x0F06 (on.withImg { on.img with staged := some {} })
     let a : Accepted := acc 0x0F06
     let s0 := begun c s a
     let port : BitVec 16 := 95
     let i : ImgInfo := {}
     CmdRuns c 0x0F06 s a ∧ port.toNat < 96 ∧ s0.img.staged = some i) :=
  ⟨by decide +kernel, by decide +kernel, by decide +kernel, by decide +kernel, by decide +kernel, by decide +kernel⟩

/-- States that meet hypotheses of `Obligations.FaultCommands`. -/
theorem test_meets_fault_commands_3 :
    (let c : Cmd := cmd
     let s : State := run 0x0F06
     let a : Accepted := acc 0x0F06
     let s0 := begun c s a
     let port : BitVec 16 := 0
     CmdRuns c 0x0F06 s a ∧ port.toNat < 96 ∧ s0.img.staged = none) ∧
    (let c : Cmd := cmd
     let s : State := run 0x0F07
     let a : Accepted := acc 0x0F07
     let s0 := begun c s a
     let tag : BitVec 8 := 255
     CmdRuns c 0x0F07 s a ∧ tagQuiet s0 tag.toNat = none) ∧
    (let c : Cmd := cmd
     let s : State := run 0x0F07
     let a : Accepted := acc 0x0F07
     let s0 := begun c s a
     let tag : BitVec 8 := 16
     CmdRuns c 0x0F07 s a ∧ tagQuiet s0 tag.toNat = some true ∧ s0.ft.reclaim = none) ∧
    (let c : Cmd := cmd
     let s : State := run 0x0F07 (wake .slice 16 on)
     let a : Accepted := acc 0x0F07
     let s0 := begun c s a
     let tag : BitVec 8 := 16
     CmdRuns c 0x0F07 s a ∧ tagQuiet s0 tag.toNat = some false ∧ s0.ft.reclaim = none) :=
  ⟨by decide +kernel, by decide +kernel, by decide +kernel, by decide +kernel⟩

/-- An image whose header gives a payload of no bytes. -/
def image0 : ImageLoc := { space := 0, addr := 0, host := List.replicate 384 0 }

/-- States that meet hypotheses of `Obligations.Images`. -/
theorem test_meets_images_queued :
    (let s0 := begun cmd (run 0x0201) (acc 0x0201)
     CmdRuns cmd 0x0201 (run 0x0201) (acc 0x0201) ∧ s0.seq.swap = none ∧
       ∃ t, queueCheck s0 1 2 0xFFFF .mailbox image0 = .later t) ∧
    (let s0 := begun cmd (run 0x0802) (acc 0x0802)
     CmdRuns cmd 0x0802 (run 0x0802) (acc 0x0802) ∧ (physOf s0 127).isSome = true ∧ engDrained (engAt s0 127) = true ∧
       ∃ t, queueCheck s0 1 3 127 .mailbox image0 = .later t) ∧
    (CmdRuns cmd 0x1001 (run 0x1001) (acc 0x1001) ∧
      ∃ t, queueCheck (begun cmd (run 0x1001) (acc 0x1001)) 1 4 0xFFFF .mailbox image0 = .later t) ∧
    (CmdRuns cmd 0x1002 (run 0x1002) (acc 0x1002) ∧
      ∃ t, queueCheck (begun cmd (run 0x1002) (acc 0x1002)) 1 1 0 .mailbox image0 = .later t) :=
  ⟨⟨by decide, by decide, _, rfl⟩, ⟨by decide, by decide, by decide, _, rfl⟩, ⟨by decide, _, rfl⟩, by decide, _, rfl⟩

/-- States that meet hypotheses of `Obligations.Images`. -/
theorem test_meets_images_1 :
    (let c : Cmd := cmd
     let s : State := run 0x0201 (on.withSeq { on.seq with swap := some { boundary := 0, aseq := 1 } })
     let a : Accepted := acc 0x0201
     let s0 := begun c s a
     CmdRuns c 0x0201 s a ∧ s0.seq.swap ≠ none) ∧
    (let c : Cmd := cmd
     let s : State := run 0x0802 (setEng on 127 { image := some 0 })
     let a : Accepted := acc 0x0802
     let s0 := begun c s a
     let en : BitVec 16 := 127
     CmdRuns c 0x0802 s a ∧ en.toNat < 128 ∧ (physOf s0 en.toNat).isSome = true ∧ engDrained (engAt s0 en.toNat) = false) ∧
    (let c : Cmd := cmd
     let s : State := run 0x1003 (on.withImg { on.img with checks := [{ aseq := 1, kind := 2, target := 0, image := [] }] })
     let a : Accepted := acc 0x1003
     let s0 := begun c s a
     CmdRuns c 0x1003 s a ∧ s0.img.checks ≠ []) ∧
    (let c : Cmd := cmd
     let s : State := run 0x1003
     let a : Accepted := acc 0x1003
     let s0 := begun c s a
     CmdRuns c 0x1003 s a ∧ s0.img.checks = [] ∧ s0.img.flashing = none ∧ s0.img.checked = none) ∧
    (let c : Cmd := cmd
     let s : State := run 0x1003 (on.withImg { on.img with checked := some ({}, 2) })
     let a : Accepted := acc 0x1003
     let s0 := begun c s a
     let i := {}
     let slot := 2
     CmdRuns c 0x1003 s a ∧ s0.img.checks = [] ∧ s0.img.flashing = none ∧ s0.img.checked = some (i, slot)) ∧
    (let s : State := on.withImg { on.img with restart := some (1, {}, 1) }
     let aseq := 1
     let i := {}
     let slot := 1
     s.img.restart = some (aseq, i, slot) ∧ slot < 2) :=
  ⟨by decide +kernel, by decide +kernel, by decide +kernel, by decide +kernel, by decide +kernel, by decide +kernel⟩

/-- States that meet hypotheses of `Obligations.Images`. -/
theorem test_meets_images_2 :
    (let s : State := on.withImg { on.img with restart := some (1, {}, 2) }
     let aseq := 1
     let i := {}
     let slot := 2
     s.img.restart = some (aseq, i, slot)) ∧
    (let c : Cmd := cmd
     let s : State := run 0x1004
     let a : Accepted := acc 0x1004
     let s0 := begun c s a
     CmdRuns c 0x1004 s a ∧ s0.img.quote = none) ∧
    (let s : State := on.withImg { on.img with quote := some { aseq := 1, body := [], addr := 0, draw := 0 } }
     let q := ({ aseq := 1, body := [], addr := 0, draw := 0 } : Quote)
     s.img.quote = some q ∧ s.img.restart = none) ∧
    (let c : Cmd := cmd
     let s : State := run 0x1005
     let a : Accepted := acc 0x1005
     let n : BitVec 8 := 50
     CmdRuns c 0x1005 s a ∧ c.src ≠ .relay ∧ 0 < n.toNat ∧ n.toNat ≤ 50) ∧
    (let c : Cmd := cmd
     let s : State := run 0x1006
     let a : Accepted := acc 0x1006
     CmdRuns c 0x1006 s a ∧ c.src ≠ .relay) ∧
    (let c : Cmd := cmd
     let s : State := run 0x1007
     let a : Accepted := acc 0x1007
     CmdRuns c 0x1007 s a ∧ c.src ≠ .relay) :=
  ⟨by decide +kernel, by decide +kernel, by decide +kernel, by decide +kernel, by decide +kernel, by decide +kernel⟩

/-- States that meet hypotheses of `Obligations.Images`. -/
theorem test_meets_images_3 :
    (let s : State := on.withImg { on.img with flashing := some (1, 1) }
     let aseq := 1
     let slot := 1
     s.img.flashing = some (aseq, slot)) :=
  by decide +kernel

/-- States that meet hypotheses of `Obligations.FlowCommands`. -/
theorem test_meets_flow_commands_1 :
    (let c : Cmd := cmd
     let s : State := run 0x0501
     let a : Accepted := acc 0x0501
     let s0 := begun c s a
     CmdRuns c 0x0501 s a ∧ s0.fs.formatting = none ∧ tierBOk s0 = true) ∧
    (let c : Cmd := cmd
     let s : State := run 0x0501 (setReg on .fsTierbCfg 0 0x8000)
     let a : Accepted := acc 0x0501
     let s0 := begun c s a
     CmdRuns c 0x0501 s a ∧ s0.fs.formatting = none ∧ tierBOk s0 = false) ∧
    (let s : State := on.withFs { on.fs with formatting := some 1 }
     let x := 1
     s.fs.formatting = some x) :=
  ⟨by decide +kernel, by decide +kernel, by decide +kernel⟩

/-- States that meet hypotheses of `Obligations.FlowCommands`. -/
theorem test_meets_flow_commands_2 :
    (let c : Cmd := cmd
     let s : State := run 0x0505 (setRec (hot on) 0 (paste (List.replicate 128 0) 105 [2]))
     let a : Accepted := acc 0x0505
     let key : Bytes := []
     let s0 := begun c s a
     let n := 0
     promotingKey s0 key = none ∧ demotingKey s0 key = none ∧ placeOfKey s0 key = some (.hot n) ∧ CmdRuns c 0x0505 s a ∧ bit (recFlags (recAt s0 n)) 1 = true) ∧
    (let c : Cmd := cmd
     let s : State := run 0x0505 (hot (on.withFs { on.fs with tbSize := 1 }))
     let a : Accepted := acc 0x0505
     let key : Bytes := []
     let s0 := begun c s a
     let n := 0
     promotingKey s0 key = none ∧ demotingKey s0 key = none ∧ placeOfKey s0 key = some (.hot n) ∧ CmdRuns c 0x0505 s a ∧ bit (recFlags (recAt s0 n)) 1 = false ∧ tierAOnly s0 (recTenant (recAt s0 n)) = false ∧ s0.fs.tbSize ≠ 0 ∧ slotPend s0 n = false ∧ takingCold s0 n = false) ∧
    (let c : Cmd := cmd
     let s : State := run 0x0505 (hot (on.withFs { on.fs with dems := [{ dem with slot := 0 }] }))
     let a : Accepted := acc 0x0505
     let key : Bytes := List.replicate 40 0
     let s0 := begun c s a
     CmdRuns c 0x0505 s a ∧ (promotingKey s0 key ≠ none ∨ demotingKey s0 key ≠ none)) :=
  ⟨by decide +kernel, by decide +kernel, by decide +kernel⟩

/-- States that meet hypotheses of `Obligations.FlowCommands`. -/
theorem test_meets_flow_commands_3 :
    (let c : Cmd := cmd
     let s : State := run 0x0601
     let a : Accepted := acc 0x0601
     CmdRuns c 0x0601 s a) ∧
    (let c : Cmd := cmd
     let s : State := run 0x0602
     let a : Accepted := acc 0x0602
     let key : Bytes := []
     let s0 := begun c s a
     CmdRuns c 0x0602 s a ∧ delTarget s0 key = .missing) ∧
    (let c : Cmd := cmd
     let s : State := run 0x0602 (setIdx on 0 (ixMake 0 0 0 0 true))
     let a : Accepted := acc 0x0602
     let key : Bytes := []
     let s0 := begun c s a
     CmdRuns c 0x0602 s a ∧ delTarget s0 key = .busy) :=
  ⟨by decide +kernel, by decide +kernel, by decide +kernel⟩

/-- States that meet hypotheses of `Obligations.FlowCommands`. -/
theorem test_meets_flow_commands_4 :
    (let c : Cmd := cmd
     let s : State := run 0x0602 (on.withFs { on.fs with fetches := [{ id := 0, serial := 0, key := [], cold := some 0, slot := some 0 }] })
     let a : Accepted := acc 0x0602
     let key : Bytes := []
     let s0 := begun c s a
     CmdRuns c 0x0602 s a ∧ delTarget s0 key = .promoted) ∧
    (let c : Cmd := cmd
     let s : State := run 0x0602 (hot on)
     let a : Accepted := acc 0x0602
     let key : Bytes := []
     let s0 := begun c s a
     let n := 0
     CmdRuns c 0x0602 s a ∧ delTarget s0 key = .hot n) ∧
    (let c : Cmd := cmd
     let s : State := run 0x0602 (cold on)
     let a : Accepted := acc 0x0602
     let key : Bytes := []
     let s0 := begun c s a
     let k := 0
     CmdRuns c 0x0602 s a ∧ delTarget s0 key = .cold k) :=
  ⟨by decide +kernel, by decide +kernel, by decide +kernel⟩

/-- States that meet hypotheses of `Obligations.FlowCommands`. -/
theorem test_meets_flow_commands_5 :
    (let c : Cmd := cmd
     let s : State := run 0x0603
     let a : Accepted := acc 0x0603
     let s0 := begun c s a
     let ten : BitVec 16 := 0
     CmdRuns c 0x0603 s a ∧ purgeKeys s0 ten.toNat = []) ∧
    (let c : Cmd := cmd
     let s : State := run 0x0603 (setRec (hot on) 0 [])
     let a : Accepted := acc 0x0603
     let s0 := begun c s a
     let ten : BitVec 16 := 0
     CmdRuns c 0x0603 s a ∧ purgeKeys s0 ten.toNat ≠ []) ∧
    (let c : Cmd := cmd
     let s : State := run 0x0604 (setReg on .flowPolicyCfg 0 0x1000)
     let a : Accepted := acc 0x0604
     let s0 := begun c s a
     let table : BitVec 16 := 0x30
     let idx : BitVec 32 := 4095
     let t : TableInfo := ({ count := 4096, size := 64 } : TableInfo)
     CmdRuns c 0x0604 s a ∧ s0.tbl.waits.any (fun w => w.inst == 0x30) = false ∧ 0x30 ≤ table.toNat ∧ table.toNat ≤ 0x33 ∧ tableInfo table.toNat = some t ∧ idx.toNat < t.count ∧ policyOffset table.toNat + (idx.toNat + 1) * t.size ≤ (policyRegion s0).2 ∧ isValid (entAt s0 table.toNat 0 idx.toNat) = false) :=
  ⟨by decide +kernel, by decide +kernel, by decide +kernel⟩

/-- States that meet hypotheses of `Obligations.FlowCommands`. -/
theorem test_meets_flow_commands_6 :
    (let c : Cmd := cmd
     let s : State := run 0x0604 (entry 0x30 0 4095 (setReg on .flowPolicyCfg 0 0x1000))
     let a : Accepted := acc 0x0604
     let s0 := begun c s a
     let table : BitVec 16 := 0x30
     let idx : BitVec 32 := 4095
     let t : TableInfo := ({ count := 4096, size := 64 } : TableInfo)
     CmdRuns c 0x0604 s a ∧ s0.tbl.waits.any (fun w => w.inst == 0x30) = false ∧ 0x30 ≤ table.toNat ∧ table.toNat ≤ 0x33 ∧ tableInfo table.toNat = some t ∧ idx.toNat < t.count ∧ policyOffset table.toNat + (idx.toNat + 1) * t.size ≤ (policyRegion s0).2 ∧ isValid (entAt s0 table.toNat 0 idx.toNat) = true) ∧
    (let c : Cmd := cmd
     let s : State := run 0x1105 (hot (open_ on))
     let a : Accepted := acc 0x1105
     let key : Bytes := []
     let s0 := begun c s a
     let n := 0
     hotOf s0 key = some n ∧ CmdRuns c 0x1105 s a ∧ foldOpen s0 n = true) ∧
    (let c : Cmd := cmd
     let s : State := run 0x1105 (hot on)
     let a : Accepted := acc 0x1105
     let key : Bytes := []
     let s0 := begun c s a
     let n := 0
     hotOf s0 key = some n ∧ CmdRuns c 0x1105 s a ∧ foldOpen s0 n = false) :=
  ⟨by decide +kernel, by decide +kernel, by decide +kernel⟩

/-- States that meet hypotheses of `Obligations.FlowCommands`. -/
theorem test_meets_flow_commands_7 :
    (let c : Cmd := cmd
     let s : State := run 0x1105 (cold on)
     let a : Accepted := acc 0x1105
     let key : Bytes := []
     let s0 := begun c s a
     let k := 0
     hotOf s0 key = none ∧ coldOf s0 key = some k ∧ CmdRuns c 0x1105 s a) ∧
    (let c : Cmd := cmd
     let s : State := run 0x1105
     let a : Accepted := acc 0x1105
     let key : Bytes := []
     let s0 := begun c s a
     hotOf s0 key = none ∧ coldOf s0 key = none ∧ CmdRuns c 0x1105 s a) ∧
    (let c : Cmd := cmd
     let s : State := run 0x0502 (hot on)
     let a : Accepted := acc 0x0502
     let key : Bytes := []
     let s0 := begun c s a
     let n := 0
     CmdRuns c 0x0502 s a ∧ c.src ≠ .relay ∧ hotOf s0 key = some n ∧ foldOpen s0 n = false) :=
  ⟨by decide +kernel, by decide +kernel, by decide +kernel⟩

/-- States that meet hypotheses of `Obligations.FlowCommands`. -/
theorem test_meets_flow_commands_8 :
    (let c : Cmd := cmd
     let s : State := run 0x0502 (cold on)
     let a : Accepted := acc 0x0502
     let key : Bytes := []
     let s0 := begun c s a
     let k := 0
     CmdRuns c 0x0502 s a ∧ c.src ≠ .relay ∧ hotOf s0 key = none ∧ coldOf s0 key = some k) ∧
    (let c : Cmd := cmd
     let s : State := run 0x0502
     let a : Accepted := acc 0x0502
     let key : Bytes := []
     let s0 := begun c s a
     CmdRuns c 0x0502 s a ∧ hotOf s0 key = none ∧ coldOf s0 key = none) ∧
    (let c : Cmd := cmd
     let s : State := run 0x0204
     let a : Accepted := acc 0x0204
     CmdRuns c 0x0204 s a) :=
  ⟨by decide +kernel, by decide +kernel, by decide +kernel⟩

/-- States that meet hypotheses of `Obligations.FlowCommands`. -/
theorem test_meets_flow_commands_9 :
    (let c : Cmd := cmd
     let s : State := run 0x0503
     let a : Accepted := acc 0x0503
     let pier : BitVec 8 := 3
     CmdRuns c 0x0503 s a ∧ pier.toNat < 4) ∧
    (let c : Cmd := cmd
     let s : State := run 0x0504
     let a : Accepted := acc 0x0504
     CmdRuns c 0x0504 s a) ∧
    (let c : Cmd := cmd
     let s : State := run 0x0605
     let a : Accepted := acc 0x0605
     CmdRuns c 0x0605 s a) :=
  ⟨by decide +kernel, by decide +kernel, by decide +kernel⟩

/-- States that meet hypotheses of `Obligations.Boot`. -/
theorem test_meets_boot_1 :
    (let s : State := on
     (s.boot.phase = .ready ∨ s.boot.phase = .training)) ∧
    (let s : State := .reset
     s.boot.phase = .reset) ∧
    (let s : State := on
     s.boot.phase ≠ .reset) ∧
    (let s : State := phase .hotHold
     s.boot.phase = .hotHold) ∧
    (let s : State := phase .rails { railStep := 1 }
     let rail : Fin 7 := 2
     s.boot.phase = .rails ∧ railRaised s rail.val = true ∧ s.boot.railsOk.contains rail.val = false) ∧
    (let s : State := phase .rails { railStep := 1 }
     let rail : Fin 7 := 2
     let ok := s.boot.railsOk ++ [rail.val]
     s.boot.phase = .rails ∧ railRaised s rail.val = true ∧ s.boot.railsOk.contains rail.val = false ∧ (stepRails s.boot.railStep).all (fun r => ok.contains r) = false) :=
  ⟨by decide +kernel, by decide +kernel, by decide +kernel, by decide +kernel, by decide +kernel, by decide +kernel⟩

/-- States that meet hypotheses of `Obligations.Boot`. -/
theorem test_meets_boot_2 :
    (let s : State := phase .rails { railStep := 1, railsOk := [3] }
     let rail : Fin 7 := 2
     let ok := s.boot.railsOk ++ [rail.val]
     s.boot.phase = .rails ∧ railRaised s rail.val = true ∧ s.boot.railsOk.contains rail.val = false ∧ (stepRails s.boot.railStep).all (fun r => ok.contains r) = true ∧ s.boot.nextRails = none) ∧
    (let s : State := phase .pushWait
     let m : Master := 0
     s.boot.phase ≠ .ready ∧ masterPresent s m.val = true) ∧
    (let s : State := phase .training
     let unit : TestUnit := .course 3 6
     s.boot.phase = .training ∧ s.boot.tested.contains (testCode unit) = false ∧ s.boot.heldOut.contains (testCode unit) = false) ∧
    (let s : State := phase .training { trained := true }
     s.boot.phase = .training ∧ s.boot.trained = true) ∧
    (let s : State := phase .training
     s.boot.phase = .training ∧ s.boot.trained = false) ∧
    (let s : State := phase .ready { coreReset := some 0 }
     let t := 0
     s.boot.coreReset = some t) :=
  ⟨by decide +kernel, by decide +kernel, by decide +kernel, by decide +kernel, by decide +kernel, by decide +kernel⟩

/-- States that meet hypotheses of `Obligations.Boot`. -/
theorem test_meets_boot_3 :
    (let s : State := run 0x1201
     let c : Cmd := cmd
     let a : Accepted := acc 0x1201
     CmdRuns c 0x1201 s a ∧ c.src ≠ .relay) ∧
    (let s : State := run 0x1202
     let c : Cmd := cmd
     let a : Accepted := acc 0x1202
     let s0 := begun c s a
     let mask : BitVec 16 := 0
     let form : BitVec 8 := 0
     let ns := (List.range 16).filter (fun n => bit mask.toNat n)
     CmdRuns c 0x1202 s a ∧ form.toNat ≤ 1 ∧ ns.all (bankReady s0) = true ∧ (form = 0 ∨ fullReady s0 = true)) ∧
    (let s : State := run 0x1202
     let c : Cmd := cmd
     let a : Accepted := acc 0x1202
     let s0 := begun c s a
     let mask : BitVec 16 := 0
     let form : BitVec 8 := 1
     let ns := (List.range 16).filter (fun n => bit mask.toNat n)
     CmdRuns c 0x1202 s a ∧ form.toNat ≤ 1 ∧ ns.all (bankReady s0) = true ∧ form = 1 ∧ fullReady s0 = false) ∧
    (let s : State := run 0x1203 (on.withStk { on.stk with alive := true })
     let c : Cmd := cmd
     let a : Accepted := acc 0x1203
     let s0 := begun c s a
     CmdRuns c 0x1203 s a ∧ s0.stk.alive = true) ∧
    (let s : State := run 0x1203
     let c : Cmd := cmd
     let a : Accepted := acc 0x1203
     let s0 := begun c s a
     CmdRuns c 0x1203 s a ∧ s0.stk.alive = false) :=
  ⟨by decide +kernel, by decide +kernel, by decide +kernel, by decide +kernel, by decide +kernel⟩

end Sys2Proof.Tests
end

section
/-! The strict-priority part of the subport scheduler (R382, R383). The eligible heads of a subport stand in ascending queue
number, so the last SP head is the one with the highest queue. -/

namespace Sys2Proof.Machine

theorem upFrom_pairwise_lt (a n : Nat) : (upFrom a n).Pairwise (· < ·) :=
  List.pairwise_lt_range.map (a + ·) fun _ _ => Nat.add_lt_add_left (k := a)

/-- A candidate names the queue whose head it is. -/
theorem candidate_queue {s : State} {sub q : Nat} {c : Cand} (h : candidate s sub q = some c) : c.queue = q := by
  unfold candidate at h
  split at h
  · cases h
  · split at h
    · cases h
    · dsimp only at h
      split at h
      · cases h
        rfl
      · cases h

/-- The heads of a subport's eligible queues, in ascending queue number (R382). -/
def eligibleHeads (s : State) (sub : Nat) : List Cand := (subQueues sub).filterMap (candidate s sub)

theorem mem_eligibleHeads {s : State} {sub : Nat} {c : Cand} :
    c ∈ eligibleHeads s sub ↔ c.queue ∈ subQueues sub ∧ candidate s sub c.queue = some c := by
  constructor
  · intro h
    obtain ⟨q, hq, hc⟩ := List.mem_filterMap.mp h
    obtain rfl := candidate_queue hc
    exact ⟨hq, hc⟩
  · rintro ⟨hq, hc⟩
    exact List.mem_filterMap.mpr ⟨_, hq, hc⟩

theorem eligibleHeads_pairwise_queue_lt (s : State) (sub : Nat) :
    (eligibleHeads s sub).Pairwise (fun c d => c.queue < d.queue) := by
  refine (upFrom_pairwise_lt (sub * 16) 16).filterMap (candidate s sub) ?_
  intro q r hqr c hc d hd
  rwa [candidate_queue hc, candidate_queue hd]

/-- The eligible heads whose queues have SP set. -/
def spHeads (s : State) (sub : Nat) : List Cand :=
  (eligibleHeads s sub).filter (fun c => isSp s c.frame.epoch c.queue)

/-- A queue of a subport is eligible with a head, and has SP set. -/
def IsSpHead (s : State) (sub q : Nat) (c : Cand) : Prop :=
  q ∈ subQueues sub ∧ candidate s sub q = some c ∧ isSp s c.frame.epoch q = true

theorem mem_spHeads {s : State} {sub : Nat} {c : Cand} : c ∈ spHeads s sub ↔ IsSpHead s sub c.queue c := by
  simp only [spHeads, List.mem_filter, mem_eligibleHeads, IsSpHead, and_assoc]

theorem IsSpHead.queue_eq {s : State} {sub q : Nat} {c : Cand} (h : IsSpHead s sub q c) : c.queue = q := by
  obtain ⟨-, hc, -⟩ := h
  exact candidate_queue hc

theorem IsSpHead.mem {s : State} {sub q : Nat} {c : Cand} (h : IsSpHead s sub q c) : c ∈ spHeads s sub := by
  obtain rfl := h.queue_eq
  exact mem_spHeads.mpr h

theorem spHeads_eq_nil {s : State} {sub : Nat} (h : ∀ q c, ¬IsSpHead s sub q c) : spHeads s sub = [] :=
  List.eq_nil_iff_forall_not_mem.mpr fun c hc => h c.queue c (mem_spHeads.mp hc)

/-- No SP head has a higher queue than the last one. -/
theorem queue_le_getLast_spHeads {s : State} {sub : Nat} {c : Cand} (hc : c ∈ spHeads s sub) :
    c.queue ≤ ((spHeads s sub).getLast (List.ne_nil_of_mem hc)).queue := by
  have ne : spHeads s sub ≠ [] := List.ne_nil_of_mem hc
  have asc : ((spHeads s sub).dropLast ++ [(spHeads s sub).getLast ne]).Pairwise (fun c d => c.queue < d.queue) := by
    rw [List.dropLast_concat_getLast]
    exact (eligibleHeads_pairwise_queue_lt s sub).filter _
  have mem : c ∈ (spHeads s sub).dropLast ++ [(spHeads s sub).getLast ne] := by rwa [List.dropLast_concat_getLast]
  obtain ⟨-, -, below⟩ := List.pairwise_append.mp asc
  rcases List.mem_append.mp mem with earlier | last
  · exact Nat.le_of_lt (below c earlier _ List.mem_cons_self)
  · exact Nat.le_of_eq (congrArg Cand.queue (List.mem_singleton.mp last))

/-- The state that a subport's scheduler selects in: its queues stand in the round where they have to (R384). -/
def rejoined (s : State) (sub : Nat) : State := (subQueues sub).foldl rejoin s

section
variable {s : State} {sub : Nat} (allowed : ¬(subShaperRate s sub ≠ 0 ∧ (settleSched s sub).tokens < 0))
include allowed

theorem pick_of_spHeads_eq_nil (h : spHeads (rejoined s sub) sub = []) :
    pick s sub = dwrr sub (eligibleHeads (rejoined s sub) sub) 400000 (rejoined s sub) := by
  have noLast := List.getLast?_eq_none_iff.mpr h
  unfold spHeads eligibleHeads rejoined at noLast
  simp only [pick, if_neg allowed, noLast, eligibleHeads, rejoined]

theorem pick_of_spHeads_ne_nil (h : spHeads (rejoined s sub) sub ≠ []) :
    pick s sub = (rejoined s sub, some ((spHeads (rejoined s sub) sub).getLast h)) := by
  have last := List.getLast?_eq_some_getLast h
  unfold spHeads eligibleHeads rejoined at last
  simp only [pick, if_neg allowed, last, spHeads, eligibleHeads, rejoined]

end

/-- Settles O34: the SP heads stand in ascending queue number, and `pick` takes the last of them. -/
theorem strictPriority : Obligations.StrictPriority := by
  intro s sub allowed u sp
  constructor
  · intro q d (hd : IsSpHead u sub q d)
    have someSp : spHeads u sub ≠ [] := List.ne_nil_of_mem hd.mem
    refine ⟨(spHeads u sub).getLast someSp, pick_of_spHeads_ne_nil allowed someSp,
      mem_spHeads.mp (List.getLast_mem someSp), ?_⟩
    intro k f (hf : IsSpHead u sub k f)
    calc
      k = f.queue := hf.queue_eq.symm
      _ ≤ ((spHeads u sub).getLast someSp).queue := queue_le_getLast_spHeads hf.mem
  · intro noSp
    exact pick_of_spHeads_eq_nil allowed (spHeads_eq_nil noSp)

end Sys2Proof.Machine
end

section
/-! What a report leaves alone: an event, a posting on a ring, a cell on a bond link or a performance count (R442, R461, R533,
R614) changes the output, the rings, the counters and the bond links, and nothing else of the state. -/

namespace Sys2Proof.Machine

/-- The state apart from what reports change. -/
def State.unreported (s : State) : State := { s with out := [], host := {}, ctr := {}, pmc := [], stk := {} }

theorem State.regs_eq_of_unreported {s t : State} (h : t.unreported = s.unreported) : t.regs = s.regs :=
  (congrArg State.regs h :)

theorem State.own_eq_of_unreported {s t : State} (h : t.unreported = s.unreported) : t.own = s.own :=
  (congrArg State.own h :)

@[simp] theorem State.withCtr_unreported (s : State) (v : CtrSt) : (s.withCtr v).unreported = s.unreported := rfl

@[simp] theorem emit_unreported (s : State) (o : Out) : (emit s o).unreported = s.unreported := rfl

@[simp] theorem setRing_unreported (s : State) (h page : Nat) (r : Ring) :
    (setRing s h page r).unreported = s.unreported := rfl

@[simp] theorem setBond_unreported (s : State) (n : Nat) (x : Bond) : (setBond s n x).unreported = s.unreported := rfl

@[simp] theorem setPmc_unreported (s : State) (j : Nat) (p : Pmc) : (setPmc s j p).unreported = s.unreported := rfl

@[simp] theorem count_unreported (s : State) (kind num idx n : Nat) :
    (count s kind num idx n).unreported = s.unreported := rfl

/-! Postings on a ring (R442). -/

@[simp] theorem hostWrite_unreported (s : State) (h addr : Nat) (data : Bytes) :
    (hostWrite s h addr data).unreported = s.unreported := by
  unfold hostWrite
  split <;> simp

@[simp] theorem writeBack_unreported (s : State) (h page idx : Nat) :
    (writeBack s h page idx).unreported = s.unreported := by
  simp only [writeBack]
  split <;> simp

@[simp] theorem sendMsix_unreported (s : State) (h vector : Nat) : (sendMsix s h vector).unreported = s.unreported := by
  unfold sendMsix
  split <;> rfl

@[simp] theorem signal_unreported (s : State) (h page n : Nat) : (signal s h page n).unreported = s.unreported := by
  simp only [signal]
  split
  · simp
  · split <;> simp

@[simp] theorem putEntries_unreported (s : State) (h page : Nat) (es : List (Nat → Bytes)) :
    (putEntries s h page es).unreported = s.unreported := by
  induction es generalizing s with
  | nil => rfl
  | cons e es ih => simp [putEntries, ih]

@[simp] theorem post_unreported (s : State) (h page : Nat) (es : List (Nat → Bytes)) :
    (post s h page es).unreported = s.unreported := by
  simp [post]

/-! Relayed cells (R533, R536). -/

@[simp] theorem sendCell_unreported (s : State) (link cls : Nat) (cell : Bytes) :
    (sendCell s link cls cell).unreported = s.unreported := by
  simp only [sendCell]
  split
  · simp
  · split <;> simp

@[simp] theorem sendRelayCells_unreported (s : State) (link dst tag aux : Nat) (first : Bool) (ps : List Bytes) :
    (sendRelayCells s link dst tag aux first ps).unreported = s.unreported := by
  induction ps generalizing s first with
  | nil => rfl
  | cons p ps ih => simp [sendRelayCells, ih]

@[simp] theorem relayTo_unreported (s : State) (dst kind tag aux : Nat) (data : Bytes) :
    (relayTo s dst kind tag aux data).unreported = s.unreported := by
  unfold relayTo
  split <;> simp

/-! Events (R461, R462) and performance counts (R614). -/

@[simp] theorem postEventOn_unreported (s : State) (h ring grp num org time : Nat) (body : Bytes) :
    (postEventOn s h ring grp num org time body).unreported = s.unreported := by
  simp only [postEventOn]
  split <;> simp

@[simp] theorem routeEvent_unreported (s : State) (grp num org time : Nat) (body : Bytes) :
    (routeEvent s grp num org time body).unreported = s.unreported := by
  simp only [routeEvent]
  split <;> simp [apply_ite State.unreported]

@[simp] theorem postEvent_unreported (s : State) (grp num org : Nat) (body : Bytes) :
    (postEvent s grp num org body).unreported = s.unreported := by
  unfold postEvent
  split <;> simp

@[simp] theorem pmcAdd_unreported (s : State) (j n : Nat) : (pmcAdd s j n).unreported = s.unreported := by
  simp only [pmcAdd]
  split
  · simp
  · split <;> simp

theorem foldl_unreported {α : Type} {f : State → α → State} (h : ∀ s a, (f s a).unreported = s.unreported)
    (l : List α) (s : State) : (l.foldl f s).unreported = s.unreported := by
  induction l generalizing s with
  | nil => rfl
  | cons a l ih => simp [ih, h]

@[simp] theorem countPmc_unreported (s : State) (e : PmcEvent) (n : Nat) :
    (countPmc s e n).unreported = s.unreported := by
  refine foldl_unreported (fun t p => ?_) _ s
  split <;> simp

@[simp] theorem countPmc_regs (s : State) (e : PmcEvent) (n : Nat) : (countPmc s e n).regs = s.regs :=
  State.regs_eq_of_unreported (countPmc_unreported s e n)

@[simp] theorem countPmc_own (s : State) (e : PmcEvent) (n : Nat) : (countPmc s e n).own = s.own :=
  State.own_eq_of_unreported (countPmc_unreported s e n)

end Sys2Proof.Machine
end

section
/-! A write of a register of 8 B (R435, R644) and its refusal while a DMA channel is enabled (R484). -/

namespace Sys2Proof.Machine

/-! What a write does on its way to the register: the applied values, the owner and the boot phase stand. -/

@[simp] theorem setHeld_applied (s : State) (m : Nat) (v : Option (Nat × BitVec 32)) :
    (setHeld s m v).regs.applied = s.regs.applied := rfl

@[simp] theorem setHeld_own (s : State) (m : Nat) (v : Option (Nat × BitVec 32)) : (setHeld s m v).own = s.own := rfl

@[simp] theorem setHeld_boot (s : State) (m : Nat) (v : Option (Nat × BitVec 32)) : (setHeld s m v).boot = s.boot := rfl

@[simp] theorem count_regs (s : State) (kind num idx n : Nat) : (count s kind num idx n).regs = s.regs := rfl

/-- Dropping a half held for another offset clears it or does nothing (R644). -/
theorem dropOther_eq_or (s : State) (m off : Nat) : dropOther s m off = s ∨ dropOther s m off = setHeld s m none := by
  unfold dropOther
  split
  · split
    · exact .inl rfl
    · exact .inr rfl
  · exact .inl rfl

@[simp] theorem dropOther_applied (s : State) (m off : Nat) : (dropOther s m off).regs.applied = s.regs.applied := by
  rcases dropOther_eq_or s m off with h | h <;> simp [h]

@[simp] theorem dropOther_own (s : State) (m off : Nat) : (dropOther s m off).own = s.own := by
  rcases dropOther_eq_or s m off with h | h <;> simp [h]

@[simp] theorem dropOther_boot (s : State) (m off : Nat) : (dropOther s m off).boot = s.boot := by
  rcases dropOther_eq_or s m off with h | h <;> simp [h]

@[simp] theorem seen_applied (s : State) (m : Master) (off : Nat) : (seen s m off).regs.applied = s.regs.applied := by
  simp [seen]

@[simp] theorem seen_own (s : State) (m : Master) (off : Nat) : (seen s m off).own = s.own := by
  simp [seen]

theorem regVal_congr {s t : State} (h : t.regs.applied = s.regs.applied) (r : Reg) (i : Nat) :
    regVal t r i = regVal s r i := by
  simp only [regVal, h]

theorem dmaEnabled_congr {s t : State} (h : t.regs.applied = s.regs.applied) (ch : Nat) :
    dmaEnabled t ch = dmaEnabled s ch := by
  simp only [dmaEnabled, regField, regVal_congr h]

/-! The access (R435, R633). -/

theorem countReserved_of_host {m : Nat} (host : m < 2) (s : State) (n : Nat) :
    countReserved s m n = count s 13 m 0 n :=
  if_pos host

theorem fileAccess_of_ready {s : State} (ready : s.boot.phase = .ready) (m : Master) (off : Nat) (f : State → State) :
    fileAccess s m.val off f = f (seen s m off) := by
  simp [fileAccess, regAccess, seen, ready]

section
variable {s : State} {m : Master} {off : BitVec 26} {r : Reg} {i : Nat} (ready : s.boot.phase = .ready)
  (present : masterPresent s m.val = true) (lies : regAt off.toNat = some (r, i)) (wide : r.size = 8)
include ready present lies wide

theorem exec_registerWrite_whole (aligned : off.toNat % 8 = 0) (v : BitVec 64) :
    exec (.registerWrite m off 8 v) s =
      .next (writeReg (setHeld (seen s m off.toNat) m.val none) m.val r i v.toNat) := by
  change execRegisterWrite m off 8 v s = _
  simp [execRegisterWrite, present, writeBar0, aligned, lies, wide, fileAccess_of_ready ready]

theorem exec_registerWrite_half (aligned : off.toNat % 4 = 0) (v : BitVec 64) :
    exec (.registerWrite m off 4 v) s =
      .next (writeHalf (seen s m off.toNat) m.val r i (decide (off.toNat ≠ Reg.off r i)) v.toNat) := by
  change execRegisterWrite m off 4 v s = _
  simp [execRegisterWrite, present, writeBar0, aligned, fileAccess_of_ready ready, writeWord, lies, wide]

end

theorem writeHalf_of_refused {s t : State} {m : Nat} {r : Reg} {i : Nat} (h : writeRefused s m r i = some t)
    (high : Bool) (v : Nat) : writeHalf s m r i high v = setHeld t m none := by
  simp only [writeHalf, h]

/-! DMA_CH_CHAIN and DMA_CH_WB of an enabled channel (R484). -/

section
variable {s : State} {m ch : Nat} {r : Reg} (chainOrWb : r = .dmaChChain ∨ r = .dmaChWb)
include chainOrWb

theorem writeRefused_of_dmaEnabled (owner : s.own.owner = some m) (enabled : dmaEnabled s ch = true) :
    writeRefused s m r ch = some (countReserved s m 1) := by
  rcases chainOrWb with rfl | rfl <;> simp [writeRefused, owner, enabled]

theorem writeReg_dma_of_refused {t : State} (h : writeRefused s m r ch = some t) (v : Nat) :
    writeReg s m r ch v = t := by
  rcases chainOrWb with rfl | rfl <;> simp only [writeReg, h]

end

/-- Settles O18: on its way to the register the write changes neither ENABLE nor the owner, so it is refused there, and a
refusal keeps every applied value. -/
theorem dmaRegistersLocked : Obligations.DmaRegistersLocked := by
  intro s m r ch off v host ready present owner chainOrWb lies enabled u
  have path : masterPresent s m.val = true := by simp [masterPresent, present]
  have wide : r.size = 8 := by rcases chainOrWb with rfl | rfl <;> rfl
  have refused (w : State) (applied : w.regs.applied = s.regs.applied) (own : w.own = s.own) :
      writeRefused w m.val r ch = some (count w 13 m.val 0 1) := by
    rw [writeRefused_of_dmaEnabled chainOrWb (own ▸ owner) ((dmaEnabled_congr applied ch).trans enabled),
      countReserved_of_host host]
  constructor
  · intro aligned t
    refine ⟨?_, regVal_congr (by simp [t, u]) r ch⟩
    rw [exec_registerWrite_whole ready path lies wide aligned,
      writeReg_dma_of_refused chainOrWb (refused (setHeld u m.val none) (by simp [u]) (by simp [u]))]
  · intro aligned t
    refine ⟨?_, regVal_congr (by simp [t, u]) r ch⟩
    rw [exec_registerWrite_half ready path lies wide aligned,
      writeHalf_of_refused (refused u (by simp [u]) (by simp [u]))]

end Sys2Proof.Machine
end

section

/-! No command stops the machine, and none touches the queue or leaves the invariant (R521; log 8). -/

namespace Sys2Proof.Machine

/-- The outcome is a next state. -/
def IsNext (o : Host.Outcome State Fault Refusal) : Prop := ∃ t, o = .next t

theorem isNext_next (t : State) : IsNext (.next t) := ⟨t, rfl⟩

theorem isNext_runCommand (c : Cmd) (op : Nat) (body : Nat → State → Effect) (s : State) :
    IsNext (runCommand c op body s) := by
  unfold runCommand
  (repeat' split) <;> exact isNext_next _

/-- Command rows go through `runCommand`; the other rows end each of their branches in a next state. -/
theorem exec_isNext (c : Instr) (s : State) : IsNext (exec c s) := by
  cases c
  case
    portMode | subportAdmin | shedCtrl | laneSet | portStatus | seqLoad | seqSwap | sliceStatus | dlBudgetStatus
    | fsFormat | flowRead | fsStatus | fsTenantStatus | flowDemote | flowInsert | flowDelete | tenantPurge |
    policyWrite | tenantAccount | tableWrite | tableDelete | tableBatch | tableRead | digestRead | macFlush |
    engDrain | engLoad | engResume | engStatus | schedStatus | dbgHalt | dbgStep | dbgResume | dbgRead |
    dbgWrite | dbgLockRelease | dbgAbort | queueStatus | bufStatus | policerRead | gateStatus | timeOffset |
    timeAcquire | timeSwitch | timeStatus | timePulse | timeCapture | ringStatus | hostStatus | nop | dmaKick |
    dmaStatus | ddrStatus | ddrRetrain | ddrRetire | powerStatus | powerWake | powerHold | healthStatus |
    wakeStatus | stackForm | stackJoin | stackLeave | stackRelay | stackStage | stackMove | stackDigest |
    stackStatus | faultStatus | sliceSwitch | clusterRemap | courseRetire | laneRecal | serdesApply |
    cellReclaim | serdesLoad | fwFlash | fwActivate | attestQuote | logRead | idRead | imgStatus | counterRead |
    counterScan | pmcControl | pmcRead | flowExport | bootInfo | trafficOpen | coreReset =>
    exact isNext_runCommand _ _ _ _
  all_goals
    simp only [exec,
      execPeriodicEpochAdvance, execShadowApply, execRegisterWrite, execFrameArrival, execUncorrectableCodeword,
      execHeadAdmit, execFlowLookupResult, execTierBDirectoryReturn, execTierBRecordReturn, execLpmAclResult,
      execSecondaryLookupResult, execPolicerResult, execSeqContextGrant, execSeqWordExecute, execDeadlineFault,
      execStandbyBankParity, execCombinerApply, execTrackingUpdateApply, execRelocationFlip, execHashedMoveFlip,
      execSetupHoldExpire, execDemotionVisit, execDemotionComplete, execSweeperRoundStart, execSweeperVisit,
      execColdSweeperRead, execDeletionFencePassed, execCourseCeWindowEnd, execRebuildGranuleCopy,
      execBucketRescan, execRebuildComplete, execLearnInsertDone, execMoveCandidateExpire, execMacSweepVisit,
      execRepointCompare, execEmScrubRead, execTaskArrive, execOperandArrive, execTaskDispatch, execPreempt,
      execEngineWakeRequest, execAdd, execSub, execAnd, execOr, execXor, execShl, execShr, execSar, execMul,
      execMulhu, execMin, execMax, execSeq, execSlt, execSltu, execLoadComplete, execChCommitRoom,
      execChWordsVisible, execMemoryOpComplete, execTimerExpire, execThreadHalt, execEngineStall, execTaskLimit,
      execSpareLoaded, execEngineSelfTestDone, execCellRelease, execCensusWalkStart, execCensusWalkEnd,
      execReplicate, execEgressSelect, execGateListChange, execGateEntryAdvance, execPuntWrite, execInjFetch,
      execPauseFrameReceive, execPauseEffect, execPauseExpire, execPauseSend, execPauseRepeat, execHello,
      execHelloRetry, execHelloTimeout, execShedWindowEnd, execReq, execAck, execNak, execReady, execReqRetry,
      execShedSwitch, execAlignmentRegained, execLanesLocked, execWidenTimeout, execLpiEntry, execLpiWakeEnd,
      execLinkDown, execLinkUp, execHoldExpire, execHoldReload, execLaneSerWindowEnd, execRecoveryTrialTimeout,
      execSeqSwapDrained, execHoldoverTimeout, execPpsEdge, execCaptureEdge, execDoorbell, execRingEnable,
      execRingDisable, execCommandAccept, execInterruptModerationExpire, execChainWordReturn, execHostPortReset,
      execHostLinkUp, execMailboxWrite, execBidWindowClose, execLeaseExpire, execDmaBurstGrant, execDmaReadData,
      execDmaWriteResponse, execDdrCeWindowEnd, execRetrainStep, execEvacuationCopy, execWakeGrant,
      execCreditReturn, execBlockReady, execWakeLate, execSleepEntry, execHealthSample, execBondHello,
      execBondHelloSend, execBondLinkSilence, execCredit, execLink, execSeed, execRecord, execRecordAck,
      execRelay, execMirrorAckTimeout, execMemberLoss, execSliceSwitchAdmit, execSliceSelfTestDone,
      execRecalibrationDone, execReclaimWalkEnd, execDeviceFatal, execImageCheckDone, execFootingRestartReady,
      execFootingFallback, execFootingReset, execFootingResetRelease, execThermalBootHoldEnd, execRailInRange,
      execRailTimeout, execBootPushGo, execBootSelfTestDone, execBootReady, execCoreResetBegin,
      execFsFormatComplete, execSpillCountDecrement, execHashKeyWrite, execMsixUnmask, execBootTrainingDone,
      execFlashWriteComplete, execQuoteSigned]
    (repeat' split) <;> exact isNext_next _

/-- The rows that write a memory, take or return wake credits, or reset the device keep the invariant by the lemmas of their
own; every other row leaves the watched part of the state alone. -/
theorem exec_good (c : Instr) (s : State) : outGood (exec c s) s := by
  cases c with
  | registerWrite m off size v => exact execRegisterWrite_good m off size v s
  | hashKeyWrite m k w v => exact execHashKeyWrite_good m k w v s
  | dmaEnable m ch v => exact execDmaEnable_good m ch v s
  | dmaDisable m ch v => exact execDmaDisable_good m ch v s
  | dmaDisableSample ch => exact execDmaDisableSample_good ch s
  | dmaWriteResponse ch burst ok => exact execDmaWriteResponse_good ch burst ok s
  | wakeGrant => exact execWakeGrant_good s
  | creditReturn => exact execCreditReturn_good s
  | relay sub cell crcOk => exact execRelay_good sub cell crcOk s
  | sleepEntry kind num power => exact execSleepEntry_good kind num power s
  | footingReset powerOn => exact execFootingReset_good powerOn s
  | footclkLoss => exact execFootclkLoss_good s
  | deviceFatal code => exact execDeviceFatal_good code s
  | coreResetBegin => exact execCoreResetBegin_good s
  | _ => exact outGood_of_keeps (by simp [exec])

theorem State.Good.of_exec {c : Instr} {s t : State} (h : exec c s = .next t) : s.Good t := by
  have good := exec_good c s
  rwa [h] at good

theorem step_cons (c : Instr) (cs : List Instr) (s : State) :
    step { s with pending := c :: cs } = exec c { s with pending := cs } := rfl

theorem step_nil {s : State} (h : s.pending = []) : step s = .next (tick s) := by
  simp only [step, h]

/-! The clock across a cycle (R404, R666). -/

theorem foldl_clk {α : Type} {f : State → α → State} (h : ∀ s a, (f s a).clk = s.clk) (l : List α) (s : State) :
    (l.foldl f s).clk = s.clk := by
  induction l generalizing s with
  | nil => rfl
  | cons a l ih => simp [ih, h]

theorem State.clk_eq_of_unreported {s t : State} (h : t.unreported = s.unreported) : t.clk = s.clk :=
  (congrArg State.clk h :)

@[simp] theorem postEvent_clk (s : State) (grp num org : Nat) (body : Bytes) : (postEvent s grp num org body).clk = s.clk :=
  State.clk_eq_of_unreported (postEvent_unreported s grp num org body)

@[simp] theorem countPmc_clk (s : State) (e : PmcEvent) (n : Nat) : (countPmc s e n).clk = s.clk :=
  State.clk_eq_of_unreported (countPmc_unreported s e n)

@[simp] theorem checkExhausted_clk (s : State) (ten before : Nat) : (checkExhausted s ten before).clk = s.clk := by
  unfold checkExhausted
  split <;> simp [setRefusing]

@[simp] theorem checkRestored_clk (s : State) (ten : Nat) : (checkRestored s ten).clk = s.clk := by
  unfold checkRestored
  split <;> simp [setRefusing]

@[simp] theorem setBuckets_clk (s : State) (kind : Nat) (b : Buckets) : (setBuckets s kind b).clk = s.clk := rfl

@[simp] theorem bucketTick_clk (s : State) (kind : Nat) (add : Bool) (ten : Nat) :
    (bucketTick s kind add ten).clk = s.clk := by
  simp only [bucketTick, setLevel]
  split <;> simp

@[simp] theorem othersEmpty_clk (s : State) (before : Nat) : (othersEmpty s before).clk = s.clk := by
  unfold othersEmpty
  exact foldl_clk (fun _ _ => by simp) _ _

@[simp] theorem bucketsTick_clk (s : State) (kind : Nat) (add : Bool) : (bucketsTick s kind add).clk = s.clk := by
  have each (t : State) (l : List Nat) : (l.foldl (fun s t => bucketTick s kind add t) t).clk = t.clk :=
    foldl_clk (fun _ _ => by simp) l t
  simp only [bucketsTick]
  split <;> simp [each]

@[simp] theorem refillAll_clk (s : State) : (refillAll s).clk = s.clk := by
  simp [refillAll]

@[simp] theorem limitsRestart_clk (s : State) : (limitsRestart s).clk = s.clk := by
  unfold limitsRestart
  exact foldl_clk (fun _ _ => by simp [setSlice]) _ _

theorem gridTick_cc (s : State) : (gridTick s).clk.cc = s.clk.cc := by
  simp only [gridTick]
  split <;> split <;> simp

@[simp] theorem pmcStart_clk (s : State) : (pmcStart s).clk = s.clk := by
  unfold pmcStart
  exact foldl_clk (fun _ _ => by simp [setPmc]) _ _

@[simp] theorem raiseStep_clk (s : State) (k : Nat) : (raiseStep s k).clk = s.clk := by
  simp only [raiseStep]
  split <;> rfl

@[simp] theorem railTick_clk (s : State) : (railTick s).clk = s.clk := by
  unfold railTick
  split
  · split <;> simp
  · rfl

@[simp] theorem busyTick_clk (s : State) : (busyTick s).clk = s.clk := by
  refine foldl_clk (fun t e => ?_) _ s
  dsimp only
  split <;> rfl

@[simp] theorem ppsEnd_clk (s : State) : (ppsEnd s).clk = s.clk := by
  unfold ppsEnd
  dsimp only
  split <;> rfl

@[simp] theorem timeTick_clk (s : State) : (timeTick s).clk = s.clk := by
  simp [timeTick]

/-- What a cycle does after the grid has moved, with the phase `fc` of the footing clock. -/
def afterGrid (fc : Nat) (s : State) : State :=
  let s := s.withCtr { s.ctr with recent := s.ctr.recent.filter (fun e => decide (s.clk.cc < e.at_ + 64)) }
  let s := railTick (pmcStart s)
  let s := busyTick (countPmc s { code := 0x01, block := 31 } 1)
  if fc = 0 then ppsEnd (timeTick s) else s

theorem tick_eq_afterGrid (s : State) :
    tick s = afterGrid ((s.clk.fc + 1) % 15)
      (gridTick (s.withClk { s.clk with cc := s.clk.cc + 1, fc := (s.clk.fc + 1) % 15 })) := rfl

theorem afterGrid_clk (fc : Nat) (s : State) : (afterGrid fc s).clk = s.clk := by
  simp only [afterGrid, apply_ite State.clk, ppsEnd_clk, timeTick_clk, busyTick_clk, countPmc_clk, railTick_clk,
    pmcStart_clk, State.withCtr_clk, ite_self]

theorem tick_cc (s : State) : (tick s).clk.cc = s.clk.cc + 1 := by
  rw [tick_eq_afterGrid, afterGrid_clk, gridTick_cc, State.withClk_clk]

theorem tick_pending (s : State) : (tick s).pending = s.pending := congrArg Watch.pending (tick_watch s)

/-- Settles O4: every row's outcome is a next state, and every row leaves the queue alone. -/
theorem everyCommandRuns : Obligations.EveryCommandRuns := by
  intro c s
  obtain ⟨t, next⟩ := exec_isNext c s
  obtain ⟨pending, -⟩ := State.Good.of_exec next
  exact ⟨t, next, pending⟩

/-- Settles O3: the queue is no part of the invariant, so taking the front command off it keeps the invariant, and then the
command keeps it; a cycle leaves what the invariant speaks of alone. -/
theorem invKept : Obligations.InvKept := by
  intro s t inv next
  cases h : s.pending with
  | nil =>
    rw [step_nil h] at next
    cases next
    obtain ⟨-, kept⟩ := good_of_watch (tick_watch s)
    exact kept inv
  | cons c cs =>
    have run : exec c { s with pending := cs } = .next t := by simpa only [step, h] using next
    obtain ⟨-, kept⟩ := State.Good.of_exec run
    exact kept inv

/-- Settles O1: a cycle adds 1 to the cycle count, and nothing else that it does moves that count. -/
theorem stepRunsFront : Obligations.StepRunsFront :=
  ⟨step_cons, fun _ => step_nil, fun s => ⟨tick_cc s, tick_pending s⟩⟩

/-- Settles O2: both memories are empty, and no credit is in use. -/
theorem invAtReset : Obligations.InvAtReset :=
  ⟨rfl, rfl, rfl, Nat.zero_le _⟩

end Sys2Proof.Machine
end

section
/-! The arithmetic and branch instructions and MOVI to BSWAP (R306-R309). -/

namespace Sys2Proof.Machine

/-! Operands and results as 64 bits. -/

theorem before_imm_lt (s : State) (n t : Nat) : (before s n t).imm < 2 ^ 32 := Nat.mod_lt _ (by decide)

theorem regOf_eq_toNat (x : Thread) (r : Nat) : regOf x r = (regBits x r).toNat := by
  unfold regOf regBits
  split <;> rfl

theorem immVal_eq_toNat {i : Ins} (small : i.imm < 2 ^ 32) :
    immVal i = ((BitVec.ofNat 32 i.imm).signExtend 64).toNat := by
  rw [BitVec.toNat_signExtend, BitVec.msb_eq_decide]
  simp only [immVal, BitVec.toNat_setWidth, BitVec.toNat_ofNat]
  split <;> rename_i h <;> simp only [decide_eq_true_eq] <;> split <;> omega

theorem opB_eq_toNat {i : Ins} (small : i.imm < 2 ^ 32) (x : Thread) : opB x i = (opBits x i).toNat := by
  unfold opB opBits
  split
  · exact immVal_eq_toNat small
  · exact regOf_eq_toNat x i.rb

theorem advance_eq_wrote {x : Thread} (low : x.pc < 8192) (r v : Nat) :
    advance x r v = wrote x r (BitVec.ofNat 64 v) := by
  have next : (x.pc + 1) % 2 ^ 64 = x.pc + 1 := Nat.mod_eq_of_lt (by omega)
  simp only [advance, wrote, Thread.put, next]
  split <;> rfl

/-! Signed readings. -/

theorem toSigned_toNat (a : BitVec 64) : toSigned 64 a.toNat = a.toInt := by
  have := a.isLt
  unfold toSigned
  rw [BitVec.toInt_eq_toNat_cond]
  split <;> split <;> omega

theorem ofNat_ofSigned (z : Int) : BitVec.ofNat 64 (ofSigned 64 z) = BitVec.ofInt 64 z := by
  apply BitVec.eq_of_toNat_eq
  unfold ofSigned
  rw [BitVec.toNat_ofNat, BitVec.toNat_ofInt, Nat.mod_eq_of_lt (by omega)]

theorem ofNat_flag (b : Bool) : BitVec.ofNat 64 (flag b) = if b then 1 else 0 := by
  cases b <;> rfl

theorem toInt_le_iff_sle (a b : BitVec 64) : a.toInt ≤ b.toInt ↔ a.sle b = true := by
  simp [BitVec.sle]

/-! A thread that stands before an instruction. -/

section
variable {s : State} {en : Fin 128} {t : Fin 8} {op : Nat} (stands : Stands s en.val t.val op)
include stands

/-- An instruction that writes one register. -/
theorem issueOp_alu {f : Thread → Ins → Nat} {v : BitVec 64}
    (result : BitVec.ofNat 64 (f (threadAt s en.val t.val) (before s en.val t.val)) = v) :
    issueOp s en t op (alu en.val t.val f) =
      .next (afterStep (setThread (issued s en.val t.val) en.val t.val
        (wrote (threadAt s en.val t.val) (before s en.val t.val).rd v)) en.val t.val (threadAt s en.val t.val).stepping) := by
  have ⟨_, low, _⟩ := stands
  rw [issueOp_stands stands, alu, advance_eq_wrote low, result]

/-- An arithmetic instruction computes `g` of its operands as 64 bits. -/
theorem binary_eq {f : Nat → Nat → Nat} {v : BitVec 64}
    (result : BitVec.ofNat 64 (f (regBits (threadAt s en.val t.val) (before s en.val t.val).ra).toNat
      (opBits (threadAt s en.val t.val) (before s en.val t.val)).toNat) = v) :
    binary en t op f s =
      .next (afterStep (setThread (issued s en.val t.val) en.val t.val
        (wrote (threadAt s en.val t.val) (before s en.val t.val).rd v)) en.val t.val (threadAt s en.val t.val).stepping) :=
  issueOp_alu stands (by rwa [regOf_eq_toNat, opB_eq_toNat (before_imm_lt s en.val t.val)])

end

/-! Each operation on 64 bits. -/

theorem ofNat_sub (a b : BitVec 64) : BitVec.ofNat 64 (a.toNat + 2 ^ 64 - b.toNat) = a - b := by
  bv_omega

theorem ofNat_shl (a : BitVec 64) (k : Nat) : BitVec.ofNat 64 (a.toNat * 2 ^ k) = a <<< k := by
  apply BitVec.eq_of_toNat_eq
  simp [Nat.shiftLeft_eq]

theorem ofNat_shr (a : BitVec 64) (k : Nat) : BitVec.ofNat 64 (a.toNat / 2 ^ k) = a >>> k := by
  apply BitVec.eq_of_toNat_eq
  have := a.isLt
  rw [BitVec.toNat_ofNat, BitVec.toNat_ushiftRight, Nat.shiftRight_eq_div_pow]
  exact Nat.mod_eq_of_lt (Nat.lt_of_le_of_lt (Nat.div_le_self ..) this)

theorem ofNat_sar (a : BitVec 64) (k : Nat) :
    BitVec.ofNat 64 (ofSigned 64 (toSigned 64 a.toNat / ((2 ^ k : Nat) : Int))) = a.sshiftRight k := by
  rw [ofNat_ofSigned, toSigned_toNat, BitVec.sshiftRight, Int.shiftRight_eq_div_pow]

theorem ofNat_mulhu (a b : BitVec 64) : BitVec.ofNat 64 (a.toNat * b.toNat / 2 ^ 64) =
    ((a.zeroExtend 128 * b.zeroExtend 128) >>> 64).truncate 64 := by
  apply BitVec.eq_of_toNat_eq
  have product : a.toNat * b.toNat < 2 ^ 128 := by
    have := Nat.mul_lt_mul'' a.isLt b.isLt
    simpa using this
  have wide (c : BitVec 64) : c.toNat % 2 ^ 128 = c.toNat := Nat.mod_eq_of_lt (Nat.lt_trans c.isLt (by decide))
  simp only [BitVec.toNat_ofNat, BitVec.truncate, BitVec.zeroExtend, BitVec.toNat_setWidth, BitVec.toNat_ushiftRight,
    BitVec.toNat_mul, wide, Nat.mod_eq_of_lt product, Nat.shiftRight_eq_div_pow]

/-- Settles O5: each row is `binary` with its operation on 64 bits. -/
theorem arithmetic : Obligations.Arithmetic := by
  intro en t s x i a b ends at_
  refine ⟨?nop, fun h => show execAdd en t s = _ from binary_eq h ?add,
    fun h => show execSub en t s = _ from binary_eq h ?sub,
    fun h => show execAnd en t s = _ from binary_eq h ?and,
    fun h => show execOr en t s = _ from binary_eq h ?or,
    fun h => show execXor en t s = _ from binary_eq h ?xor,
    fun h => show execShl en t s = _ from binary_eq h ?shl,
    fun h => show execShr en t s = _ from binary_eq h ?shr,
    fun h => show execSar en t s = _ from binary_eq h ?sar,
    fun h => show execMul en t s = _ from binary_eq h ?mul,
    fun h => show execMulhu en t s = _ from binary_eq h ?mulhu,
    fun h => show execMin en t s = _ from binary_eq h ?min,
    fun h => show execMax en t s = _ from binary_eq h ?max,
    fun h => show execSeq en t s = _ from binary_eq h ?seq,
    fun h => show execSlt en t s = _ from binary_eq h ?slt,
    fun h => show execSltu en t s = _ from binary_eq h ?sltu⟩
  case nop =>
    intro (h : Stands s en.val t.val 0x00)
    have run := issueOp_stands (eff := fun s x _ => setThread s en.val t.val (advance x 0 0)) h
    rw [advance_eq_wrote h.2.1] at run
    exact run
  case add => exact (BitVec.ofNat_add ..).trans (by simp [a, b, x, i])
  case sub => exact ofNat_sub a b
  case shl => exact ofNat_shl a _
  case shr => exact ofNat_shr a _
  case sar => exact ofNat_sar a _
  case mulhu => exact ofNat_mulhu a b
  case and => exact BitVec.eq_of_toNat_eq (by simp [a, b, x, i])
  case or => exact BitVec.eq_of_toNat_eq (by simp [a, b, x, i])
  case xor => exact BitVec.eq_of_toNat_eq (by simp [a, b, x, i])
  case mul => exact (BitVec.ofNat_mul ..).trans (by simp [a, b, x, i])
  case min =>
    simp only [toSigned_toNat, toInt_le_iff_sle, apply_ite (BitVec.ofNat 64), BitVec.ofNat_toNat, BitVec.setWidth_eq, a, b, x, i]
  case max =>
    simp only [toSigned_toNat, toInt_le_iff_sle, apply_ite (BitVec.ofNat 64), BitVec.ofNat_toNat, BitVec.setWidth_eq, a, b, x, i]
  case seq => simp [ofNat_flag, BitVec.toNat_inj, a, b, x, i]
  case slt => simp [ofNat_flag, toSigned_toNat, BitVec.slt, a, b, x, i]
  case sltu => simp [ofNat_flag, BitVec.ult, a, b, x, i]

end Sys2Proof.Machine
end

section
/-! The bytes of a value (R10), and what MOVI, MOVHI, FHASH, BSWAP and the branches do (R308, R309). -/

namespace Sys2Proof.Machine

/-! The bytes of a value. -/

/-- Byte `k` of a value, byte 0 the least significant. -/
def byteOf (v k : Nat) : BitVec 8 := BitVec.ofNat 8 (v / 256 ^ k)

theorem truncate_ushiftRight_ofNat (v : Nat) {k : Nat} (inside : k < 8) :
    (BitVec.ofNat 64 v >>> (8 * k)).truncate 8 = byteOf v k := by
  have pow : 256 ^ k = 2 ^ (8 * k) := by rw [Nat.pow_mul]
  apply BitVec.eq_of_getLsbD_eq
  intro i hi
  have low : 8 * k + i < 64 := by omega
  simp only [byteOf, pow, ← Nat.shiftRight_eq_div_pow, BitVec.getLsbD_ofNat, BitVec.truncate, BitVec.getLsbD_setWidth,
    BitVec.getLsbD_ushiftRight, Nat.testBit_shiftRight, hi, low, decide_true, Bool.true_and]

theorem truncate_ushiftRight_eq_byteOf (b : BitVec 64) {k : Nat} (inside : k < 8) :
    (b >>> (8 * k)).truncate 8 = byteOf b.toNat k := by
  rw [← truncate_ushiftRight_ofNat b.toNat inside, BitVec.ofNat_toNat, BitVec.setWidth_eq]

theorem getD_le {n k : Nat} (v : Nat) (inside : k < n) : (le n v).getD k 0 = byteOf v k := by
  induction n generalizing v k with
  | zero => omega
  | succ n ih =>
    cases k with
    | zero => simp [le, byteOf]
    | succ k =>
      rw [le, List.getD_cons_succ, ih _ (by omega)]
      simp [byteOf, Nat.pow_succ', Nat.div_div_eq_div_mul]

theorem byteOf_leVal (bs : Bytes) (k : Nat) : byteOf (leVal bs) k = bs.getD k 0 := by
  induction bs generalizing k with
  | nil => simp [leVal, byteOf]
  | cons b bs ih =>
    have low := b.isLt
    cases k with
    | zero =>
      apply BitVec.eq_of_toNat_eq
      simp only [byteOf, leVal, Nat.pow_zero, Nat.div_one, BitVec.toNat_ofNat, List.getD_cons_zero]
      omega
    | succ k =>
      have drop : (b.toNat + 256 * leVal bs) / 256 = leVal bs := by omega
      rw [List.getD_cons_succ, ← ih k]
      simp only [byteOf, leVal, Nat.pow_succ', ← Nat.div_div_eq_div_mul, drop]

theorem leVal_lt (bs : Bytes) : leVal bs < 256 ^ bs.length := by
  induction bs with
  | nil => simp [leVal]
  | cons b bs ih =>
    have := b.isLt
    simp only [leVal, List.length_cons, Nat.pow_succ']
    omega

theorem beVal_eq_leVal_reverse (bs : Bytes) : beVal bs = leVal bs.reverse := by
  have fold (l : Bytes) : leVal l = l.foldr (fun b n => n * 256 + b.toNat) 0 := by
    induction l with
    | nil => rfl
    | cons b l ih => simp [leVal, ih, Nat.mul_comm, Nat.add_comm]
  rw [fold, List.foldr_reverse, beVal]

/-- BSWAP reverses the bytes below its width and leaves the bytes above it (log 62). -/
theorem byteOf_bswap (v w k : Nat) :
    byteOf (bswap v w) k = if k < w then byteOf v (w - 1 - k) else byteOf v k := by
  have pow : 2 ^ (8 * w) = 256 ^ w := by rw [Nat.pow_mul]
  have small : leVal (le w v).reverse < 256 ^ w := by simpa using leVal_lt (le w v).reverse
  have swapped : bswap v w = leVal (le w v).reverse + 256 ^ w * (v / 256 ^ w) := by
    rw [bswap, beVal_eq_leVal_reverse, pow, Nat.add_comm, Nat.mul_comm]
  rw [swapped]
  split
  case isTrue below =>
    obtain ⟨d, rfl⟩ : ∃ d, w = k + 1 + d := ⟨w - (k + 1), by omega⟩
    have split : 256 ^ (k + 1 + d) = 256 ^ k * (256 * 256 ^ d) := by
      rw [Nat.add_assoc, Nat.pow_add, Nat.pow_add, Nat.pow_one]
    have high : byteOf (leVal (le (k + 1 + d) v).reverse + 256 ^ (k + 1 + d) * (v / 256 ^ (k + 1 + d))) k =
        byteOf (leVal (le (k + 1 + d) v).reverse) k := by
      apply BitVec.eq_of_toNat_eq
      simp only [byteOf, BitVec.toNat_ofNat]
      rw [split, Nat.mul_assoc, Nat.add_mul_div_left _ _ (Nat.pow_pos (by decide)), Nat.mul_assoc]
      exact Nat.add_mul_mod_self_left ..
    rw [high, byteOf_leVal, List.getD_eq_getElem?_getD, List.getElem?_reverse (by simp; omega), le_length,
      ← List.getD_eq_getElem?_getD, getD_le _ (by omega)]
  case isFalse above =>
    obtain ⟨d, rfl⟩ : ∃ d, k = w + d := ⟨k - w, by omega⟩
    simp only [byteOf, Nat.pow_add, ← Nat.div_div_eq_div_mul]
    rw [Nat.add_mul_div_left _ _ (Nat.pow_pos (by decide)), Nat.div_eq_of_lt small, Nat.zero_add]

/-! Instructions with an immediate. -/

theorem ofNat_movhi {imm : Nat} (small : imm < 2 ^ 32) (b : BitVec 64) :
    BitVec.ofNat 64 (2 ^ 32 * imm + b.toNat % 2 ^ 32) = BitVec.ofNat 32 imm ++ b.truncate 32 := by
  apply BitVec.eq_of_toNat_eq
  have low : b.toNat % 2 ^ 32 < 2 ^ 32 := Nat.mod_lt _ (by decide)
  rw [BitVec.toNat_append, BitVec.toNat_ofNat, BitVec.toNat_ofNat, Nat.mod_eq_of_lt small, BitVec.truncate,
    BitVec.toNat_setWidth, ← Nat.shiftLeft_add_eq_or_of_lt low, Nat.shiftLeft_eq]
  omega

theorem fhashSeed_eq (s : State) (x : Thread) (i : Ins) :
    fhashSeed s x i = if i.imm / 2 % 4 = 0 then s.fs.seedA else if i.imm / 2 % 4 = 1 then s.fs.seedB
      else if i.imm / 2 % 4 = 2 then regBits x i.rb else s.fs.seedC ^^^ regBits x i.rb := by
  have field : bits i.imm 1 2 = i.imm / 2 % 4 := rfl
  unfold fhashSeed
  rw [field, regOf_eq_toNat, BitVec.ofNat_toNat, BitVec.setWidth_eq]
  have four : i.imm / 2 % 4 < 4 := Nat.mod_lt _ (by decide)
  generalize i.imm / 2 % 4 = k at four
  match k, four with
  | 0, _ | 1, _ | 2, _ | 3, _ => rfl

theorem bit_zero_eq_getLsbD (imm : Nat) : bit imm 0 = (BitVec.ofNat 32 imm).getLsbD 0 := by
  rw [BitVec.getLsbD_ofNat, Nat.testBit_zero]
  rw [bit, bits, Nat.pow_zero, Nat.div_one]
  rfl

theorem add_immVal_mod {i : Ins} (small : i.imm < 2 ^ 32) (pc : Nat) :
    (pc + immVal i) % 2 ^ 64 = (BitVec.ofNat 64 pc + (BitVec.ofNat 32 i.imm).signExtend 64).toNat := by
  rw [BitVec.toNat_add, BitVec.toNat_ofNat, Nat.mod_add_mod, immVal_eq_toNat small]

section
variable {s : State} {en : Fin 128} {t : Fin 8} {op : Nat} (stands : Stands s en.val t.val op)
include stands

/-- A branch goes to its target where its condition holds, else to the next instruction. -/
theorem issueOp_branch (cond : Nat → Nat → Bool) :
    issueOp s en t op (branch en.val t.val cond) =
      .next (afterStep (setThread (issued s en.val t.val) en.val t.val { threadAt s en.val t.val with
        pc := if cond (regBits (threadAt s en.val t.val) (before s en.val t.val).ra).toNat
            (regBits (threadAt s en.val t.val) (before s en.val t.val).rb).toNat = true
          then (BitVec.ofNat 64 (threadAt s en.val t.val).pc +
            (BitVec.ofNat 32 (before s en.val t.val).imm).signExtend 64).toNat
          else (threadAt s en.val t.val).pc + 1 }) en.val t.val (threadAt s en.val t.val).stepping) := by
  have ⟨_, low, _⟩ := stands
  have next : ((threadAt s en.val t.val).pc + 1) % 2 ^ 64 = (threadAt s en.val t.val).pc + 1 :=
    Nat.mod_eq_of_lt (by omega)
  rw [issueOp_stands stands, branch, regOf_eq_toNat, regOf_eq_toNat]
  congr 5
  split
  · exact add_immVal_mod (before_imm_lt s en.val t.val) _
  · exact next

end

/-- Settles O6: MOVI to BSWAP write one register, and BR to BLTU are `branch`. -/
theorem immediatesAndBranches : Obligations.ImmediatesAndBranches := by
  constructor
  · intro en t s x i s1 imm ends byte
    have small : i.imm < 2 ^ 32 := before_imm_lt s en.val t.val
    refine ⟨fun h => show execMovi en t s = _ from issueOp_alu h ?movi,
      fun h => show execMovhi en t s = _ from issueOp_alu h ?movhi, ?fhash, ?fhashFault,
      fun h => ⟨_, show execBswap en t s = _ from issueOp_alu h rfl, ?bswap⟩⟩
    case movi => rw [immVal_eq_toNat small, BitVec.ofNat_toNat, BitVec.setWidth_eq]
    case movhi => rw [regOf_eq_toNat, ofNat_movhi small]
    case fhash =>
      intro h inside
      have ⟨_, low, _⟩ := h
      refine (issueOp_stands h : execFhash en t s = _).trans ?_
      simp only [regOf_eq_toNat, inDmem, decide_eq_true_eq]
      rw [if_pos inside, alu, advance_eq_wrote low, fhashSeed_eq, bit_zero_eq_getLsbD, BitVec.ofNat_toNat,
        BitVec.setWidth_eq]
    case fhashFault =>
      intro h outside
      refine (issueOp_stands h : execFhash en t s = _).trans ?_
      simp only [regOf_eq_toNat, inDmem, decide_eq_true_eq]
      rw [if_neg (Nat.not_le.mpr outside)]
    case bswap =>
      intro w k inside
      have reversed := byteOf_bswap (regBits x i.ra).toNat w k
      have place : w - 1 - k < 8 := by
        have : w ≤ 8 := by
          simp only [w]
          split
          · decide
          · split <;> decide
        omega
      simp only [byte, truncate_ushiftRight_ofNat _ inside, truncate_ushiftRight_eq_byteOf _ inside,
        truncate_ushiftRight_eq_byteOf _ place, regOf_eq_toNat]
      exact reversed
  · intro en t s x i a b far ends at_
    have small : i.imm < 2 ^ 32 := before_imm_lt s en.val t.val
    have target : (x.pc + immVal i) % 2 ^ 64 = far := add_immVal_mod small x.pc
    refine ⟨fun h => show execBr en t s = _ from issueOp_branch h _,
      fun h => (show execBeq en t s = _ from issueOp_branch h _).trans ?beq,
      fun h => (show execBne en t s = _ from issueOp_branch h _).trans ?bne,
      fun h => (show execBlt en t s = _ from issueOp_branch h _).trans ?blt,
      fun h => (show execBltu en t s = _ from issueOp_branch h _).trans ?bltu, ?call, ?jmp⟩
    case beq => simp only [beq_iff_eq, BitVec.toNat_inj]; rfl
    case bne => simp only [bne_iff_ne, ne_eq, BitVec.toNat_inj]; rfl
    case blt => simp only [toSigned_toNat, BitVec.slt]; rfl
    case bltu => simp only [BitVec.ult]; rfl
    case call =>
      intro (h : Stands s en.val t.val 0x25)
      have low : x.pc < 8192 := h.2.1
      have next : (x.pc + 1) % 2 ^ 64 = x.pc + 1 := Nat.mod_eq_of_lt (by omega)
      refine (issueOp_stands h : execCall en t s = _).trans ?_
      rw [target, next]
      simp only [Thread.put, wrote]
      split <;> rfl
    case jmp =>
      intro h
      refine (issueOp_stands h : execJmp en t s = _).trans ?_
      rw [regOf_eq_toNat]

end Sys2Proof.Machine
end

section
/-! Loads and stores (R306, R308), and which bytes of data memory a store changes. -/

namespace Sys2Proof.Machine

/-! The access. -/

theorem dataAddr_eq_toNat {i : Ins} (small : i.imm < 2 ^ 32) (x : Thread) :
    dataAddr x i = (regBits x i.ra + (BitVec.ofNat 32 i.imm).signExtend 64).toNat := by
  rw [dataAddr, regOf_eq_toNat, immVal_eq_toNat small, BitVec.toNat_add]

section
variable {n t size : Nat} {eff : State → Thread → Ins → Nat → State} {s : State} {x : Thread} {i : Ins} {d : Nat}
  (addr : dataAddr x i = d)
include addr

theorem access_inside (inside : d + size ≤ 0x30000) (aligned : d % size = 0) :
    access n t size eff s x i = eff (countPmc s (threadEvent s n t 0x0B d) 1) x i d := by
  subst addr
  simp [access, inDmem, inside, aligned]

theorem access_outside (outside : 0x30000 < d + size ∨ d % size ≠ 0) :
    access n t size eff s x i = faultThread s n t 2 := by
  subst addr
  have off : (!inDmem (dataAddr x i) size || dataAddr x i % size != 0) = true := by
    simpa [inDmem, Nat.not_le] using outside
  simp only [access, off, if_true]

end

section
variable {s : State} {en : Fin 128} {t : Fin 8} {op size : Nat} (stands : Stands s en.val t.val op) {d : Nat}
  (addr : dataAddr (threadAt s en.val t.val) (before s en.val t.val) = d)
include stands addr

theorem issueOp_load (inside : d + size ≤ 0x30000) (aligned : d % size = 0) :
    issueOp s en t op (load en.val t.val size) =
      let s1 := countPmc (issued s en.val t.val) (threadEvent (issued s en.val t.val) en.val t.val 0x0B d) 1
      .next (afterStep (setThread s1 en.val t.val { threadAt s en.val t.val with
        st := .waitMemory
        mem := some { rd := (before s en.val t.val).rd, value := BitVec.ofNat 64 (leVal (dmemBytes s1 en.val d size))
                      addr := 0, data := [], load := true } })
        en.val t.val (threadAt s en.val t.val).stepping) := by
  rw [issueOp_stands stands, load, access_inside addr inside aligned]

theorem issueOp_store (inside : d + size ≤ 0x30000) (aligned : d % size = 0) :
    issueOp s en t op (store en.val t.val size) =
      let s1 := countPmc (issued s en.val t.val) (threadEvent (issued s en.val t.val) en.val t.val 0x0B d) 1
      .next (afterStep (writeDmem (setThread s1 en.val t.val (wrote (threadAt s en.val t.val) 0 0)) en.val d
        (le size (regBits (threadAt s en.val t.val) (before s en.val t.val).rb).toNat))
        en.val t.val (threadAt s en.val t.val).stepping) := by
  have ⟨_, low, _⟩ := stands
  rw [issueOp_stands stands, store, access_inside addr inside aligned, advance_eq_wrote low, regOf_eq_toNat]
  rfl

theorem issueOp_load_outside (outside : 0x30000 < d + size ∨ d % size ≠ 0) :
    issueOp s en t op (load en.val t.val size) =
      .next (afterStep (faultThread (issued s en.val t.val) en.val t.val 2) en.val t.val
        (threadAt s en.val t.val).stepping) := by
  rw [issueOp_stands stands, load, access_outside addr outside]

theorem issueOp_store_outside (outside : 0x30000 < d + size ∨ d % size ≠ 0) :
    issueOp s en t op (store en.val t.val size) =
      .next (afterStep (faultThread (issued s en.val t.val) en.val t.val 2) en.val t.val
        (threadAt s en.val t.val).stepping) := by
  rw [issueOp_stands stands, store, access_outside addr outside]

end

/-- The thread whose load completes takes the value and goes on; halted, it stays so (log 61). -/
theorem resumeThread_eq_wrote {s : State} {n t : Nat} {x : Thread} (thread : threadAt s n t = x) (low : x.pc < 8192)
    (r : Nat) (v : BitVec 64) :
    resumeThread s n t r v.toNat = setThread s n t { wrote x r v with
      mem := none
      st := if x.st = .halted then .halted else .ready
      resume := if x.st = .halted then .ready else x.resume } := by
  subst thread
  have next : ((threadAt s n t).pc + 1) % 2 ^ 64 = (threadAt s n t).pc + 1 := Nat.mod_eq_of_lt (by omega)
  have value : BitVec.ofNat 64 v.toNat = v := by simp
  simp only [resumeThread, Thread.put, wrote, next, value]
  by_cases halted : (threadAt s n t).st = .halted <;> by_cases zero : r = 0 <;> simp [halted, zero]

/-- Settles O7: every load is `load` and every store `store`, in range or out of it. -/
theorem loadsAndStores : Obligations.LoadsAndStores := by
  constructor
  · intro en t s x i d s1 fits loads stores
    have addr : dataAddr x i = d := dataAddr_eq_toNat (before_imm_lt s en.val t.val) x
    refine ⟨fun ⟨h, inside, aligned⟩ => (issueOp_load h addr inside aligned : execLd8 en t s = _),
      fun ⟨h, inside, aligned⟩ => (issueOp_load h addr inside aligned : execLd16 en t s = _),
      fun ⟨h, inside, aligned⟩ => (issueOp_load h addr inside aligned : execLd32 en t s = _),
      fun ⟨h, inside, aligned⟩ => (issueOp_load h addr inside aligned : execLd64 en t s = _),
      fun ⟨h, inside, aligned⟩ => (issueOp_store h addr inside aligned : execSt8 en t s = _),
      fun ⟨h, inside, aligned⟩ => (issueOp_store h addr inside aligned : execSt16 en t s = _),
      fun ⟨h, inside, aligned⟩ => (issueOp_store h addr inside aligned : execSt32 en t s = _),
      fun ⟨h, inside, aligned⟩ => (issueOp_store h addr inside aligned : execSt64 en t s = _), ?_⟩
    intro m corrected result load low
    change execLoadComplete en ⟨t, corrected⟩ s = _
    simp only [execLoadComplete, show (threadAt s en.val t.val).mem = some m from result, load, if_true]
    exact congrArg Host.Outcome.next (resumeThread_eq_wrote (s := dmemCorrected s en.val corrected) (x := x) rfl low m.rd m.value)
  · intro en t s x i d off faults
    have addr : dataAddr x i = d := dataAddr_eq_toNat (before_imm_lt s en.val t.val) x
    exact ⟨fun ⟨h, outside⟩ => (issueOp_load_outside h addr outside : execLd8 en t s = _),
      fun ⟨h, outside⟩ => (issueOp_load_outside h addr outside : execLd16 en t s = _),
      fun ⟨h, outside⟩ => (issueOp_load_outside h addr outside : execLd32 en t s = _),
      fun ⟨h, outside⟩ => (issueOp_load_outside h addr outside : execLd64 en t s = _),
      fun ⟨h, outside⟩ => (issueOp_store_outside h addr outside : execSt8 en t s = _),
      fun ⟨h, outside⟩ => (issueOp_store_outside h addr outside : execSt16 en t s = _),
      fun ⟨h, outside⟩ => (issueOp_store_outside h addr outside : execSt32 en t s = _),
      fun ⟨h, outside⟩ => (issueOp_store_outside h addr outside : execSt64 en t s = _)⟩

/-! What a store leaves alone. -/

/-- A value other than the default is read back from where it was written, canonical form or not. -/
theorem getAt_setAt_of_ne {α : Type} [DecidableEq α] {d v : α} (h : v ≠ d) (m : Store α) (n : Nat) :
    getAt d (setAt d m n v) n = v := by
  rw [setAt, if_neg h]
  induction m with
  | nil => simp [putAt, getAt]
  | cons e m ih =>
    obtain ⟨k, w⟩ := e
    unfold putAt
    split
    · simp [getAt]
    · split
      · simp [getAt]
      · rename_i other
        simp [getAt, other, ih]

theorem setAt_ne_nil {α : Type} [DecidableEq α] {d v : α} (h : v ≠ d) (m : Store α) (n : Nat) : setAt d m n v ≠ [] := by
  intro empty
  have back := getAt_setAt_of_ne h m n
  rw [empty] at back
  exact h back.symm

theorem engAt_setEng_same {e : Engine} (h : e ≠ {}) (s : State) (n : Nat) : engAt (setEng s n e) n = e :=
  getAt_setAt_of_ne h _ n

theorem engAt_setEng_other {n k : Nat} (h : k ≠ n) (s : State) (e : Engine) : engAt (setEng s n e) k = engAt s k :=
  getAt_setAt_other h _ e

theorem engine_ne_default {e : Engine} (h : e.threads ≠ []) : e ≠ {} := fun empty => h (congrArg Engine.threads empty)

theorem thread_ne_default {x : Thread} (h : x.task.isSome = true) : x ≠ {} := by
  rintro rfl
  cases h

section
variable {x : Thread} (serving : x.task.isSome = true) (s : State) (n t : Nat)
include serving

theorem engAt_setThread_same :
    engAt (setThread s n t x) n = { engAt s n with threads := setAt {} (engAt s n).threads t x } :=
  engAt_setEng_same (engine_ne_default (setAt_ne_nil (thread_ne_default serving) _ t)) s n

theorem threadAt_setThread_same : threadAt (setThread s n t x) n t = x := by
  change getAt {} (engAt (setThread s n t x) n).threads t = x
  rw [engAt_setThread_same serving]
  exact getAt_setAt_of_ne (thread_ne_default serving) _ t

end

theorem engAt_setThread_other {n k : Nat} (h : k ≠ n) (s : State) (t : Nat) (x : Thread) :
    engAt (setThread s n t x) k = engAt s k := engAt_setEng_other h s _

/-- The boundary after an instruction leaves the state as it is or writes the thread, which serves the same task (R352). -/
theorem afterStep_cases (s : State) (n t : Nat) (stepping : Bool) :
    afterStep s n t stepping = s ∨
      ∃ y : Thread, y.task = (threadAt s n t).task ∧ afterStep s n t stepping = setThread s n t y := by
  unfold afterStep
  split
  · exact .inl rfl
  · dsimp only
    split <;> exact .inr ⟨_, by rfl, rfl⟩

@[simp] theorem countPmc_eng (s : State) (e : PmcEvent) (n : Nat) : (countPmc s e n).eng = s.eng :=
  (congrArg State.eng (countPmc_unreported s e n) :)

@[simp] theorem countPmc_pending (s : State) (e : PmcEvent) (n : Nat) : (countPmc s e n).pending = s.pending :=
  (congrArg State.pending (countPmc_unreported s e n) :)

@[simp] theorem countPmc_fs (s : State) (e : PmcEvent) (n : Nat) : (countPmc s e n).fs = s.fs :=
  (congrArg State.fs (countPmc_unreported s e n) :)

@[simp] theorem countPmc_tbl (s : State) (e : PmcEvent) (n : Nat) : (countPmc s e n).tbl = s.tbl :=
  (congrArg State.tbl (countPmc_unreported s e n) :)

@[simp] theorem issued_eng (s : State) (n t : Nat) : (issued s n t).eng = s.eng := countPmc_eng ..

/-- Nothing but the state of the engines differs. -/
def State.SameButEngines (s u : State) : Prop :=
  u.pending = s.pending ∧ u.fs = s.fs ∧ u.tbl = s.tbl ∧ u.regs = s.regs

theorem sameButEngines_issued (s : State) (n t : Nat) (e : PmcEvent) (k : Nat) :
    s.SameButEngines (countPmc (issued s n t) e k) := by
  refine ⟨?_, ?_, ?_, ?_⟩ <;> simp [issued, count]

/-- A store's bytes, and the engines' data memories around them, before the boundary after the instruction. -/
theorem dmem_writeDmem_setThread {s : State} {n t : Nat} {x : Thread} (serving : x.task.isSome = true) (d : Nat) (bs : Bytes) :
    let v := writeDmem (setThread s n t x) n d bs
    (engAt v n).dmem = Memory.writeN (engAt s n).dmem d bs ∧ (∀ k, k ≠ n → (engAt v k).dmem = (engAt s k).dmem) ∧
      (threadAt v n t).task = x.task := by
  have thread := threadAt_setThread_same serving s n t
  have eng := engAt_setThread_same serving s n t
  have listed : (engAt (setThread s n t x) n).threads ≠ [] := by
    rw [eng]
    exact setAt_ne_nil (thread_ne_default serving) _ t
  have back : engAt (writeDmem (setThread s n t x) n d bs) n =
      { engAt (setThread s n t x) n with dmem := Memory.writeN (engAt (setThread s n t x) n).dmem d bs } := by
    refine engAt_setEng_same ?_ _ n
    exact engine_ne_default listed
  refine ⟨?_, fun k other => ?_, ?_⟩
  · rw [back, eng]
  · rw [writeDmem, engAt_setEng_other other, engAt_setThread_other other]
  · change (getAt {} (engAt (writeDmem (setThread s n t x) n d bs) n).threads t).task = x.task
    rw [back]
    exact congrArg Thread.task thread

/-- The boundary after an instruction leaves every data memory alone. -/
theorem dmem_afterStep {s : State} {n t : Nat} (serving : (threadAt s n t).task.isSome = true) (stepping : Bool) (k : Nat) :
    (engAt (afterStep s n t stepping) k).dmem = (engAt s k).dmem := by
  rcases afterStep_cases s n t stepping with same | ⟨y, task, wrote⟩
  · rw [same]
  · rw [wrote]
    by_cases other : k = n
    · subst other
      rw [engAt_setThread_same (task ▸ serving)]
    · rw [engAt_setThread_other other]

theorem sameButEngines_afterStep (s : State) (n t : Nat) (stepping : Bool) : s.SameButEngines (afterStep s n t stepping) := by
  rcases afterStep_cases s n t stepping with same | ⟨y, -, wrote⟩
  · rw [same]
    exact ⟨rfl, rfl, rfl, rfl⟩
  · rw [wrote]
    exact ⟨rfl, rfl, rfl, rfl⟩

/-- The frame of a store of `size` bytes of `v` at `d` (R308). -/
theorem store_frame {s s1 : State} {n t d size : Nat} {x : Thread} {v : BitVec 64} (eng : s1.eng = s.eng)
    (same : s.SameButEngines s1) (serving : x.task.isSome = true) (wide : size ≤ 8)
    (canonical : Memory.wf (engAt s n).dmem = true) (stepping : Bool) :
    let u := afterStep (writeDmem (setThread s1 n t x) n d (le size v.toNat)) n t stepping
    (∀ k < size, Memory.read (engAt u n).dmem (d + k) = (v >>> (8 * k)).truncate 8) ∧
    (∀ k, k < d ∨ d + size ≤ k → Memory.read (engAt u n).dmem k = Memory.read (engAt s n).dmem k) ∧
    (∀ m, m ≠ n → (engAt u m).dmem = (engAt s m).dmem) ∧ s.SameButEngines u := by
  intro u
  have at1 (k : Nat) : engAt s1 k = engAt s k := by unfold engAt; rw [eng]
  obtain ⟨here, others, task⟩ := dmem_writeDmem_setThread (s := s1) (n := n) (t := t) serving d (le size v.toNat)
  have kept := dmem_afterStep (n := n) (t := t) (task ▸ serving) stepping
  have mine : (engAt u n).dmem = Memory.writeN (engAt s n).dmem d (le size v.toNat) := by
    rw [kept n, here, at1]
  refine ⟨fun k inside => ?_, fun k outside => ?_, fun m other => ?_, ?_⟩
  · rw [mine, Memory.read_writeN_inside canonical (by simpa using inside), getD_le _ inside,
      truncate_ushiftRight_eq_byteOf v (by omega)]
  · rw [mine, Memory.read_writeN_outside (by simpa using outside)]
  · rw [kept m, others m other, at1]
  · obtain ⟨p, f, tb, r⟩ := sameButEngines_afterStep (writeDmem (setThread s1 n t x) n d (le size v.toNat)) n t stepping
    obtain ⟨p1, f1, tb1, r1⟩ := same
    exact ⟨p.trans p1, f.trans f1, tb.trans tb1, r.trans r1⟩

/-- Settles O8: a store is `writeDmem` after a write of its thread, and neither the thread nor the boundary after the
instruction touches a data memory. -/
theorem storeFrame : Obligations.StoreFrame := by
  intro en t s u x i d fits kept canonical
  have addr : dataAddr x i = d := dataAddr_eq_toNat (before_imm_lt s en.val t.val) x
  have stored {c : Instr} {op size : Nat} (run : exec c s = issueOp s en t op (store en.val t.val size)) (wide : size ≤ 8)
      (fit : fits op size) (next : exec c s = .next u) : kept size := by
    obtain ⟨h, inside, aligned⟩ := fit
    have serving : (wrote x 0 0).task.isSome = true := by
      have ⟨may, _, _⟩ := h
      simp only [mayIssue, Bool.and_eq_true] at may
      exact may.2
    rw [run, issueOp_store h addr inside aligned] at next
    injection next with final
    subst final
    exact store_frame (by simp) (sameButEngines_issued ..) serving wide canonical _
  exact ⟨stored rfl (by decide), stored rfl (by decide), stored rfl (by decide), stored rfl (by decide)⟩

end Sys2Proof.Machine
end

section
/-! What a report leaves of the host side: besides the rings and the pending interrupts nothing of it changes, so the accepted
commands and the last accept number stand (R442, R447). -/

namespace Sys2Proof.Machine

/-- The state apart from output, rings, pending interrupts, counters, performance counters and bond links: what a report
leaves alone. -/
def State.unposted (s : State) : State :=
  { s with out := [], host := { s.host with rings := [], msixPending := [] }, ctr := {}, pmc := []
           stk := { s.stk with links := [] } }

theorem State.host_eq_of_unposted {s t : State} (h : t.unposted = s.unposted) :
    t.host = { s.host with rings := t.host.rings, msixPending := t.host.msixPending } := by
  have parts : t.unposted.host = s.unposted.host := congrArg State.host h
  cases hs : s.host
  cases ht : t.host
  simp only [State.unposted, hs, ht] at parts ⊢
  cases parts
  rfl

theorem State.accepted_eq_of_unposted {s t : State} (h : t.unposted = s.unposted) : t.host.accepted = s.host.accepted := by
  rw [State.host_eq_of_unposted h]

theorem State.lastAseq_eq_of_unposted {s t : State} (h : t.unposted = s.unposted) : t.host.lastAseq = s.host.lastAseq := by
  rw [State.host_eq_of_unposted h]

@[simp] theorem State.withCtr_unposted (s : State) (v : CtrSt) : (s.withCtr v).unposted = s.unposted := rfl

@[simp] theorem emit_unposted (s : State) (o : Out) : (emit s o).unposted = s.unposted := rfl

@[simp] theorem setRing_unposted (s : State) (h page : Nat) (r : Ring) : (setRing s h page r).unposted = s.unposted := rfl

@[simp] theorem setBond_unposted (s : State) (n : Nat) (x : Bond) : (setBond s n x).unposted = s.unposted := rfl

@[simp] theorem setPmc_unposted (s : State) (j : Nat) (p : Pmc) : (setPmc s j p).unposted = s.unposted := rfl

@[simp] theorem count_unposted (s : State) (kind num idx n : Nat) : (count s kind num idx n).unposted = s.unposted := rfl

@[simp] theorem hostWrite_unposted (s : State) (h addr : Nat) (data : Bytes) :
    (hostWrite s h addr data).unposted = s.unposted := by
  unfold hostWrite
  split <;> simp

@[simp] theorem writeBack_unposted (s : State) (h page idx : Nat) : (writeBack s h page idx).unposted = s.unposted := by
  simp only [writeBack]
  split <;> simp

@[simp] theorem sendMsix_unposted (s : State) (h vector : Nat) : (sendMsix s h vector).unposted = s.unposted := by
  unfold sendMsix
  split <;> rfl

@[simp] theorem signal_unposted (s : State) (h page n : Nat) : (signal s h page n).unposted = s.unposted := by
  simp only [signal]
  split
  · simp
  · split <;> simp

@[simp] theorem putEntries_unposted (s : State) (h page : Nat) (es : List (Nat → Bytes)) :
    (putEntries s h page es).unposted = s.unposted := by
  induction es generalizing s with
  | nil => rfl
  | cons e es ih => simp [putEntries, ih]

@[simp] theorem post_unposted (s : State) (h page : Nat) (es : List (Nat → Bytes)) :
    (post s h page es).unposted = s.unposted := by
  simp [post]

@[simp] theorem sendCell_unposted (s : State) (link cls : Nat) (cell : Bytes) :
    (sendCell s link cls cell).unposted = s.unposted := by
  simp only [sendCell]
  split
  · simp
  · split <;> simp

@[simp] theorem sendRelayCells_unposted (s : State) (link dst tag aux : Nat) (first : Bool) (ps : List Bytes) :
    (sendRelayCells s link dst tag aux first ps).unposted = s.unposted := by
  induction ps generalizing s first with
  | nil => rfl
  | cons p ps ih => simp [sendRelayCells, ih]

@[simp] theorem relayTo_unposted (s : State) (dst kind tag aux : Nat) (data : Bytes) :
    (relayTo s dst kind tag aux data).unposted = s.unposted := by
  unfold relayTo
  split <;> simp

@[simp] theorem postEventOn_unposted (s : State) (h ring grp num org time : Nat) (body : Bytes) :
    (postEventOn s h ring grp num org time body).unposted = s.unposted := by
  simp only [postEventOn]
  split <;> simp

@[simp] theorem routeEvent_unposted (s : State) (grp num org time : Nat) (body : Bytes) :
    (routeEvent s grp num org time body).unposted = s.unposted := by
  simp only [routeEvent]
  split <;> simp [apply_ite State.unposted]

@[simp] theorem postEvent_unposted (s : State) (grp num org : Nat) (body : Bytes) :
    (postEvent s grp num org body).unposted = s.unposted := by
  unfold postEvent
  split <;> simp

@[simp] theorem pmcAdd_unposted (s : State) (j n : Nat) : (pmcAdd s j n).unposted = s.unposted := by
  simp only [pmcAdd]
  split
  · simp
  · split <;> simp

theorem foldl_unposted {α : Type} {f : State → α → State} (h : ∀ s a, (f s a).unposted = s.unposted)
    (l : List α) (s : State) : (l.foldl f s).unposted = s.unposted := by
  induction l generalizing s with
  | nil => rfl
  | cons a l ih => simp [ih, h]

@[simp] theorem countPmc_unposted (s : State) (e : PmcEvent) (n : Nat) : (countPmc s e n).unposted = s.unposted := by
  refine foldl_unposted (fun t p => ?_) _ s
  split <;> simp

@[simp] theorem countPmc_accepted (s : State) (e : PmcEvent) (n : Nat) :
    (countPmc s e n).host.accepted = s.host.accepted :=
  State.accepted_eq_of_unposted (countPmc_unposted s e n)

@[simp] theorem countPmc_lastAseq (s : State) (e : PmcEvent) (n : Nat) :
    (countPmc s e n).host.lastAseq = s.host.lastAseq :=
  State.lastAseq_eq_of_unposted (countPmc_unposted s e n)

@[simp] theorem postEvent_own (s : State) (grp num org : Nat) (body : Bytes) : (postEvent s grp num org body).own = s.own :=
  State.own_eq_of_unreported (postEvent_unreported s grp num org body)

@[simp] theorem postEvent_regs (s : State) (grp num org : Nat) (body : Bytes) :
    (postEvent s grp num org body).regs = s.regs :=
  State.regs_eq_of_unreported (postEvent_unreported s grp num org body)

end Sys2Proof.Machine
end

section
/-! The acceptance of commands (R447), their completion on a CPL ring (R447 to R449), and the ownership (R469 to R474). -/

namespace Sys2Proof.Machine

/-- Settles O17: bit by bit, the mask of the written fields picks the new value or the old one. -/
theorem writtenFieldsOnly : Obligations.WrittenFieldsOnly := by
  intro r old v k inside
  have mask : (2 ^ 64 - 1).testBit k = true := by
    rw [Nat.testBit_two_pow_sub_one]
    simpa using inside
  simp only [mergedValue, Nat.testBit_or, Nat.testBit_and, Nat.testBit_xor, mask]
  cases r.written.testBit k <;> simp

/-! Acceptance. -/

theorem consumeDesc_unposted (s : State) (src : Source) : (consumeDesc s src).unposted = s.unposted := by
  unfold consumeDesc
  split
  · dsimp only
    split <;> simp
  · rfl

/-- Settles O21: the only branch that accepts follows those that refuse, and neither the consumed descriptor nor the
performance count changes the accepted commands. -/
theorem acceptNumbers : Obligations.AcceptNumbers := by
  intro s t src op seq cpl result tag inst fence quiet ok a accepts
  have consumed := consumeDesc_unposted s src
  have list := State.accepted_eq_of_unposted consumed
  cases src with
  | cmdRing h ring =>
    simp only [accept] at accepts
    split at accepts
    · cases accepts
    · split at accepts
      · cases accepts
      · split at accepts
        · cases accepts
        · rename_i owner
          split at accepts
          · cases accepts
          · cases accepts
            simp [list, masterOf, Classical.not_not.mp owner]
  | mailbox | relay =>
    simp only [accept] at accepts
    split at accepts
    · cases accepts
    · rename_i owner
      split at accepts
      · cases accepts
      · cases accepts
        simp [Classical.not_not.mp owner]

/-! Completion. -/

theorem ringAt_setRing_of_ne {r : Ring} (h : r ≠ {}) (s : State) (host page : Nat) :
    ringAt (setRing s host page r) host page = r := getAt_setAt_of_ne h _ _

theorem completionBytes_ne_nil (a : Accepted) (status result phase : Nat) :
    completionBytes a status result phase ≠ [] := by
  simp [completionBytes, le]

theorem hostWrite_of_ne_nil {data : Bytes} (h : data ≠ []) (s : State) (host addr : Nat) :
    hostWrite s host addr data = emit s (.hostWrite host addr data) := by
  simp [hostWrite, h]

/-- A reply without a block, to a command from a CMD ring, stands as it is and writes no result block (R450, R451). -/
theorem checkResult_of_cmdRing {a : Accepted} {r : Reply} {h : HostNo} {ring : Fin 64} (src : a.src = .cmdRing h ring)
    (block : r.block = []) : checkResult a r = r := by
  have direct : relayedOut a r = false := by simp [relayedOut, src]
  simp [checkResult, direct, block]

theorem writeResult_of_block_nil {a : Accepted} {r : Reply} {h : HostNo} {ring : Fin 64} (src : a.src = .cmdRing h ring)
    (block : r.block = []) (s : State) : writeResult s a r = s := by
  unfold writeResult
  rw [src, block]
  dsimp only
  split <;> simp [hostWrite]

/-- One entry posted on a ring with no index write-back and no moderation: the entry, then the interrupt (R440, R442). -/
theorem post_one {s : State} {h page : Nat} {e : Nat → Bytes} (runs : ringRuns s h page = true)
    (noIndex : regVal s .ringWb (ringNo h page) = 0) (atOnce : regField s .ringCfg (ringNo h page) 28 4 = 0)
    (open_ : getAt true s.host.masked (256 * h + regField s .ringCfg (ringNo h page) 8 8) = false)
    (some_ : ∀ ph, e ph ≠ []) :
    let q := (ringAt s h page).prod
    let t := post s h page [e]
    t.host.accepted = s.host.accepted ∧
    t.out = .msix h (regField s .ringCfg (ringNo h page) 8 8) ::
      .hostWrite h (entryAddr s h page q) (e (phaseOf s h page q)) :: s.out ∧
    (ringAt t h page).prod = (q + 1) % 2 ^ 32 := by
  intro q t
  have running : ({ ringAt s h page with prod := (q + 1) % 2 ^ 32 } : Ring) ≠ {} := by
    intro idle
    have st : (ringAt s h page).st = ({} : Ring).st := (congrArg Ring.st idle :)
    simp [ringRuns, st] at runs
  let u := setRing (emit s (.hostWrite h (entryAddr s h page q) (e (phaseOf s h page q)))) h page
    { ringAt s h page with prod := (q + 1) % 2 ^ 32 }
  have regs : u.regs = s.regs := rfl
  have val (r : Reg) (i : Nat) : regVal u r i = regVal s r i := regVal_congr (congrArg Regs.applied regs) r i
  have whole : t = emit u (.msix h (regField s .ringCfg (ringNo h page) 8 8)) := by
    have bare : writeBack u h page (ringAt u h page).prod = u := by
      simp only [writeBack, val, noIndex]
      rfl
    have sent : signal u h page 1 = sendMsix u h (regField s .ringCfg (ringNo h page) 8 8) := by
      simp only [signal, val]
      exact if_pos atOnce
    have put : putEntries s h page [e] = u := by
      simp only [putEntries, hostWrite_of_ne_nil (some_ _)]
      rfl
    change signal (writeBack (putEntries s h page [e]) h page (ringAt (putEntries s h page [e]) h page).prod) h page 1 = _
    rw [put, bare, sent, sendMsix]
    exact if_neg (by rw [show u.host.masked = s.host.masked from rfl, open_]; decide)
  refine ⟨by rw [whole]; rfl, by rw [whole]; rfl, ?_⟩
  rw [whole]
  exact congrArg Ring.prod (ringAt_setRing_of_ne running _ h page)

/-- Settles O22: the reply stands, no result block is written, and `post` writes the completion before the interrupt. -/
theorem completionPosted : Obligations.CompletionPosted := by
  intro s a h ring r src quiet block small runs noIndex atOnce open_ q t
  have ended : t = post (s.withHost { s.host with accepted := s.host.accepted.filter (fun b => b.aseq != a.aseq) }) h.val
      (64 + a.cpl) [fun ph => completionBytes a r.status r.result ph] := by
    simp only [t, completeCmd, checkResult_of_cmdRing src block, if_true, writeResult_of_block_nil src block, quiet,
      Bool.false_and, postCompletion, src]
    exact if_pos runs
  have posted := post_one (s := s.withHost { s.host with accepted := s.host.accepted.filter (fun b => b.aseq != a.aseq) })
    (e := fun ph => completionBytes a r.status r.result ph) runs noIndex atOnce open_
    (fun ph => completionBytes_ne_nil a _ _ ph)
  rw [ended]
  exact posted

/-! Bids and the handover. -/

theorem leaseFrom_congr {s t : State} (cc : t.clk = s.clk) (applied : t.regs.applied = s.regs.applied) :
    leaseFrom t = s.clk.cc + 1500000 * leaseMs s := by
  simp only [leaseFrom, leaseMs, regField, regVal_congr applied, cc]

/-- Settles O25: the handover writes the owner, the fence and the lease, and the event that reports it leaves them alone. -/
theorem handover : Obligations.Handover := by
  intro s new cause t
  let v := match s.own.owner with
    | some f => withdrawBid s f
    | none => s
  have kept : v.host = s.host ∧ leaseFrom v = s.clk.cc + 1500000 * leaseMs s ∧
      v.own.bids = s.own.bids.filter (fun b => s.own.owner != some b.master) := by
    simp only [v]
    cases former : s.own.owner with
    | none => exact ⟨rfl, rfl, (List.filter_eq_self.mpr fun _ _ => rfl).symm⟩
    | some f =>
      refine ⟨rfl, leaseFrom_congr rfl rfl, ?_⟩
      change s.own.bids.filter _ = s.own.bids.filter _
      congr 1
      funext b
      rw [bne, bne, BEq.comm, Option.some_beq_some]
  obtain ⟨host, lease, bids⟩ := kept
  have own : t.own = { v.own with
      owner := new, ownerPrio := t.own.ownerPrio, fenceSeq := v.host.lastAseq
      leaseEnd := if new.isSome then leaseFrom v else 0 } := by
    simp only [t, changeOwner, postEvent_own]
    rfl
  rw [own]
  refine ⟨rfl, congrArg HostSt.lastAseq host, fun held => ?_, fun f b former stands => ?_, fun b stands other => ?_⟩
  · simp [Option.isSome_iff_ne_none.mpr held, lease]
  · simp only [bids, List.mem_filter, former] at stands
    rintro rfl
    simp at stands
  · simp only [bids, List.mem_filter]
    exact ⟨stands, by simpa using other⟩

/-- A bid is no better than another, by PRIO, then NONCE, then the lower master (R471). -/
def Bid.NoBetter (c b : Bid) : Prop :=
  c.prio < b.prio ∨ (c.prio = b.prio ∧ (c.nonce < b.nonce ∨ (c.nonce = b.nonce ∧ b.master ≤ c.master)))

theorem Bid.NoBetter.refl (b : Bid) : b.NoBetter b := by
  unfold Bid.NoBetter
  omega

theorem Bid.NoBetter.trans {a b c : Bid} (h : a.NoBetter b) (k : b.NoBetter c) : a.NoBetter c := by
  unfold Bid.NoBetter at *
  omega

theorem noBetter_of_betterBid {a b : Bid} (h : betterBid a b = true) : b.NoBetter a := by
  simp only [betterBid, Bool.or_eq_true, Bool.and_eq_true, decide_eq_true_eq, beq_iff_eq] at h
  unfold Bid.NoBetter
  omega

theorem noBetter_of_not_betterBid {a b : Bid} (h : ¬betterBid a b = true) : a.NoBetter b := by
  simp only [betterBid, Bool.or_eq_true, Bool.and_eq_true, decide_eq_true_eq, beq_iff_eq] at h
  unfold Bid.NoBetter
  omega

theorem bestBid_eq_none {bids : List Bid} : bestBid bids = none ↔ bids = [] := by
  cases bids with
  | nil => exact iff_of_true rfl rfl
  | cons b bs =>
    simp only [bestBid, reduceCtorEq, iff_false]
    split
    · split <;> simp
    · simp

theorem bestBid_spec {bids : List Bid} {b : Bid} (h : bestBid bids = some b) : b ∈ bids ∧ ∀ c ∈ bids, c.NoBetter b := by
  induction bids generalizing b with
  | nil => cases h
  | cons d ds ih =>
    simp only [bestBid] at h
    split at h
    case h_1 e best =>
      obtain ⟨mem, noBetter⟩ := ih best
      split at h <;> cases h
      case isTrue better =>
        refine ⟨List.mem_cons_self, fun c hc => ?_⟩
        rcases List.mem_cons.mp hc with rfl | hc
        · exact .refl _
        · exact (noBetter c hc).trans (noBetter_of_betterBid better)
      case isFalse worse =>
        refine ⟨List.mem_cons_of_mem _ mem, fun c hc => ?_⟩
        rcases List.mem_cons.mp hc with rfl | hc
        · exact noBetter_of_not_betterBid worse
        · exact noBetter c hc
    case h_2 none =>
      cases h
      obtain rfl := bestBid_eq_none.mp none
      refine ⟨List.mem_cons_self, fun c hc => ?_⟩
      obtain rfl := List.mem_singleton.mp hc
      exact .refl _

/-- Settles O26, by induction on the standing bids. -/
theorem bestBid_best : Obligations.BestBid := fun _ => ⟨bestBid_eq_none, fun _ h => bestBid_spec h⟩

end Sys2Proof.Machine
end

section
/-! The channel, lock and timer instructions, and what stops a thread (R303, R308, R313 to R322, R344, R352). -/

namespace Sys2Proof.Machine

@[simp] theorem bits_low (v w : Nat) : bits v 0 w = v % 2 ^ w := by
  simp [bits]

/-- A state that no run from reset reaches: channel 0 of cluster 0 is listed twice, first at its default value and then with a
visible word and a reader that waits. -/
def channelListedTwice : State :=
  { ({} : State) with
    eng := { ({} : EngSt) with
      cl := [(0, { ({} : Cluster) with
        chans := [(0, {}), (0, { ({} : Chan) with words := [{ word := 0, side := 0, visible := true }], readers := [0] })] })] } }

/-- Refutes O9: the statement speaks of every state, and in one whose store of channels is not in canonical form the write of
the default channel uncovers a second entry of the same channel, whose reader CH_WORDS_VISIBLE then serves. -/
theorem not_channels : ¬Obligations.Channels := by
  intro h
  obtain ⟨-, -, -, -, -, -, -, -, -, -, -, visible⟩ := h 0 0 channelListedTwice
  have served := visible 0 0 (by decide +kernel)
  have words : (exec (.chWordsVisible 0 0) channelListedTwice).rec (motive := fun _ => Nat)
      (fun t => (chanAt t 0 0).words.length) (fun _ => 0) (fun _ => 0) = 0 := by decide +kernel
  rw [served] at words
  revert words
  decide +kernel

/-! Locks. -/

section
variable {s : State} {n t : Nat} {try_ : Bool} {x : Thread} {i : Ins}

theorem acquire_denied (denied : lockAllowed s n t (i.imm % 256) = false) :
    acquire n t try_ s x i = faultThread s n t 8 := by
  simp [acquire, denied]

section
variable (allowed : lockAllowed s n t (i.imm % 256) = true)
include allowed

theorem acquire_held (held : x.locks.contains (i.imm % 256) = true) : acquire n t try_ s x i = faultThread s n t 5 := by
  have mem : i.imm % 256 ∈ x.locks := by simpa using held
  simp [acquire, allowed, mem]

section
variable (other : x.locks.contains (i.imm % 256) = false)
include other

theorem acquire_limit (four : 4 ≤ x.locks.length)
    (blocks : (try_ && (lockAt s (engPhys s n) (i.imm % 256)).holder.isSome) = false) :
    acquire n t try_ s x i = faultThread s n t 6 := by
  have mem : i.imm % 256 ∉ x.locks := by simpa using other
  simp only [Bool.and_eq_false_iff] at blocks
  simp only [acquire, bits_low, Nat.reducePow, allowed]
  rcases blocks with h | h <;> simp [mem, four, h]

theorem acquire_free (few : x.locks.length < 4) (free : (lockAt s (engPhys s n) (i.imm % 256)).holder = none) :
    acquire n t try_ s x i =
      grantLock (setThread s n t { x with rdWait := i.rd }) (engPhys s n) (i.imm % 256) (8 * n + t) := by
  have mem : i.imm % 256 ∉ x.locks := by simpa using other
  simp [acquire, allowed, mem, Nat.not_le.mpr few, free]

theorem acquire_wait (few : x.locks.length < 4) (taken : (lockAt s (engPhys s n) (i.imm % 256)).holder ≠ none) :
    acquire n t false s x i =
      setLock (setThread s n t { x with st := .waitLock (i.imm % 256), rdWait := i.rd }) (engPhys s n) (i.imm % 256)
        { lockAt s (engPhys s n) (i.imm % 256) with
          waiters := (lockAt s (engPhys s n) (i.imm % 256)).waiters ++ [8 * n + t] } := by
  have mem : i.imm % 256 ∉ x.locks := by simpa using other
  obtain ⟨w, holder⟩ := Option.ne_none_iff_exists'.mp taken
  simp [acquire, allowed, mem, Nat.not_le.mpr few, holder]

theorem acquire_try_taken (low : x.pc < 8192) (taken : (lockAt s (engPhys s n) (i.imm % 256)).holder ≠ none) :
    acquire n t true s x i = setThread s n t (wrote x i.rd 2) := by
  have mem : i.imm % 256 ∉ x.locks := by simpa using other
  obtain ⟨w, holder⟩ := Option.ne_none_iff_exists'.mp taken
  simp [acquire, allowed, mem, holder, advance_eq_wrote low]

end
end
end

@[simp] theorem issued_clk (s : State) (n t : Nat) : (issued s n t).clk = s.clk := countPmc_clk ..

/-- Settles O10: LK_ACQ and LK_TRY are `acquire`, whose branches the lemmas above tell apart. -/
theorem locks : Obligations.Locks := by
  intro en t s n x i s1 p l w ends may
  have run {op : Nat} {eff : State → Thread → Ins → State} {u : State} (h : Stands s n t.val op) (out : eff s1 x i = u) :
      issueOp s en t op eff = ends u := out ▸ issueOp_stands h
  have acq {u : State} (out : acquire n t.val false s1 x i = u) (h : Stands s n t.val 0x50) :
      exec (.lkAcq en t) s = ends u := run h out
  have tried {u : State} (out : acquire n t.val true s1 x i = u) (h : Stands s n t.val 0x51) :
      exec (.lkTry en t) s = ends u := run h out
  refine ⟨fun h ⟨allowed, other⟩ few free => acq (acquire_free allowed other few free) h,
    fun h ⟨allowed, other⟩ few free => tried (acquire_free allowed other few free) h,
    fun h ⟨allowed, other⟩ few taken => acq (acquire_wait allowed other few taken) h,
    fun h ⟨allowed, other⟩ taken => tried (acquire_try_taken allowed other h.2.1 taken) h,
    fun h ⟨allowed, other⟩ four => acq (acquire_limit allowed other four rfl) h,
    fun h ⟨allowed, other⟩ four free => tried (acquire_limit allowed other four ?free) h,
    fun denied => ⟨acq (acquire_denied denied), tried (acquire_denied denied)⟩,
    fun allowed held => ⟨acq (acquire_held allowed held), tried (acquire_held allowed held)⟩,
    fun h held => (run h ?rel : execLkRel en t s = _), fun h other => (run h ?relNot : execLkRel en t s = _)⟩
  case free => simpa [p, l] using free
  case rel =>
    have low : x.pc < 8192 := h.2.1
    have mem : i.imm % 256 ∈ x.locks := by simpa [l] using held
    simp only [bits_low, advance_eq_wrote low]
    simp [mem, l, p, n]
  case relNot =>
    have mem : i.imm % 256 ∉ x.locks := by simpa [l] using other
    simp [mem, n]

/-! Timers and stops. -/

/-- Settles O11: each row is one branch of its meaning. -/
theorem timersAndStops : Obligations.TimersAndStops := by
  intro en t s n x i s1 d ends
  have run {op : Nat} {eff : State → Thread → Ins → State} {u : State} (h : Stands s n t.val op) (out : eff s1 x i = u) :
      issueOp s en t op eff = ends u := out ▸ issueOp_stands h
  have low {op : Nat} (h : Stands s n t.val op) : x.pc < 8192 := h.2.1
  have delay : dataAddr x i = d := dataAddr_eq_toNat (before_imm_lt s n t.val) x
  have cycle : s1.clk.cc = s.clk.cc := congrArg Clk.cc (issued_clk s n t.val)
  refine ⟨fun h => (run h ?arm : execTimerArm en t s = _), fun h => (run h ?wait : execTimerWait en t s = _), ?expire,
    fun h sel => (run h ?ns : execTimeRead en t s = _), fun h sel => (run h ?coarse : execTimeRead en t s = _),
    fun h sel => (run h ?other : execTimeRead en t s = _), fun h => (run h ?brk : execBreakHalt en t s = _), ?halt, ?illegal,
    ?limit⟩
  case arm => simp only [delay, advance_eq_wrote (low h), cycle]; rfl
  case wait => simp only [advance_eq_wrote (low h)]; rfl
  case expire =>
    intro armed waits
    obtain ⟨c, timer⟩ := Option.isSome_iff_exists.mp armed
    change execTimerExpire en t s = _
    simp only [execTimerExpire]
    rw [show (threadAt s en.val t.val).timer = some c from timer]
    exact congrArg Host.Outcome.next (if_pos (.inl waits))
  case ns => simp only [if_pos sel, advance_eq_wrote (low h)]; rfl
  case coarse => simp only [sel, advance_eq_wrote (low h)]; rfl
  case other =>
    have not0 : i.imm ≠ 0 := by omega
    have not1 : i.imm ≠ 1 := by omega
    simp only [if_neg not0, if_neg not1, draw, advance_eq_wrote (low h), BitVec.ofNat_toNat, BitVec.setWidth_eq]
    rfl
  case brk => simp only [advance_eq_wrote (low h)]; rfl
  case halt =>
    intro asked notMemory notHalted
    change execThreadHalt en t s = _
    simp only [execThreadHalt, x, n] at asked notMemory notHalted ⊢
    simp [asked, notMemory, notHalted]
  case illegal =>
    rintro op ⟨may, inside, here⟩ unknown
    change Host.Outcome.next (issue s n t.val _ _) = _
    simp only [issue, may, Nat.not_le.mpr inside, here, unknown]
    rfl
  case limit =>
    intro serves notHalted limited
    refine if_neg (c := (threadAt s n t.val).task.isNone ∨ (threadAt s n t.val).st = .halted ∨
      regField s .schedLimitCfg 0 0 16 = 0) ?_
    rintro (idle | halted | unlimited)
    · rw [Option.isNone_iff_eq_none.mp idle] at serves
      cases serves
    · exact notHalted halted
    · exact limited unlimited

end Sys2Proof.Machine
end

section
/-! The operations of a task (R310 to R312). -/

namespace Sys2Proof.Machine

@[simp] theorem bankAccessBy_unreported (s : State) (plane p a : Nat) :
    (bankAccessBy s plane p a).unreported = s.unreported := by
  simp [bankAccessBy]

@[simp] theorem touchRecord_unreported (s : State) (plane : Nat) (place : Option RecPlace) :
    (touchRecord s plane place).unreported = s.unreported := by
  unfold touchRecord
  split <;> simp

theorem writtenPlace_unreported (s : State) (w : RecRef) : writtenPlace s.unreported w = writtenPlace s w := rfl

/-- What a report leaves alone decides where the record that a task has written is found. -/
theorem writtenPlace_congr {s t : State} (h : t.unreported = s.unreported) (w : RecRef) :
    writtenPlace t w = writtenPlace s w := by
  rw [← writtenPlace_unreported t, h, writtenPlace_unreported]

/-! An operation by a thread that serves a task. -/

section
variable {s : State} {n t : Nat} {kinds : List Nat} {ranges : Thread → Ins → List (Nat × Nat)}
  {eff : State → Thread → Ins → Nat → Task → State} {x : Thread} {i : Ins} {id : Nat} {y : Task}
  (serves : servedTask s n t = some (id, y))
include serves

theorem flowOpIn_denied (denied : taskKind y ∉ kinds) : flowOpIn n t kinds ranges eff s x i = faultThread s n t 10 := by
  simp [flowOpIn, flowOp, serves, denied]

section
variable (allowed : taskKind y ∈ kinds)
include allowed

theorem flowOpIn_inside (inside : ∀ r ∈ ranges x i, r.1 + r.2 ≤ 0x30000) :
    flowOpIn n t kinds ranges eff s x i = eff s x i id y := by
  have all : (ranges x i).all (fun r => inDmem r.1 r.2) = true := by
    simpa [inDmem] using inside
  simp [flowOpIn, flowOp, serves, allowed, all]

theorem flowOpIn_outside (outside : ∃ r ∈ ranges x i, 0x30000 < r.1 + r.2) :
    flowOpIn n t kinds ranges eff s x i = faultThread s n t 2 := by
  have notAll : (ranges x i).all (fun r => inDmem r.1 r.2) = false := by
    simpa [inDmem] using outside
  simp [flowOpIn, flowOp, serves, allowed, notAll]

end
end

theorem mem_anyKind {k : Nat} (least : 1 ≤ k) (most : k ≤ 5) : k ∈ anyKind := by
  simp only [anyKind, List.mem_cons, List.not_mem_nil, or_false]
  omega

theorem task_isSome_of_servedTask {s : State} {n t id : Nat} {y : Task} (serves : servedTask s n t = some (id, y)) :
    (threadAt s n t).task.isSome = true := by
  unfold servedTask at serves
  split at serves
  · rename_i task
    rw [task]
    rfl
  · cases serves

/-- The thread of an operation whose result is known waits for it (R310). -/
theorem threadAt_memOp {s : State} {n t : Nat} (serving : (threadAt s n t).task.isSome = true) (i : Ins)
    (value addr : Nat) (data : Bytes) :
    threadAt (memOp s n t i value addr data) n t = { threadAt s n t with
      st := .waitMemory, rdWait := i.rd
      mem := some { rd := i.rd, value := BitVec.ofNat 64 value, addr := addr, data := data, load := false } } := by
  have waits : threadAt (waitMemory s n t i) n t = { threadAt s n t with st := .waitMemory, rdWait := i.rd, mem := none } :=
    threadAt_setThread_same (x := { threadAt s n t with st := .waitMemory, rdWait := i.rd, mem := none }) serving ..
  rw [memOp, memResult, waits]
  exact threadAt_setThread_same (x := { threadAt s n t with
      st := .waitMemory, rdWait := i.rd
      mem := some { rd := i.rd, value := BitVec.ofNat 64 value, addr := addr, data := data, load := false } }) serving ..

theorem policyBytes_eng (s : State) (off len : Nat) : (policyBytes s off len).2.eng = s.eng := by
  simp only [policyBytes, drawBytes]
  split <;> rfl

theorem threadAt_congr {s u : State} (h : s.eng = u.eng) (n t : Nat) : threadAt s n t = threadAt u n t := by
  rw [threadAt, h, threadAt]

/-- The thread of a MEM_READ waits for the bytes read and for where they go. -/
theorem memRead_waits {s : State} {n t : Nat} (serving : (threadAt s n t).task.isSome = true) (i : Ins) (addr : Nat)
    (data : Bytes) (ddr : Option (Nat × Nat)) :
    let u := memOp s n t i 0 addr data
    let v := setThread u n t { threadAt u n t with mem := (threadAt u n t).mem.map (fun m => { m with ddr := ddr }) }
    (threadAt v n t).st = .waitMemory ∧ (threadAt v n t).mem.map (fun m => (m.addr, m.data)) = some (addr, data) := by
  intro u v
  have waits : threadAt u n t = _ := threadAt_memOp serving i 0 addr data
  have back : threadAt v n t = { threadAt u n t with mem := (threadAt u n t).mem.map (fun m => { m with ddr := ddr }) } := by
    refine threadAt_setThread_same (x := { threadAt u n t with mem := (threadAt u n t).mem.map _ }) ?_ ..
    rw [waits]
    exact serving
  rw [back, waits]
  exact ⟨rfl, rfl⟩

/-- Settles O12: an operation of R310 is `flowOpIn` on its operands' addresses and lengths. -/
theorem taskOperations : Obligations.TaskOperations := by
  constructor
  · intro en t s id y n x i s1 ra rb fits ends serves
    have run {op : Nat} {eff : State → Thread → Ins → State} {u : State} (h : Stands s n t.val op) (out : eff s1 x i = u) :
        issueOp s en t op eff = ends u := out ▸ issueOp_stands h
    have hra : regOf x i.ra = ra := regOf_eq_toNat x i.ra
    have hrb : regOf x i.rb = rb := regOf_eq_toNat x i.rb
    have one {len : Nat} (h : fits ra len) : ∀ r ∈ [(regOf x i.ra, len)], r.1 + r.2 ≤ 0x30000 :=
      List.forall_mem_singleton.mpr (hra ▸ h)
    have moved (place : Option RecPlace) :
        y.written.bind (writtenPlace (touchRecord s1 (taskPlane y) place)) = y.written.bind (writtenPlace s1) := by
      rw [funext (writtenPlace_congr (touchRecord_unreported ..))]
    refine ⟨fun h least most a b => (run h ?probe : execFsProbe en t s = _),
      fun h kind a => (run h ?insert : execFsInsert en t s = _),
      fun k h kind a place => (run h ?writeHot : execFsWrite en t s = _),
      fun k h kind a place => (run h ?writeCold : execFsWrite en t s = _),
      fun h kind a place => (run h ?writeNone : execFsWrite en t s = _),
      fun k h kind a target => (run h ?deleteHot : execFsDelete en t s = _),
      fun k h kind a target => (run h ?deleteCold : execFsDelete en t s = _),
      fun h kind a target => (run h ?deleteMissing : execFsDelete en t s = _),
      fun h kind a target => (run h ?deleteBusy : execFsDelete en t s = _),
      fun h kind a target => (run h ?deletePromoted : execFsDelete en t s = _),
      fun b h least most d key entry => (run h ?read : execTblRead en t s = _),
      fun u p b h kind a openFold counts => (run h ?counts : execFsCounts en t s = _),
      fun h kind a openFold => (run h ?foldAdd : execFsFoldAdd en t s = _),
      fun h least most d => ?memRead, ?complete, ?completeDdr,
      fun h least most a => (run h ?send : execFrameSend en t s = _),
      fun h => (run h ?ends : execTaskEnd en t s = _)⟩
    case probe =>
      have inside : ∀ r ∈ [(regOf x i.ra, 40), (regOf x i.rb, 128)], r.1 + r.2 ≤ 0x30000 :=
        List.forall_mem_cons.mpr ⟨hra ▸ a, List.forall_mem_singleton.mpr (hrb ▸ b)⟩
      rw [flowOpIn_inside serves (mem_anyKind least most) inside, hra, hrb]
    case insert =>
      rw [flowOpIn_inside serves (by simpa using kind) (one a), hra]
    case writeHot =>
      rw [flowOpIn_inside serves (by simpa using kind) (one a), hra]
      simp only [place, moved]
      rfl
    case writeCold =>
      rw [flowOpIn_inside serves (by simpa using kind) (one a), hra]
      simp only [place, moved]
      rfl
    case writeNone =>
      rw [flowOpIn_inside serves (by simpa using kind) (one a), hra]
      simp only [place, moved]
      rfl
    case deleteHot | deleteCold | deleteMissing | deleteBusy | deletePromoted =>
      rw [flowOpIn_inside serves (by simpa using kind) (one a)]
      simp only [programDelete, hra, show delTarget s1 (dmemBytes s1 en.val ra 40) = _ from target]
      rfl
    case read =>
      have inside : ∀ r ∈ (regOf x i.rb, 128) :: (if tblKeyLen i = 0 then [] else [(regOf x i.ra, tblKeyLen i)]),
          r.1 + r.2 ≤ 0x30000 := by
        refine List.forall_mem_cons.mpr ⟨hrb ▸ d, ?_⟩
        split
        · exact List.forall_mem_nil _
        · rename_i keyed
          exact one (key.resolve_left keyed)
      rw [flowOpIn_inside serves (mem_anyKind least most) inside, hrb]
      simp only [show tblEntry s1 en.val x i = some b from entry]
      rfl
    case counts =>
      rw [flowOpIn_inside serves (by simpa using kind) (one a), hra]
      obtain ⟨f, found⟩ := Option.isSome_iff_exists.mp openFold
      simp only [found, Option.isNone_some, counts]
      rfl
    case foldAdd =>
      rw [flowOpIn_inside serves (by simpa using kind) (one a), hra]
      simp only [openFold, if_true]
      rfl
    case memRead =>
      refine ⟨(policyBytes s1 ra (memReadLen i)).2, (policyBytes s1 ra (memReadLen i)).1, rfl, _,
        (run h ?read : execMemRead en t s = _),
        memRead_waits (s := (policyBytes s1 ra (memReadLen i)).2) (n := n) (t := t.val) ?serving i rb
          (policyBytes s1 ra (memReadLen i)).1 (some ((policyRegion (memOp (policyBytes s1 ra (memReadLen i)).2 n t.val i 0 rb
            (policyBytes s1 ra (memReadLen i)).1)).1 + ra, memReadLen i))⟩
      case read =>
        rw [flowOpIn_inside serves (mem_anyKind least most) (List.forall_mem_singleton.mpr (hrb ▸ d)), hra, hrb]
      case serving =>
        have same : threadAt (policyBytes s1 ra (memReadLen i)).2 n t.val = threadAt s1 n t.val :=
          threadAt_congr (policyBytes_eng s1 ra (memReadLen i)) ..
        rw [same]
        exact task_isSome_of_servedTask serves
    case complete =>
      intro m r result load local_
      change execMemoryOpComplete en t r s = _
      simp only [execMemoryOpComplete, show (threadAt s en.val t.val).mem = some m from result, load, local_]
      rfl
    case completeDdr =>
      intro m r a len result load ddr v
      change execMemoryOpComplete en t r s = _
      simp only [execMemoryOpComplete, show (threadAt s en.val t.val).mem = some m from result, load, ddr]
      exact (apply_ite Host.Outcome.next _ _ _).symm
    case send =>
      have within : ¬(rb < 60 ∨ 2044 < rb) := by omega
      simp only [hra, hrb, if_neg within, inDmem, decide_eq_true (show ra + rb ≤ 0x30000 from a),
        show servedTask s1 en.val t.val = some (id, y) from serves, bits_low]
      rfl
    case ends =>
      simp only [show servedTask s1 en.val t.val = some (id, y) from serves]
      rfl
  · intro en t s id y n x i s1 ra rb ends serves
    have run {op : Nat} {eff : State → Thread → Ins → State} {u : State} (h : Stands s n t.val op) (out : eff s1 x i = u) :
        issueOp s en t op eff = ends u := out ▸ issueOp_stands h
    have hra : regOf x i.ra = ra := regOf_eq_toNat x i.ra
    have hrb : regOf x i.rb = rb := regOf_eq_toNat x i.rb
    have two {rs : List (Nat × Nat)} {len : Nat} (h : 0x30000 < rb + len) :
        ∃ r ∈ (regOf x i.rb, len) :: rs, 0x30000 < r.1 + r.2 := ⟨_, List.mem_cons_self, hrb ▸ h⟩
    refine ⟨fun h kind => (run h (flowOpIn_denied serves ?_) : execFsInsert en t s = _),
      fun h kind => (run h (flowOpIn_denied serves ?_) : execFsWrite en t s = _),
      fun h kind => (run h (flowOpIn_denied serves ?_) : execFsDelete en t s = _),
      fun h kind => (run h (flowOpIn_denied serves ?_) : execFsCounts en t s = _),
      fun h kind => (run h (flowOpIn_denied serves ?_) : execFsFoldAdd en t s = _), fun least most => ⟨?probe, ?read, ?mem⟩,
      fun h size => (run h (if_pos (hrb ▸ size)) : execFrameSend en t s = _),
      fun h least most outside => (run h ?send : execFrameSend en t s = _)⟩
    case probe =>
      intro h outside
      refine (run h (flowOpIn_outside serves (mem_anyKind least most) ?_) : execFsProbe en t s = _)
      rcases outside with key | record
      · exact ⟨_, List.mem_cons_self, hra ▸ key⟩
      · exact ⟨_, List.mem_cons_of_mem _ List.mem_cons_self, hrb ▸ record⟩
    case read =>
      intro h outside
      exact (run h (flowOpIn_outside serves (mem_anyKind least most) (two outside)) : execTblRead en t s = _)
    case mem =>
      intro h outside
      exact (run h (flowOpIn_outside serves (mem_anyKind least most) (two outside)) : execMemRead en t s = _)
    case send =>
      have within : ¬(rb < 60 ∨ 2044 < rb) := by omega
      simp only [hra, hrb, if_neg within, inDmem, decide_eq_false (Nat.not_le.mpr outside)]
      rfl
    all_goals
      simp only [List.mem_cons, List.not_mem_nil, or_false]
      omega

end Sys2Proof.Machine
end

section
/-! Tasks arrive, are dispatched and pre-empted (R325 to R339); engines stall, fault and are replaced (R341 to R349). -/

namespace Sys2Proof.Machine

/-- An operand that is not read from external memory is no class policy block (R324, R670). -/
theorem policyAbsent_of_operandDdr_none {s : State} {t : Task} {k : Nat} (inside : operandDdr s t k = none) :
    policyAbsent s t k = false := by
  have other : declKind t k ≠ 2 := by
    intro policy
    simp [operandDdr, policy] at inside
  simp [policyAbsent, other]

section
variable {s : State} {p : Nat}

/-- A task of a setup lane that the task store has room for and that does not end at once enters the store (R338, R339). -/
theorem arriveLane_enters {n c id : Nat} {t : Task}
    (found : (sliceAt s n).setupQ.find? (fun id => match taskAt s id with
      | some t => t.cluster == c
      | none => false) = some id)
    (task : taskAt s id = some t) (room : storeRoom s p (taskKind t) = true)
    (goesOn : arriveEnd (checkAdmission (setSlice s n
      { sliceAt s n with setupQ := (sliceAt s n).setupQ.filter (· != id) }) n) t = none) :
    arriveLane s n c p = enterStore (checkAdmission (setSlice s n
      { sliceAt s n with setupQ := (sliceAt s n).setupQ.filter (· != id) }) n) p id := by
  unfold arriveLane
  split
  case h_1 none => cases none.symm.trans found
  case h_2 other some =>
    cases Option.some.inj (some.symm.trans found)
    simp only [task, room, goesOn]
    rfl

theorem arriveFold_enters {slot : Nat} {f : Fold}
    (found : s.fs.folds.find? (fun f => f.slot == slot && f.task.isNone) = some f) (room : storeRoom s p 3 = true) :
    arriveFold s slot p = enterStore (modFold (newTask s (foldTask s slot f.gen (slot % 16))).1 slot f.gen
      (fun f => { f with task := some (newTask s (foldTask s slot f.gen (slot % 16))).2 })) p
      (newTask s (foldTask s slot f.gen (slot % 16))).2 := by
  simp only [arriveFold, found, room]
  rfl

theorem arriveInternal_enters {k : Nat} {c : Copy} {cs : List Copy} {f : Frame}
    (head : (queueAt s (internalQ k)).copies = c :: cs) (frame : frameAt s c.fid = some f) (whole : f.whole = true)
    (shaped : shaperOpen s (internalQ k) = true) (room : storeRoom s p 4 = true) :
    arriveInternal s k p =
      (let s1 := popCopy (chargeQueue s (internalQ k) (copyLen f c.trunc)) (internalQ k) c
       let made := newTask (countQ s1 (internalQ k) 2 (copyLen f c.trunc)) (internalTask s1 k c f)
       enterStore made.1 p made.2) := by
  simp only [arriveInternal, head, frame, whole, shaped, room]
  rfl

theorem arriveMgmt_enters {aseq : Nat} {desc : Bytes} {a : Accepted}
    (found : s.host.accepted.find? (fun a => a.aseq == aseq && !a.started) = some a) (turn : mustWait s a = false)
    (room : storeRoom s p 5 = true) :
    arriveMgmt s aseq desc p =
      (let s1 := s.withHost { s.host with accepted := s.host.accepted.map (fun b =>
        if b.aseq = aseq then { b with started := true } else b) }
       let made := newTask s1 { desc := mgmtDesc a desc, cluster := 0, arrived := 0, aseq := some aseq }
       enterStore made.1 p made.2) := by
  simp only [arriveMgmt, found, turn, room]
  rfl

end

/-- Settles O13: each row takes the branch in which the cluster serves the task and its store has room. -/
theorem tasks : Obligations.Tasks := by
  constructor
  · intro s p
    refine ⟨fun n c id t serves found task room => ?lane, fun slot f serves found room => ?fold,
      fun q c cs f serves head frame whole shaped room => ?internal, fun aseq desc a serves found turn room => ?mgmt⟩
    case lane =>
      intro s1 goesOn
      change execTaskArrive (.lane n c) s = _
      simp only [execTaskArrive, serves, arriveLane_enters found task room goesOn]
      rfl
    case fold =>
      change execTaskArrive (.fold slot) s = _
      simp only [execTaskArrive, serves, arriveFold_enters found room]
      rfl
    case internal =>
      change execTaskArrive (.internal q) s = _
      simp only [execTaskArrive, serves, arriveInternal_enters head frame whole shaped room]
    case mgmt =>
      change execTaskArrive (.mgmt aseq desc) s = _
      simp only [execTaskArrive, serves, arriveMgmt_enters found turn room]
  · intro s
    refine ⟨fun task k t b u stored missing inside read => ?operand, fun c p id n t x serves next chosen stored => ?dispatch,
      fun en t p id x serves running stored may => ?preempt, fun c p id q serves next busy gated => ?wake⟩
    case operand =>
      intro t'
      change execOperandArrive task k true s = _
      simp only [execOperandArrive, stored, missing, inside, policyAbsent_of_operandDdr_none inside, read,
        List.isEmpty_iff, t']
      rfl
    case dispatch =>
      change execTaskDispatch c s = _
      simp only [execTaskDispatch, serves, next, chosen, stored]
    case preempt =>
      intro y x'
      change execPreempt en t s = _
      simp only [execPreempt, serves, running, stored, may]
      rfl
    case wake =>
      change execEngineWakeRequest c s = _
      simp only [execEngineWakeRequest, serves, next, busy, gated]
      rfl

/-- What a cluster fault does before it reports it: the tasks lost, the engines of the cluster withdrawn, and its number
given to the spare cluster when that is free. -/
theorem clusterFault_reports {s : State} {c unit p : Nat} (serves : clusterPhys s c = some p) :
    ∃ u ok, clusterFault s c unit =
      postEvent u 0x08 5 (origin u p (0x48 + unit) 0 0) (le 1 c ++ le 1 (flag ok)) := by
  simp only [clusterFault, serves]
  exact ⟨_, _, rfl⟩

/-- Settles O14: a row on an engine that is mapped is its one branch. -/
theorem engineEvents : Obligations.EngineEvents := by
  intro s en p mapped n
  refine ⟨fun stuck runs => ?stall, fun cause addr => ?fault, fun q loaded => ?spare, fun phys pass testing => ?selfTest,
    fun cl unit q serves => ?cluster, fun a draining idle => ?drained⟩
  case stall =>
    change execEngineStall en s = _
    simp only [execEngineStall, show engineStuck s en.val = true from stuck,
      show clusterHalted s (en.val / 8) = false from runs, mapped]
    rfl
  case fault =>
    change execEngineFault en cause addr s = _
    simp only [execEngineFault, engineFault, mapped]
    rfl
  case spare =>
    change execSpareLoaded en s = _
    simp only [execSpareLoaded, show (engAt s en.val).spare = some q from loaded]
    rfl
  case selfTest =>
    change execEngineSelfTestDone phys pass s = _
    simp only [execEngineSelfTestDone, testing]
    cases pass <;> rfl
  case cluster =>
    obtain ⟨u, ok, reports⟩ := clusterFault_reports (unit := unit.val) serves
    exact ⟨u, ok, congrArg Host.Outcome.next reports⟩
  case drained =>
    change execEngDrained en s = _
    simp only [execEngDrained, engineDrained, show (engAt s en.val).draining = some a from draining,
      show allIdle s en.val = true from idle]
    rfl

end Sys2Proof.Machine
end

section
/-! Command rows that complete at once, and the commands of engines, scheduler and debugger (R350 to R356). -/

namespace Sys2Proof.Machine

/-! A command that runs and answers. -/

section
variable {c : Cmd} {op : Nat} {body : Nat → State → Effect} {s t : State} {a : Accepted} (runs : CmdRuns c op s a)
include runs

/-- A command that names no host memory for its result completes with its own answer (R557). -/
theorem runCommand_answers {r : Reply} (answers : body a.aseq (begun c s a) = .done r t) (inPlace : r.addr = none) :
    runCommand c op body s = .next (completeCmd t (asRun c a) r) :=
  runCommand_done runs answers (by simp [relayedOut, inPlace])

/-- A command that was not relayed completes with its own answer, wherever that goes (R557). -/
theorem runCommand_answersAt {r : Reply} (answers : body a.aseq (begun c s a) = .done r t) (direct : c.src ≠ .relay) :
    runCommand c op body s = .next (completeCmd t (asRun c a) r) := by
  have src : a.src = c.src := by
    have found := List.find?_some runs.2.1
    simp only [Bool.and_eq_true, beq_iff_eq] at found
    exact found.1.1.2
  exact runCommand_done runs answers (by simp [relayedOut, asRun, src, direct])

theorem runCommand_ends (answers : body a.aseq (begun c s a) = .done {} t) :
    runCommand c op body s = .next (completeCmd t (asRun c a) {}) :=
  runCommand_answers runs answers rfl

theorem runCommand_reports {b : Bytes} (answers : body a.aseq (begun c s a) = .done { block := b } t) :
    runCommand c op body s = .next (completeCmd t (asRun c a) { block := b }) :=
  runCommand_answers runs answers rfl

theorem runCommand_fails {code : Nat} (answers : body a.aseq (begun c s a) = .done (err code) t) :
    runCommand c op body s = .next (completeCmd t (asRun c a) (err code)) :=
  runCommand_answers runs answers rfl

end

/-! Commands on a logical engine or on one of its threads. -/

theorem onEngine_eq {s : State} {en : BitVec 16} (f : Nat → Effect) (named : en.toNat < 128)
    (mapped : (physOf s en.toNat).isSome = true) : onEngine s en f = f en.toNat := by
  have present : (physOf s en.toNat).isNone = false := by simpa using mapped
  simp [onEngine, Nat.not_le.mpr named, present]

theorem onThread_eq {s : State} {en : BitVec 16} {t : BitVec 8} (f : Nat → Nat → Effect) (named : en.toNat < 128)
    (thread : t.toNat < 8) (mapped : (physOf s en.toNat).isSome = true) : onThread s en t f = f en.toNat t.toNat := by
  rw [onThread, if_neg (Nat.not_le.mpr thread), onEngine_eq _ named mapped]

theorem flatMap_length_const {α β : Type} {l : List α} {f : α → List β} {k : Nat} (each : ∀ x ∈ l, (f x).length = k) :
    (l.flatMap f).length = k * l.length := by
  induction l with
  | nil => rfl
  | cons x l ih =>
    rw [List.flatMap_cons, List.length_append, each x List.mem_cons_self,
      ih (fun y mem => each y (List.mem_cons_of_mem x mem)), List.length_cons, Nat.mul_succ, Nat.add_comm]

theorem locksHeld_length (x : Thread) : (locksHeld x).length = 4 := by
  rw [locksHeld, flatMap_length_const (fun _ _ => le_length 1 _)]
  simp

/-- Settles O15: a command whose engine, thread and ranges are good takes the one branch its state leaves. -/
theorem engineCommands : Obligations.EngineCommands := by
  intro c s a en t
  dsimp only
  intro named thread mapped
  have engine (f : Nat → Effect) : onEngine (begun c s a) en f = f en.toNat := onEngine_eq f named mapped
  have onThr (f : Nat → Nat → Effect) : onThread (begun c s a) en t f = f en.toNat t.toNat := onThread_eq f named thread mapped
  refine ⟨fun runs open_ going idle => ?drain, fun runs open_ going busy => ?drainLater, fun runs drained image => ?resume,
    fun runs => ?status, fun cl runs isCluster => ?sched, fun mask runs => ?halt, fun runs halted resume => ?step,
    fun mask runs masked halted => ?resumeThreads, fun kind start len addr runs direct isMem inside fits => ?readMem,
    fun kind start len addr runs direct isReg inside fits => ?readRegs, fun start data runs halted inside => ?writeMem,
    fun start data runs halted inside => ?writeRegs, fun cl lock p w runs isCluster serves held halted => ?release,
    fun runs halted task => ?abort⟩
  case drain =>
    refine (runCommand_ends runs ((engine _).trans ?_) : execEngDrain c en s = _)
    simp [open_, going, idle]
  case drainLater =>
    refine (runCommand_later runs ((engine _).trans ?_) : execEngDrain c en s = _)
    simp [open_, going, busy]
  case resume =>
    refine (runCommand_ends runs ((engine _).trans ?_) : execEngResume c en s = _)
    obtain ⟨b, image⟩ := Option.isSome_iff_exists.mp image
    simp [drained, image]
  case status =>
    refine ⟨_, ?_, (runCommand_reports runs ((engine _).trans rfl) : execEngStatus c en s = _)⟩
    rw [List.length_append, flatMap_length_const (k := 10) (fun t _ => by simp [locksHeld_length])]
    simp
  case sched =>
    refine ⟨_, ?_, (runCommand_reports runs (if_neg (Nat.not_le.mpr isCluster)) : execSchedStatus c cl s = _)⟩
    rw [List.length_append, List.length_append, flatMap_length_const (l := clusterEngines cl.toNat) (k := 16) (by simp)]
    simp only [List.length_append, le_length, flatMap_length_const (fun _ _ => le_length 8 _), upFrom, clusterEngines,
      List.length_map, List.length_range]
  case halt =>
    exact (runCommand_ends runs (engine _) : execDbgHalt c en mask s = _)
  case step =>
    refine (runCommand_ends runs ((onThr _).trans ?_) : execDbgStep c en t s = _)
    simp [halted, resume]
  case resumeThreads =>
    refine (runCommand_ends runs ((engine _).trans (if_pos ?_)) : execDbgResume c en mask s = _)
    simp only [List.any_eq_true, List.mem_filter, List.mem_range]
    exact ⟨t.toNat, ⟨thread, masked⟩, beq_iff_eq.mpr halted⟩
  case readMem =>
    subst isMem
    refine (runCommand_answersAt runs ((onThr _).trans ?_) direct : execDbgRead c en t 1 start len addr s = _)
    have short := Nat.not_lt.mpr fits
    simp [dbgRange, dbgRange.inRange, inside, flatMap_length_const (fun _ _ => le_length 8 _), ← Nat.add_assoc, short]
  case readRegs =>
    subst isReg
    refine (runCommand_answersAt runs ((onThr _).trans ?_) direct : execDbgRead c en t 0 start len addr s = _)
    have short := Nat.not_lt.mpr fits
    simp [dbgRange, inside, flatMap_length_const (fun _ _ => le_length 8 _), upFrom, ← Nat.add_assoc, short,
      regOf_eq_toNat]
  case writeMem =>
    refine (runCommand_ends runs ((onThr _).trans ?_) : execDbgWrite c en t 1 start data s = _)
    simp [halted, dbgRange, dbgRange.inRange, inside]
  case writeRegs =>
    refine (runCommand_ends runs ((onThr _).trans ?_) : execDbgWrite c en t 0 start data s = _)
    simp [halted, dbgRange, inside]
  case release =>
    refine (runCommand_ends runs ((if_neg (Nat.not_le.mpr isCluster)).trans ?_) : execDbgLockRelease c cl lock s = _)
    simp [serves, held, halted]
  case abort =>
    refine (runCommand_ends runs ((onThr _).trans ?_) : execDbgAbort c en t s = _)
    obtain ⟨id, task⟩ := Option.isSome_iff_exists.mp task
    simp [halted, task]

end Sys2Proof.Machine
end

section
/-! Writes of the register file (R435, R469, R644), and of HASH_KEY (R104, R599). -/

namespace Sys2Proof.Machine

/-! Where a register lies (R646). -/

theorem regAt_hashKey (k : Fin 64) (w : Fin 13) :
    regAt (Reg.off .hashKey (13 * k.val + w.val)) = some (.hashKey, 13 * k.val + w.val) := by
  revert k w
  decide +kernel

/-! What refuses a write, and what a write that stands does. -/

section
variable {s : State} {m : Nat} {r : Reg} {i : Nat}

/-- A write of a master that does not own the device is refused where only the owner writes (R469). -/
theorem writeRefused_of_not_owner (guarded : r.ownerOnly = true) (other : s.own.owner ≠ some m)
    (notBoot : r ∉ [Reg.bootPushAddr, .bootPushLen, .bootCertAddr]) (notRing : r ≠ .ringBase ∧ r ≠ .ringWb) :
    writeRefused s m r i = some (nonOwner s m (some (Reg.off r i))) := by
  unfold writeRefused
  split
  case h_6 => simp [guarded, other]
  case h_4 | h_5 => simp at notRing
  all_goals simp at notBoot

theorem writeReg_of_stands
    (plain : r ∉ [.ringCfg, .ringBase, .ringWb, .ownBid, .ownNonce, .ownCtrl, .dmaChCfg, .bootPushCtrl, .hashKey,
      .imgSvnFloor])
    (written : r.written ≠ 0) (stands : writeRefused s m r i = none) (v : Nat) :
    writeReg s m r i v = storeReg (countReservedBits s m r v) r i
      (mergedValue r (combineVal (countReservedBits s m r v) r i) v) := by
  unfold writeReg
  split
  case h_10 =>
    have notFloor : r ≠ .imgSvnFloor := fun floor => plain (floor ▸ by simp)
    simp [stands, written, notFloor]
  all_goals exact absurd plain (by simp)

theorem writeReg_of_refused {t : State}
    (plain : r ∉ [.ringCfg, .ringBase, .ringWb, .ownBid, .ownNonce, .ownCtrl, .dmaChCfg, .bootPushCtrl, .hashKey,
      .imgSvnFloor])
    (refused : writeRefused s m r i = some t) (v : Nat) : writeReg s m r i v = t := by
  unfold writeReg
  split
  case h_10 => simp [refused]
  all_goals exact absurd plain (by simp)

theorem writeHalf_low (stands : writeRefused s m r i = none) (v : Nat) :
    writeHalf s m r i false v = setHeld (countReservedBits s m r (v % 2 ^ 32)) m
      (some (Reg.off r i, BitVec.ofNat 32 (v &&& r.named))) := by
  simp only [writeHalf, stands]
  rfl

end

theorem exec_registerWrite_word {s : State} {m : Master} {off : BitVec 26} {r : Reg} {i : Nat}
    (ready : s.boot.phase = .ready) (present : masterPresent s m.val = true) (lies : regAt off.toNat = some (r, i))
    (narrow : r.size = 4) (aligned : off.toNat % 4 = 0) (v : BitVec 64) :
    exec (.registerWrite m off 4 v) s = .next (writeReg (seen s m off.toNat) m.val r i (v.toNat % 2 ^ 32)) := by
  change execRegisterWrite m off 4 v s = _
  simp [execRegisterWrite, present, writeBar0, aligned, fileAccess_of_ready ready, writeWord, lies, narrow]

theorem exec_hashKeyWrite {s : State} {m : Master} (ready : s.boot.phase = .ready) (present : masterPresent s m.val = true)
    (k : Fin 64) (w : Fin 13) (v : BitVec 32) :
    exec (.hashKeyWrite m k w v) s =
      .next (writeHashKey (seen s m (Reg.off .hashKey (13 * k.val + w.val))) m.val (13 * k.val + w.val) v.toNat) := by
  change execHashKeyWrite m k w v s = _
  have aligned : Reg.off .hashKey (13 * k.val + w.val) % 4 = 0 := by
    simp only [Reg.off]
    omega
  simp only [execHashKeyWrite, present, writeBar0, aligned, fileAccess_of_ready ready, writeWord, regAt_hashKey k w]
  simp [Reg.size, writeReg, Nat.mod_eq_of_lt v.isLt]

/-- Settles O16: the judgement of a write is `writeRefused`, and a write that stands is stored. -/
theorem registerWrites : Obligations.RegisterWrites := by
  constructor
  · intro s m off v r i ready present lies
    dsimp only
    refine ⟨fun plain narrow aligned stands => ?word, fun plain wide aligned stands => ?whole,
      fun plain narrow aligned guarded other notBoot => ?refused, fun wide low aligned stands => ?half⟩
    case word =>
      rw [exec_registerWrite_word ready present lies narrow aligned, writeReg_of_stands plain.2 plain.1 stands]
    case whole =>
      rw [exec_registerWrite_whole ready present lies wide aligned, writeReg_of_stands plain.2 plain.1 stands]
    case refused =>
      have notRing : r ≠ .ringBase ∧ r ≠ .ringWb := by
        constructor <;> (rintro rfl; exact plain.2 (by simp))
      rw [exec_registerWrite_word ready present lies narrow aligned, writeReg_of_refused plain.2
        (writeRefused_of_not_owner guarded (by simpa using other) notBoot notRing)]
    case half =>
      rw [exec_registerWrite_half ready present lies wide aligned, decide_eq_false (Classical.not_not.mpr low),
        writeHalf_low stands, low]
  · intro s m k w v ready present
    dsimp only
    refine ⟨fun owner => ?owner, fun other => ?other⟩
    case owner =>
      have stands : writeRefused (seen s m (Reg.off .hashKey (13 * k.val + w.val))) m.val .hashKey
          (13 * k.val + w.val) = none := by
        simp [writeRefused, owner]
      rw [exec_hashKeyWrite ready present]
      simp only [writeHashKey, stands, Nat.mod_eq_of_lt v.isLt]
    case other =>
      have refused := writeRefused_of_not_owner (s := seen s m (Reg.off .hashKey (13 * k.val + w.val))) (m := m.val)
        (r := .hashKey) (i := 13 * k.val + w.val) (by decide) (by simpa using other) (by decide) (by decide)
      rw [exec_hashKeyWrite ready present]
      simp only [writeHashKey, refused]

end Sys2Proof.Machine
end

section
/-! Rings, descriptors and ownership: what the rows of the hosts come to (R436 to R474). -/

namespace Sys2Proof.Machine

/-! Bits of a word that a row sets or clears. -/

theorem bit_eq_testBit (v i : Nat) : bit v i = v.testBit i := by
  rw [bit, bits, Nat.testBit_eq_decide_div_mod_eq]
  rfl

@[simp] theorem bit_or (x y i : Nat) : bit (x ||| y) i = (bit x i || bit y i) := by
  simp [bit_eq_testBit]

@[simp] theorem bit_and (x y i : Nat) : bit (x &&& y) i = (bit x i && bit y i) := by
  simp [bit_eq_testBit]

/-! An access of the register file after READY. -/

theorem regAccess_of_ready {s : State} (ready : s.boot.phase = .ready) (m : Master) (off : Nat) (f : State → State) :
    regAccess s m.val off f = f (seen s m off) := by
  simp [regAccess, seen, ready]

@[simp] theorem dropOther_clk (s : State) (m off : Nat) : (dropOther s m off).clk = s.clk := by
  rcases dropOther_eq_or s m off with same | dropped
  · rw [same]
  · rw [dropped]
    rfl

@[simp] theorem dropOther_bankNonce (s : State) (m off : Nat) : (dropOther s m off).regs.bankNonce = s.regs.bankNonce := by
  rcases dropOther_eq_or s m off with same | dropped
  · rw [same]
  · rw [dropped]
    rfl

@[simp] theorem seen_clk (s : State) (m : Master) (off : Nat) : (seen s m off).clk = s.clk := by
  simp [seen]

@[simp] theorem seen_bankNonce (s : State) (m : Master) (off : Nat) : (seen s m off).regs.bankNonce = s.regs.bankNonce := by
  simp [seen]

/-! A doorbell of a ring that runs (R439, R440). -/

/-- A ring that the device fills is none that the host fills (R438). -/
theorem ringType_fills (page : Nat) :
    (ringType page = 0 ∨ ringType page = 3 ∨ ringType page = 4) ↔
      ¬(ringType page = 1 ∨ ringType page = 2 ∨ ringType page = 5) := by
  have six : ringType page < 6 := by
    unfold ringType
    (repeat' split) <;> decide
  omega

section
variable {s : State} {h page : Nat} (runs : (ringAt s h page).st = .running)
include runs

theorem doorbell_valid (direct : ringChain s h page = false) {v : Nat} (valid : doorbellValid s h page v = true) :
    doorbell s h page v = setRing s h page
      (if ringType page = 1 ∨ ringType page = 2 ∨ ringType page = 5 then { ringAt s h page with cons := v }
       else { ringAt s h page with prod := v }) := by
  simp only [doorbell, ringRuns, runs, direct, valid, ringType_fills]
  by_cases fills : ringType page = 1 ∨ ringType page = 2 ∨ ringType page = 5 <;> simp [fills]

theorem doorbell_invalid (direct : ringChain s h page = false) {v : Nat} (invalid : doorbellValid s h page v = false) :
    doorbell s h page v = ringError s h page 2 := by
  simp [doorbell, ringRuns, runs, direct, invalid]

theorem doorbell_chain (chain : ringChain s h page = true) (v : Nat) : doorbell s h page v = chainDoorbell s h page := by
  simp [doorbell, ringRuns, runs, chain]

end

theorem doorbell_stopped {s : State} {h page : Nat} (stands : (ringAt s h page).st ≠ .running) (v : Nat) :
    doorbell s h page v = countReserved s h 1 := by
  simp [doorbell, ringRuns, stands]

/-! The write that enables a ring, and the one that disables it (R440). -/

theorem writeRingCfg_enable {s : State} {h page v : Nat} (off : ringEnabled s h page = false) (on : bit v 4 = true) :
    writeRingCfg s h h page v = startRing (setReg s .ringCfg (ringNo h page) v) h page := by
  simp [writeRingCfg, off, on]

theorem writeRingCfg_disable {s : State} {h page v : Nat} (on : ringEnabled s h page = true) (off : bit v 4 = false) :
    writeRingCfg s h h page v = disableRing (setReg s .ringCfg (ringNo h page) v) h page 1 := by
  simp [writeRingCfg, on, off]

/-- Settles O19: a row of a ring or of a link that is there is the one branch its state leaves. -/
theorem ringEvents : Obligations.RingEvents := by
  constructor
  · intro s host page present
    dsimp only
    have rung (v : BitVec 32) : exec (.doorbell host page 0 4 v) s = .next (doorbell s host.val page.val v.toNat) := by
      change execDoorbell host page 0 4 v s = _
      simp [execDoorbell, present]
    refine ⟨fun v runs direct valid => ?valid, fun v runs direct invalid => ?invalid, fun v runs chain => ?chain,
      fun v stands => ?stopped, fun off size v misplaced => ?misplaced, fun v ready disabled => ?enable,
      fun v ready enabled => ?disable, fun waiting moderated => ?moderation, fun v clear => ?unmask⟩
    case valid => rw [rung, doorbell_valid runs direct valid]
    case invalid => rw [rung, doorbell_invalid runs direct invalid]
    case chain => rw [rung, doorbell_chain runs chain]
    case stopped => rw [rung, doorbell_stopped stands]
    case misplaced =>
      change execDoorbell host page off size v s = _
      simp only [execDoorbell, present, if_pos misplaced]
      rfl
    case enable =>
      change execRingEnable ⟨host.val, _⟩ host page v s = _
      have on : bit (v ||| 0x10).toNat 4 = true := by simp [show bit 16 4 = true from rfl]
      simp only [execRingEnable, present]
      exact congrArg Host.Outcome.next
        ((regAccess_of_ready ready ⟨host.val, _⟩ ..).trans (writeRingCfg_enable disabled on))
    case disable =>
      change execRingDisable ⟨host.val, _⟩ host page v s = _
      have off : bit (v &&& 0xffffffef).toNat 4 = false := by simp [show bit 0xffffffef 4 = false from rfl]
      simp only [execRingDisable, present]
      exact congrArg Host.Outcome.next
        ((regAccess_of_ready ready ⟨host.val, _⟩ ..).trans (writeRingCfg_disable enabled off))
    case moderation =>
      change execInterruptModerationExpire host page s = _
      simp only [execInterruptModerationExpire, if_neg (not_or.mpr ⟨waiting, moderated⟩)]
    case unmask =>
      change execMsixUnmask host v s = _
      simp only [execMsixUnmask, clear]
      rfl
  · intro s host present
    dsimp only
    refine ⟨fun cause isReset => ?reset, fun rate width => ?up, fun owner => ?owned, fun other => ?other⟩
    case reset =>
      change execHostPortReset host cause s = _
      have goesOn : ¬(hostPresent s host.val = false ∨ cause.val = 0) := by simp [present, isReset]
      exact if_neg goesOn
    case up =>
      change execHostLinkUp host rate width s = _
      simp only [execHostLinkUp, present]
      rfl
    case owned => exact congrArg Host.Outcome.next (if_pos owner)
    case other => exact congrArg Host.Outcome.next (if_neg other)

/-- Settles O20: the command processor takes a descriptor unless its source makes it wait. -/
theorem descriptorsTaken : Obligations.DescriptorsTaken := by
  intro s desc ready
  refine ⟨fun empty => ?written, fun full => ?refused, fun d ok held none_ => ?mailbox, fun ok => ?relay,
    fun h ring runs direct used inRing room fits => ?ring, fun h page word runs chain reading => ?chain⟩
  case written =>
    change execMailboxWrite desc s = _
    simp [execMailboxWrite, ready, empty]
  case refused =>
    change execMailboxWrite desc s = _
    simp [execMailboxWrite, ready, full]
  case mailbox =>
    change execCommandAccept .mailbox desc ok s = _
    simp only [execCommandAccept, ready, held, none_]
    rfl
  case relay =>
    change execCommandAccept .relay desc ok s = _
    simp only [execCommandAccept, ready]
    rfl
  case ring =>
    change execCommandAccept (.cmdRing h ring) desc true s = _
    have goesOn : ¬(s.own.owner = some h.val ∧ 1024 ≤ s.host.accepted.length) := by
      rintro ⟨owner, many⟩
      exact fits.elim (· owner) (Nat.not_lt.mpr many)
    simp [execCommandAccept, ready, runs, direct, used, room, goesOn]
  case chain =>
    change Host.Outcome.next (ringChainReturn s h.val page.val word.toNat true) = _
    simp [ringChainReturn, runs, chain, reading]

@[simp] theorem hostPresent_begun (c : Cmd) (s : State) (a : Accepted) (h : Nat) :
    hostPresent (begun c s a) h = hostPresent s h := rfl

/-- A FENCE command waits while the oldest accepted command is another one (R446). -/
theorem mustWait_of_fence {s : State} {a b : Accepted} {rest : List Accepted} (fence : a.fence = true)
    (oldest : s.host.accepted = b :: rest) (other : b.aseq ≠ a.aseq) : mustWait s a = true := by
  simp [mustWait, fence, oldest, other]

theorem runCommand_of_mustWait {c : Cmd} {op : Nat} {body : Nat → State → Effect} {s : State} {a : Accepted}
    (ready : s.boot.phase = .ready)
    (found : s.host.accepted.find? (fun b => !b.started && b.src == c.src && b.seq == c.seq.toNat && b.opcode == op) = some a)
    (waits : mustWait s a = true) : runCommand c op body s = .next s := by
  simp [runCommand, ready, found, startCmd, waits]

/-- Settles O23: the three status rows report, and FENCE is `mustWait`. -/
theorem hostCommands : Obligations.HostCommands := by
  constructor
  · intro c s a
    dsimp only
    refine ⟨fun runs => ?nop, fun host type ring runs named present inType => ?ring, fun host runs named present => ?host⟩
    case nop => exact (runCommand_ends runs rfl : execNop c s = _)
    case ring =>
      refine (runCommand_reports runs (if_neg ?_) : execRingStatus c host type ring s = _)
      simp only [not_or, hostPresent_begun, present]
      exact ⟨Nat.not_le.mpr named, nofun, Nat.not_le.mpr inType⟩
    case host =>
      refine (runCommand_reports runs (if_neg ?_) : execHostStatus c host s = _)
      simp only [not_or, hostPresent_begun, present]
      exact ⟨Nat.not_le.mpr named, nofun⟩
  · intro s c a b rest ready found fence oldest other
    exact (runCommand_of_mustWait ready found (mustWait_of_fence fence oldest other) : execNop c s = _)

end Sys2Proof.Machine
end

section
/-! Ownership (R470 to R473). -/

namespace Sys2Proof.Machine

theorem countReservedBits_of_named {r : Reg} {v : Nat} (named : v &&& r.named = v) (s : State) (m : Nat) :
    countReservedBits s m r v = s := by
  simp [countReservedBits, named]

theorem writeOwnBid_record {s : State} {m v : Nat} (named : v &&& Reg.ownBid.named = v) (on : bit v 4 = true) :
    writeOwnBid s m v = (setBankBid s m (v % 32)).withOwn { s.own with
      bids := s.own.bids.filter (fun b => b.master != m) ++
        [{ master := m, prio := v % 16, nonce := (getAt 0 s.regs.bankNonce m).toNat }]
      window := s.own.window || s.own.owner.isNone } := by
  simp only [writeOwnBid, countReservedBits_of_named named, on]
  rfl

theorem writeOwnBid_withdraw {s : State} {m v : Nat} (named : v &&& Reg.ownBid.named = v) (off : bit v 4 = false) :
    writeOwnBid s m v = (setBankBid s m (v % 32)).withOwn { s.own with
      bids := s.own.bids.filter (fun b => b.master != m) } := by
  simp only [writeOwnBid, countReservedBits_of_named named, off]
  rfl

theorem writeOwnCtrl_of_not_owner {s : State} {m : Nat} (other : s.own.owner ≠ some m) (v : Nat) :
    writeOwnCtrl s m v = nonOwner s m (some (Reg.off .ownCtrl 0)) := by
  simp [writeOwnCtrl, other]

section
variable {s : State} {m : Nat} (owner : s.own.owner = some m)
include owner

theorem writeOwnCtrl_renew : writeOwnCtrl s m 1 = s.withOwn { s.own with leaseEnd := leaseFrom s } := by
  have named : countReservedBits s m .ownCtrl 1 = s := countReservedBits_of_named (by decide) s m
  simp [writeOwnCtrl, owner, named, bit, bits]

theorem writeOwnCtrl_release : writeOwnCtrl s m 2 = vacancy s 4 := by
  have named : countReservedBits s m .ownCtrl 2 = s := countReservedBits_of_named (by decide) s m
  simp [writeOwnCtrl, owner, named, bit, bits]

theorem writeOwnCtrl_grant {k : Nat} (master : k < 4) (other : k ≠ m) (bids : (bidOf s k).isSome = true) :
    writeOwnCtrl s m (8 * k + 4) = changeOwner s (some k) 2 := by
  have named : (8 * k + 4) &&& Reg.ownCtrl.named = 8 * k + 4 := by
    match k, master with
    | 0, _ | 1, _ | 2, _ | 3, _ => decide
  have target : bits (8 * k + 4) 3 2 = k := by simp only [bits]; omega
  have noRenewal : bit (8 * k + 4) 0 = false := by
    simp only [bit, bits, beq_eq_false_iff_ne]
    omega
  have grants : bit (8 * k + 4) 2 = true := by
    simp only [bit, bits, beq_iff_eq]
    omega
  simp [writeOwnCtrl, owner, countReservedBits_of_named named, target, noRenewal, grants, other, bids]

end

/-- Settles O24: a write reaches the ownership in the state that has seen it, whose owner and bids are the old ones. -/
theorem ownership : Obligations.Ownership := by
  intro s m ready
  dsimp only
  have access (off : Nat) (f : State → State) : regAccess s m.val off f = f (seen s m off) :=
    regAccess_of_ready ready m off f
  refine ⟨fun v named => ?record, fun v named => ?withdraw, fun owner => ⟨?renew, ?release⟩,
    fun other v => ⟨?_, ?_, ?_⟩, fun k owner other bids => ?grant, fun x window vacant best => ?window,
    fun owner => ?expire⟩
  case record =>
    have on : bit (v ||| 0x10).toNat 4 = true := by simp [show bit 16 4 = true from rfl]
    have prio : (v ||| 0x10).toNat % 16 = v.toNat % 16 := by
      rw [BitVec.toNat_or, Nat.or_mod_two_pow (n := 4)]
      simp
    refine congrArg Host.Outcome.next ((access ..).trans ((writeOwnBid_record named on).trans ?_))
    rw [seen_own, seen_bankNonce, prio]
  case withdraw =>
    have off : bit (v &&& 0xffffffef).toNat 4 = false := by simp [show bit 0xffffffef 4 = false from rfl]
    refine congrArg Host.Outcome.next ((access ..).trans ((writeOwnBid_withdraw named off).trans ?_))
    rw [seen_own]
  case renew =>
    refine congrArg Host.Outcome.next ((access ..).trans ((writeOwnCtrl_renew (by simpa using owner)).trans ?_))
    rw [seen_own, leaseFrom_congr (seen_clk ..) (seen_applied ..)]
  case release =>
    exact congrArg Host.Outcome.next ((access ..).trans (writeOwnCtrl_release (by simpa using owner)))
  case grant =>
    have word : (BitVec.ofNat 32 (8 * k.val) ||| 4).toNat = 8 * k.val + 4 := by
      clear other bids
      decide +revert
    refine congrArg Host.Outcome.next ((access ..).trans ?_)
    rw [word]
    exact writeOwnCtrl_grant (by simpa using owner) k.isLt other (by simpa [bidOf] using bids)
  case window =>
    change execBidWindowClose s = _
    simp only [execBidWindowClose, window, State.withOwn_own, vacant, best]
    rfl
  case expire =>
    change execLeaseExpire s = _
    simp only [execLeaseExpire, owner]
  all_goals
    exact congrArg Host.Outcome.next ((access ..).trans (writeOwnCtrl_of_not_owner (by simpa using other) _))

end Sys2Proof.Machine
end

section
/-! The DMA unit (R480 to R493, R510, R511). -/

namespace Sys2Proof.Machine

/-- A state that no run from reset reaches: DMA_CH_CFG of channel 0 is listed twice, with ENABLE set in both entries. -/
def channelEnabledTwice : State :=
  { ({} : State) with
    boot := { ({} : BootSt) with phase := .ready }
    own := { ({} : OwnSt) with owner := some 2 }
    regs := { ({} : Regs) with applied := [(0xC00000, 1), (0xC00000, 1)] } }

/-- Refutes O27: the statement speaks of every state, and in one whose store of registers is not in canonical form the write of
the reset value uncovers a second entry of the same register, in which ENABLE is still set: no disable is asked for. -/
theorem not_dmaEnables : ¬Obligations.DmaEnables := by
  intro h
  obtain ⟨-, cleared, -⟩ := h channelEnabledTwice 2 0 0
  obtain ⟨-, disabled⟩ := cleared rfl rfl (by decide +kernel)
  have asked : (exec (.dmaDisable 2 0 0) channelEnabledTwice).rec (motive := fun _ => Bool)
      (fun t => (dmaAt t 0).disable) (fun _ => true) (fun _ => true) = false := by decide +kernel
  rw [disabled] at asked
  revert asked
  decide +kernel

/-- Settles O28: DMA_KICK and DMA_STATUS answer by the channel's number and its ENABLE. -/
theorem dmaCommands : Obligations.DmaCommands := by
  intro c s a ch
  dsimp only
  refine ⟨fun runs named enabled waiting idle => ?tail, fun runs named enabled busy => ?kick,
    fun runs named disabled => ?disabled, fun runs beyond => ?unknown, fun runs named => ?status,
    fun runs beyond => ?unknownStatus⟩
  case tail =>
    refine (runCommand_ends runs ((if_neg (Nat.not_le.mpr named)).trans ?_) : execDmaKick c ch s = _)
    simp [enabled, dmaKick, waiting, idle]
  case kick =>
    refine (runCommand_ends runs ((if_neg (Nat.not_le.mpr named)).trans ?_) : execDmaKick c ch s = _)
    have notTail : ¬((dmaAt (begun c s a) ch.toNat).st = .waiting ∧ (dmaAt (begun c s a) ch.toNat).reading = false) := by
      rintro ⟨waiting, idle⟩
      exact busy.elim (· waiting) (by simp [idle])
    rw [if_pos enabled, dmaKick, if_neg notTail]
  case disabled =>
    refine (runCommand_fails runs ((if_neg (Nat.not_le.mpr named)).trans ?_) : execDmaKick c ch s = _)
    simp [disabled]
  case unknown => exact (runCommand_fails runs (if_pos beyond) : execDmaKick c ch s = _)
  case status => exact (runCommand_reports runs (if_neg (Nat.not_le.mpr named)) : execDmaStatus c ch s = _)
  case unknownStatus => exact (runCommand_fails runs (if_pos beyond) : execDmaStatus c ch s = _)

/-- Settles O29: the state of the channel and the outcome of the reads pick the branch. -/
theorem dmaBursts : Obligations.DmaBursts := by
  intro s ch
  dsimp only
  refine ⟨fun word desc fetching => ⟨?fetched, ?failed⟩, fun word desc waiting reading => ?tail,
    fun l room turn => ?grant, fun full => ?full, fun k b src dst ok poison r r2 fill found => ?fill,
    fun k b src dst d ok poison r r2 u copy found read => ?copy,
    fun k i b src dst d e ok poison r r2 u w compare found read read2 differ first => ?compare,
    fun k b d found back => ⟨?landed, fun clean => ?refused⟩⟩
  case fetched | failed =>
    refine congrArg Host.Outcome.next ?_
    simp only [dmaChainReturn, fetching]
    rfl
  case tail =>
    refine congrArg Host.Outcome.next ?_
    simp only [dmaChainReturn, waiting, reading]
    rfl
  case grant =>
    change execDmaBurstGrant s = _
    simp only [execDmaBurstGrant, if_neg (Nat.not_le.mpr room), turn]
    rfl
  case full => exact if_pos full
  case fill =>
    change execDmaReadData ch k src dst ok poison r r2 s = _
    simp only [execDmaReadData, found, fill]
    rfl
  case copy =>
    change execDmaReadData ch k src dst ok poison r r2 s = _
    simp only [execDmaReadData, found, copy, read]
    rfl
  case compare =>
    change execDmaReadData ch k src dst ok poison r r2 s = _
    simp only [execDmaReadData, found, compare, read, read2, differ, first, Option.getD_none, Nat.min_self]
    rfl
  case landed =>
    change execDmaWriteResponse ch k true s = _
    simp only [execDmaWriteResponse, found, back]
    rfl
  case refused =>
    change execDmaWriteResponse ch k false s = _
    simp only [execDmaWriteResponse, found, back, dmaError, clean]
    rfl

end Sys2Proof.Machine
end

section
/-! Ageing, deletion and demotion (R199 to R201, R245 to R254); the rate grid (R666). -/

namespace Sys2Proof.Machine

theorem exports_setRec (s : State) (k : Nat) (b r : Bytes) : exports (setRec s k b) r = exports s r := rfl

/-- What a sweep makes of a slot that is due and exports nothing (R250, R251). -/
theorem judgeSlot_silent {s : State} {k : Nat} (due : judged s (recAt s k) = true) (silent : exports s (recAt s k) = false) :
    judgeSlot s k =
      if bit (recHits (recAt s k)) 0 then setRec s k (paste (recAt s k) 123 (le 1 (recHits (recAt s k) / 8 * 8)))
      else if bit (recHits (recAt s k)) 2 then deleteSlot s k 1 .none
      else setRec s k (paste (recAt s k) 123 (le 1 (recHits (recAt s k) ||| 4))) := by
  simp only [judgeSlot, due, judge, exports_setRec, silent]
  by_cases hit : bit (recHits (recAt s k)) 0 = true
  · simp [hit]
  · by_cases aged : bit (recHits (recAt s k)) 2 = true <;> simp [hit, aged]

section
variable {s : State} {k : Nat} (live : coldLive (coldAt s k) = true) (own : isCopy s (coldRec (coldAt s k)) = false)
  (stays : promotingCold s k = false) (kept : s.fs.dels.any (fun d => d.tierB && d.slot == k) = false)
include live own stays kept

theorem coldSweep_purged {p : Purge} (purged : purgeOf s (recKey (coldRec (coldAt s k)) 0) = some p) :
    coldSweep s k = deleteCold s k 3 (.command p.aseq) := by
  simp only [coldSweep, live, own, stays, kept, purged]
  rfl

theorem coldSweep_aged (noPurge : purgeOf s (recKey (coldRec (coldAt s k)) 0) = none) (sweeps : regField s .sweepCfg 0 0 1 = 1)
    (ages : idleCode s (coldRec (coldAt s k)) ≠ 15) (silent : exports s (coldRec (coldAt s k)) = false) :
    coldSweep s k =
      if 3 * 2 ^ idleCode s (coldRec (coldAt s k)) * 128 < wrapSub 32 (coarse s) (recLast (coldRec (coldAt s k))) then
        deleteCold s k 1 .none
      else s := by
  simp [coldSweep, live, own, stays, kept, noPurge, sweeps, ages, silent]

end

/-- The state after a visit of the demotion unit has counted the age of a live slot (R199). -/
def ageCounted (s : State) (k : Nat) : State :=
  let x := pierAt s (slotPier s k)
  let bin := ageBin (wrapSub 32 (coarse s) (recLast (recAt s k)))
  setPier s (slotPier s k) { x with hist := setAt 0 x.hist bin (getAt 0 x.hist bin + 1) }

/-- A visit of a live slot counts its age, and then may begin its demotion (R200). -/
theorem execDemotionVisit_live {s : State} {k : Nat} (formatted : s.fs.formatted = true) (within : k % pierSlots s ≠ 0)
    (trained : (pierAt s (slotPier s k)).passes ≠ 0) (live : slotLive s k = true) :
    execDemotionVisit k s =
      if (s.fs.demoting && decide (1 < (pierAt s (slotPier s k)).passes) &&
          decide ((pierAt s (slotPier s k)).threshold ≤ wrapSub 32 (coarse s) (recLast (recAt s k))) &&
          demotable (ageCounted s k) k) = true then
        .next (startDemotion (ageCounted s k) k .none)
      else .next (ageCounted s k) := by
  simp only [execDemotionVisit, formatted, if_neg within, live, decide_eq_false trained]
  rfl

/-- Settles O30: each row is the branch that its hypotheses leave of its function. -/
theorem ageingAndDemotion : Obligations.AgeingAndDemotion := by
  constructor
  · intro s k
    dsimp only
    refine ⟨fun formatted => ?round, fun p formatted visits purged => ?purge,
      fun formatted visits noPurge sweeps due silent => ?judge, fun skips => ?skip, fun o formatted inside => ⟨?bad, ?cold⟩,
      fun d found fenced => ?hot, fun d found fenced => ?coldDeletion, fun d b found unfenced => ?waits,
      fun f frame parked => ?hold⟩
    case round => exact if_pos formatted
    case purge =>
      change execSweeperVisit k s = _
      simp only [execSweeperVisit, formatted, visits, purged]
      rfl
    case judge =>
      change execSweeperVisit k s = _
      simp only [execSweeperVisit, formatted, visits, noPurge, sweeps, judgeSlot_silent due silent]
      rfl
    case skip =>
      change execSweeperVisit k s = _
      simp [execSweeperVisit, skips]
    case bad =>
      intro bad
      change execColdSweeperRead ⟨k, o⟩ s = _
      simp [execColdSweeperRead, formatted, Nat.not_le.mpr inside, bad]
    case cold =>
      intro good live own stays kept
      have swept : exec (.coldSweeperRead ⟨k, o⟩) s = .next (coldSweep (ddrRead s (coldAddr s k) 256 o 4) k) := by
        change execColdSweeperRead ⟨k, o⟩ s = _
        simp [execColdSweeperRead, formatted, Nat.not_le.mpr inside, good]
      refine ⟨fun p purged => ?_, fun noPurge sweeps ages silent => ?_⟩
      · rw [swept, coldSweep_purged live own stays kept purged]
      · rw [swept, coldSweep_aged live own stays kept noPurge sweeps ages silent]
    case hot =>
      change execDeletionFencePassed k false s = _
      simp only [execDeletionFencePassed, found, fenced]
      exact (apply_ite Host.Outcome.next _ _ _).symm
    case coldDeletion =>
      have inTierB : d.tierB = true := by
        have holds := List.find?_some found
        simp only [beq_true, Bool.and_eq_true] at holds
        exact holds.1
      change execDeletionFencePassed k true s = _
      simp only [execDeletionFencePassed, found, fenced, deletionSettled, inTierB]
      rfl
    case waits =>
      change execDeletionFencePassed k b s = _
      simp only [execDeletionFencePassed, found, unfenced]
      rfl
    case hold =>
      change execSetupHoldExpire k s = _
      simp [execSetupHoldExpire, frame, parked]
  · intro s k formatted
    dsimp only
    refine ⟨fun within trained live early => ?counted, fun within trained live demoting many old may => ?demoted,
      fun within idle => ?idle, fun d found stays passed => ?completes, fun d found waits => ?waits⟩
    case counted =>
      refine (execDemotionVisit_live formatted within trained live).trans (if_neg ?_)
      simp only [Bool.and_eq_true, decide_eq_true_eq]
      rintro ⟨⟨⟨demoting, many⟩, old⟩, -⟩
      rcases early with off | few | young
      · exact Bool.false_ne_true (off.symm.trans demoting)
      · omega
      · omega
    case demoted =>
      refine (execDemotionVisit_live formatted within trained live).trans (if_pos ?_)
      simp only [Bool.and_eq_true, decide_eq_true_eq]
      exact ⟨⟨⟨demoting, many⟩, old⟩, may⟩
    case idle =>
      change execDemotionVisit k s = _
      simp only [execDemotionVisit, formatted, if_neg within, Bool.not_true, Bool.false_eq_true, if_false]
      exact if_pos (by simpa using idle)
    case completes =>
      change execDemotionComplete k s = _
      simp only [execDemotionComplete, found, stays, passed]
      rfl
    case waits =>
      change execDemotionComplete k s = _
      have holds : (d.back || !fencePassed s d.stamp) = true := by simpa using waits
      simp only [execDemotionComplete, found, holds]
      rfl

/-- A state that no run from reset reaches: slice 0 is listed twice, and the second entry counts events. -/
def sliceListedTwice : State :=
  { ({} : State) with slices := { ({} : SliceSt) with sl := [(0, {}), (0, { ({} : Slice) with events := 5 })] } }

/-- Refutes O31: the statement speaks of every state, and in one whose store of slices is not in canonical form the restart of
the limits uncovers a second entry of the same slice, whose count of events stands. -/
theorem not_clockwork : ¬Obligations.Clockwork := by
  intro h
  obtain ⟨-, -, ⟨u, run, -, restarted⟩, -⟩ := h sliceListedTwice 0
  have counted : (exec .intervalStart sliceListedTwice).rec (motive := fun _ => Nat)
      (fun t => (sliceAt t 0).events) (fun _ => 0) (fun _ => 0) = 5 := by decide +kernel
  rw [run] at counted
  have events := (restarted 0 (by decide)).1
  cases events.symm.trans counted

end Sys2Proof.Machine
end

section
/-! Subports: frames, gates, the shed handshake and its steps, pauses and link states (R41 to R76, R382, R391). -/

namespace Sys2Proof.Machine

/-- A frame shorter than 64 B with its FCS is counted and goes no further (R43). -/
theorem receiveFrame_undersize {s : State} {n : Nat} {bytes : Bytes} (small : bytes.length < 60) (ok whole : Bool) :
    receiveFrame s n bytes ok whole = count (count (count (endRx s n) 1 n 0 1) 1 n 1 (bytes.length + 4)) 1 n 5 1 :=
  if_pos (Nat.add_lt_add_right small 4)

/-- Settles O32: a row reads the link, the frame in reception or the gates of its subport, and takes the one branch left. -/
theorem framesAndGates : Obligations.FramesAndGates := by
  intro s sub
  dsimp only
  refine ⟨fun bytes ok whole cws direct up => ?frame, fun bytes ok whole cws direct down rec => ?shed,
    fun bytes ok whole cws up bond => ?bond, fun bytes ok whole cws down off => ?silent,
    fun bytes small => receiveFrame_undersize small true true, fun none_ => ?noFrame, fun fid some_ => ?cut,
    fun ready => if_pos ready, fun busy => if_neg (by simp [busy]), fun t bank x change => ?gateChange,
    fun enabled => ?gateStep, fun disabled => if_pos disabled⟩
  case frame | bond =>
    change execFrameArrival sub bytes ok whole cws s = _
    simp only [execFrameArrival, *]
    rfl
  case shed =>
    change execFrameArrival sub bytes ok whole cws s = _
    simp only [execFrameArrival, direct, down, rec]
    exact (apply_ite Host.Outcome.next _ _ _).symm
  case silent =>
    change execFrameArrival sub bytes ok whole cws s = _
    simp [execFrameArrival, down, off]
  case noFrame =>
    change execUncorrectableCodeword sub s = _
    simp only [execUncorrectableCodeword, show (subAt (count s 1 sub.val 11 1) sub.val).rxFrame = none from none_]
  case cut =>
    change execUncorrectableCodeword sub s = _
    simp only [execUncorrectableCodeword, show (subAt (count s 1 sub.val 11 1) sub.val).rxFrame = some fid from some_]
    exact (apply_ite Host.Outcome.next _ _ _).symm
  case gateChange =>
    change execGateListChange sub s = _
    simp only [execGateListChange, change]
  case gateStep =>
    change execGateEntryAdvance sub s = _
    simp only [execGateEntryAdvance, enabled]
    rfl

/-! The shed handshake (R57 to R63). -/

section
variable {s : State} {n : Nat} {m : ShedMsg}

theorem receiveReq_recovers (up : (subAt s n).recUp = true) (allowed : (allowedWidths s n).contains m.target.toNat = true)
    (healthy : m.target.toNat ≤ (bothHealthy s n).length) :
    receiveReq s n m =
      finishRecovery (sendShed s n msgAck 0 m.seq.toNat m.target.toNat 0) n m.target.toNat := by
  simp only [receiveReq, up, allowed, decide_eq_true healthy]
  rfl

theorem receiveReq_refuses_recovery (up : (subAt s n).recUp = true)
    (refused : (allowedWidths s n).contains m.target.toNat = false ∨ (bothHealthy s n).length < m.target.toNat) :
    receiveReq s n m = noWidth (sendShed s n msgNak 4 m.seq.toNat 0 0) n := by
  have notBoth : ((allowedWidths s n).contains m.target.toNat &&
      decide (m.target.toNat ≤ (bothHealthy s n).length)) = false := by
    rcases refused with other | few
    · rw [other]
      rfl
    · rw [decide_eq_false (Nat.not_le.mpr few), Bool.and_false]
  simp only [receiveReq, up, notBoth]
  rfl

theorem receiveReq_crosses {r : ShedReq} (down : (subAt s n).recUp = false) (ours : (subAt s n).req = some r)
    (stands : ourReqStands s n m r = true) : receiveReq s n m = sendShed s n msgNak 3 m.seq.toNat 0 0 := by
  simp only [receiveReq, down, ours, stands]
  rfl

theorem receiveReq_judged (down : (subAt s n).recUp = false)
    (yields : (subAt s n).req.all (fun r => !ourReqStands s n m r) = true) :
    receiveReq s n m =
      match reqRefusal (setSub s n { subAt s n with req := none }) n m.target.toNat with
      | some reason => sendShed (setSub s n { subAt s n with req := none }) n msgNak reason m.seq.toNat 0 0
      | none => acceptStep (setSub s n { subAt s n with req := none }) n m.seq.toNat m.target.toNat := by
  cases ours : (subAt s n).req with
  | none =>
    simp only [receiveReq, down, ours]
    rfl
  | some r =>
    have theirs : ourReqStands s n m r = false := by simpa [ours] using yields
    simp only [receiveReq, down, ours, theirs]
    rfl

section
variable {r : ShedReq} (ours : (subAt s n).req = some r) (answered : r.seq = m.seq.toNat)
include ours answered

theorem receiveAck_steps (down : (subAt s n).recUp = false) :
    receiveAck s n m = setSub s n { subAt s n with
      req := none, stepTo := some r.target, stepSeq := r.seq, stepFrom := (subAt s n).width, readySent := false
      readyRcvd := false } := by
  simp [receiveAck, ours, answered, down]

theorem receiveAck_recovers (up : (subAt s n).recUp = true) : receiveAck s n m = finishRecovery s n r.target := by
  simp [receiveAck, ours, answered, up]

theorem receiveNak_stays (down : (subAt s n).recUp = false) :
    receiveNak s n m = sleepLanes (setSub s n { subAt s n with req := none }) (addedLanes s n r.target) := by
  simp [receiveNak, ours, answered, down]

theorem receiveNak_recovery (up : (subAt s n).recUp = true) : receiveNak s n m = noWidth s n := by
  simp [receiveNak, ours, answered, up]

end

section
variable (other : (subAt s n).req.all (fun r => r.seq != m.seq.toNat) = true)
include other

theorem receiveAck_unasked : receiveAck s n m = s := by
  cases ours : (subAt s n).req with
  | none => simp [receiveAck, ours]
  | some r =>
    have differs : r.seq ≠ m.seq.toNat := by simpa [ours] using other
    simp [receiveAck, ours, differs]

theorem receiveNak_unasked : receiveNak s n m = s := by
  cases ours : (subAt s n).req with
  | none => simp [receiveNak, ours]
  | some r =>
    have differs : r.seq ≠ m.seq.toNat := by simpa [ours] using other
    simp [receiveNak, ours, differs]

end
end

/-- Settles O35: a subport that takes handshake frames gives each message to its receiver, and the retries follow their
counts. -/
theorem shedHandshake : Obligations.ShedHandshake := by
  intro s sub m
  dsimp only
  refine ⟨fun deaf c isShed => ?deaf, fun takes => ⟨if_pos takes, fun up allowed healthy => ?_, fun up refused => ?_,
    fun r down ours stands => ?_, fun down yields => ?_, fun r ours answered down => ?_,
    fun r ours answered up => ⟨?_, ?_⟩, fun r ours answered down => ?_, fun other => ⟨?_, ?_⟩, fun step seq => ?ready,
    fun seq => ?notReady⟩, fun up enabled quiet few => ?retry, fun answering => ⟨?noRetry, ?noTimeout⟩,
    fun up quiet => ?timeout, fun r ours few => ?reqRetry, fun r ours many => ?reqLost⟩
  case deaf =>
    have ignored : ¬takesShed s sub.val = true := by simp [deaf]
    simp only [List.mem_cons, List.not_mem_nil, or_false] at isShed
    rcases isShed with rfl | rfl | rfl | rfl | rfl <;> exact if_neg ignored
  case ready =>
    refine (if_pos takes).trans (congrArg Host.Outcome.next ?_)
    obtain ⟨t, target⟩ := Option.ne_none_iff_exists'.mp step
    simp [receiveReady, target, seq]
  case notReady =>
    refine (if_pos takes).trans (congrArg Host.Outcome.next ?_)
    simp [receiveReady, seq]
  case retry =>
    change execHelloRetry sub s = _
    simp [execHelloRetry, up, enabled, quiet, few]
  case noRetry =>
    change execHelloRetry sub s = _
    simp [execHelloRetry, Option.isNone_eq_false_iff.mpr (Option.isSome_iff_ne_none.mpr answering)]
  case noTimeout =>
    change execHelloTimeout sub s = _
    simp [execHelloTimeout, Option.isNone_eq_false_iff.mpr (Option.isSome_iff_ne_none.mpr answering)]
  case timeout =>
    change execHelloTimeout sub s = _
    simp [execHelloTimeout, up, quiet]
  case reqRetry =>
    change execReqRetry sub s = _
    simp only [execReqRetry, ours, few, if_true]
  case reqLost =>
    change execReqRetry sub s = _
    simp only [execReqRetry, ours, if_neg (Nat.not_lt.mpr many)]
  · exact (if_pos takes).trans (congrArg Host.Outcome.next (receiveReq_recovers up allowed healthy))
  · exact (if_pos takes).trans (congrArg Host.Outcome.next (receiveReq_refuses_recovery up refused))
  · exact (if_pos takes).trans (congrArg Host.Outcome.next (receiveReq_crosses down ours stands))
  · exact (if_pos takes).trans (congrArg Host.Outcome.next (receiveReq_judged down yields))
  · exact (if_pos takes).trans (congrArg Host.Outcome.next (receiveAck_steps ours answered down))
  · exact (if_pos takes).trans (congrArg Host.Outcome.next (receiveAck_recovers ours answered up))
  · exact (if_pos takes).trans (congrArg Host.Outcome.next (receiveNak_recovery ours answered up))
  · exact (if_pos takes).trans (congrArg Host.Outcome.next (receiveNak_stays ours answered down))
  · exact (if_pos takes).trans (congrArg Host.Outcome.next (receiveAck_unasked other))
  · exact (if_pos takes).trans (congrArg Host.Outcome.next (receiveNak_unasked other))

end Sys2Proof.Machine
end

section
/-! Lane shedding, pauses and link states (R42 to R76, R653). -/

namespace Sys2Proof.Machine

theorem failLane_failed {s : State} {l : Nat} (failed : (laneAt s l).failed = true) (cause : Option Nat) :
    failLane s l cause = s :=
  if_pos failed

/-- Settles O36: a window reads its load, and a row of a step reads the target and the two READY messages. -/
theorem shedSteps : Obligations.ShedSteps := by
  constructor
  · intro s sub
    dsimp only
    refine ⟨fun up => ?window, fun down => if_pos down, fun t target wider => ?locked, fun t target may => ?switches,
      fun t target wider unready => ?waits, fun switching => ?aligned, fun t unlocked target wider unready => ?late,
      fun none_ => ⟨?_, ?_, ?_⟩⟩
    case window =>
      change execShedWindowEnd sub s = _
      simp only [execShedWindowEnd, up, decide_eq_true_eq, Bool.true_eq_false, if_false,
        apply_ite (Host.Outcome.next : State → Host.Outcome State Fault Refusal)]
    case locked =>
      change execLanesLocked sub s = _
      simp only [execLanesLocked, target, if_neg (Nat.not_le.mpr wider)]
    case switches =>
      change execShedSwitch sub s = _
      have goesOn : ¬((subAt s sub.val).width < t ∧ ((subAt s sub.val).readySent && (subAt s sub.val).readyRcvd) = false) := by
        rintro ⟨wider, unready⟩
        rcases may with narrow | ⟨sent, rcvd⟩
        · omega
        · simp [sent, rcvd] at unready
      simp only [execShedSwitch, target, if_neg goesOn]
    case waits =>
      change execShedSwitch sub s = _
      have stands : (subAt s sub.val).width < t ∧ ((subAt s sub.val).readySent && (subAt s sub.val).readyRcvd) = false :=
        ⟨wider, Bool.and_eq_false_iff.mpr unready⟩
      simp only [execShedSwitch, target, if_pos stands]
    case aligned =>
      change execAlignmentRegained sub s = _
      simp only [execAlignmentRegained, switching]
      rfl
    case late =>
      change execWidenTimeout sub unlocked s = _
      have goesOn : ¬(t ≤ (subAt s sub.val).width ∨
          ((subAt s sub.val).readySent && (subAt s sub.val).readyRcvd) = true) := by
        rintro (narrow | ready)
        · omega
        · simp only [Bool.and_eq_true] at ready
          simp [ready] at unready
      simp only [execWidenTimeout, target, if_neg goesOn]
    · change execLanesLocked sub s = _
      simp only [execLanesLocked, none_]
    · change execShedSwitch sub s = _
      simp only [execShedSwitch, none_]
    · change execWidenTimeout sub [] s = _
      simp only [execWidenTimeout, none_]
  · intro s lane sub
    dsimp only
    refine ⟨rfl, fun failed => failLane_failed failed _, fun symbols => ?window, fun k trial down => ?next,
      fun up => ?recovered⟩
    case window => exact (apply_ite Host.Outcome.next _ _ _).symm
    case next =>
      change execRecoveryTrialTimeout sub s = _
      simp only [execRecoveryTrialTimeout, trial, down, nextTrial]
      rfl
    case recovered =>
      change execRecoveryTrialTimeout sub s = _
      cases trial : (subAt s sub.val).recovery with
      | none => simp [execRecoveryTrialTimeout, trial]
      | some l => simp [execRecoveryTrialTimeout, trial, up]

/-- Settles O37: a pause is counted in the cycles of `startPause`, and one that is owed is sent when control frames may be. -/
theorem pauses : Obligations.Pauses := by
  intro s sub
  dsimp only
  refine ⟨fun op params up direct => if_pos (by simp [up, direct]), fun params mode => if_pos ⟨rfl, mode⟩,
    fun m ms pausing => ?effect, fun none_ => ?noEffect, fun p q => rfl, fun prio => rfl, fun owed ready => ?send,
    fun owed unready => ?wake, fun paid => if_pos paid, fun due ready => ?resend, fun due unready => ?rewake,
    fun clear sent => if_pos ⟨clear, sent⟩⟩
  case effect =>
    change execPauseEffect sub s = _
    simp only [execPauseEffect, pausing]
  case noEffect =>
    change execPauseEffect sub s = _
    simp only [execPauseEffect, none_]
  case send =>
    change execPauseSend sub s = _
    simp [execPauseSend, owed, ready]
  case wake =>
    change execPauseSend sub s = _
    simp [execPauseSend, owed, unready]
  case resend | rewake =>
    change execPauseRepeat sub s = _
    have goesOn : ¬((subAt s sub.val).xoff &&& fcBits s sub.val = 0 ∧ (subAt s sub.val).xoffSent = 0) :=
      fun none_ => due.elim (· none_.1) (· none_.2)
    simp only [execPauseRepeat, *]
    rfl

/-- Settles O38: the state of the link, of its hold and of its low-power idle picks the branch. -/
theorem linkStates : Obligations.LinkStates := by
  intro s sub
  dsimp only
  refine ⟨fun up method active idle enter wake => ?enters, fun busy => ?stays, fun waking => if_pos waking,
    fun other => if_neg other, fun far up => ?down, fun far down => ?isDown, fun down off wanted none_ powered => ?comesUp,
    fun l down off wanted trial powered => ?recovers, fun unwanted => ?unwanted, fun none_ unpowered => ?unpowered,
    fun holds => ?expires, fun none_ => ?noHold, fun up => if_pos up, fun down => if_neg (by simp [down])⟩
  case enters =>
    change execLpiEntry sub s = _
    simp [execLpiEntry, up, method, active, idle, enter, wake]
  case stays =>
    change execLpiEntry sub s = _
    rcases busy with down | method | asleep | sends <;> simp [execLpiEntry, *]
  case down =>
    change execLinkDown ⟨sub, far⟩ s = _
    simp only [execLinkDown, linkDown, up]
    exact (apply_ite Host.Outcome.next _ _ _).symm
  case isDown =>
    change execLinkDown ⟨sub, far⟩ s = _
    simp [execLinkDown, linkDown, down]
  case comesUp =>
    change execLinkUp sub s = _
    simp [execLinkUp, down, off, wanted, none_, powered]
  case recovers =>
    change execLinkUp sub s = _
    simp [execLinkUp, down, off, wanted, trial, powered]
  case unwanted =>
    change execLinkUp sub s = _
    simp [execLinkUp, unwanted]
  case unpowered =>
    change execLinkUp sub s = _
    simp [execLinkUp, none_, unpowered]
  case expires => exact if_pos (Option.isSome_iff_ne_none.mpr holds)
  case noHold => exact if_neg (by simp [none_])

end Sys2Proof.Machine
end

section
/-! The commands of the ports and of the traffic manager (R38 to R78, R402), and the lookups (R171 to R194, R265, R280). -/

namespace Sys2Proof.Machine

/-- Settles O39: a command whose port, subport and operands are good takes the branch that it names. -/
theorem portAndTrafficCommands : Obligations.PortAndTrafficCommands := by
  constructor
  · intro c s a
    dsimp only
    refine ⟨fun port mode map runs isPort isMode valid bonds => ?mode, fun port mode map runs bad => ?badMode,
      fun sub runs isSub present => ⟨?adminUp, ?adminDown⟩, fun sub width runs isSub present forced allowed => ?force,
      fun sub enable runs isSub present isBool => ?shed, fun port lane runs isPort isLane => ⟨?retire, ?restore⟩,
      fun port runs isPort => ?status⟩
    case mode =>
      have good : ¬(96 ≤ port.toNat ∨ 7 ≤ mode.toNat ∨ laneMapOk map.toNat = false) := by
        simp [valid, isPort, isMode]
      refine (runCommand_ends runs ((if_neg good).trans (if_neg (Nat.not_lt.mpr bonds))) : execPortMode c port mode map s = _)
    case badMode => exact (runCommand_fails runs (if_pos bad) : execPortMode c port mode map s = _)
    case adminUp =>
      refine (runCommand_ends runs ?_ : execSubportAdmin c sub 1 s = _)
      simp [Nat.not_le.mpr isSub, present]
    case adminDown =>
      refine (runCommand_ends runs ?_ : execSubportAdmin c sub 0 s = _)
      simp [Nat.not_le.mpr isSub, present]
    case force =>
      refine (runCommand_ends runs ?_ : execShedCtrl c sub 1 width s = _)
      refine (if_neg ?_).trans ((if_neg ?_).trans (if_neg forced))
      · simp [Nat.not_le.mpr isSub, present]
      · exact fun bad => Bool.false_ne_true (bad.2.symm.trans allowed)
    case shed =>
      refine (runCommand_ends runs ?_ : execShedCtrl c sub enable 0 s = _)
      simp [Nat.not_le.mpr isSub, Nat.not_lt.mpr isBool, present]
    case retire =>
      refine (runCommand_ends runs ?_ : execLaneSet c port lane 0 s = _)
      simp [Nat.not_le.mpr isPort, Nat.not_le.mpr isLane]
    case restore =>
      refine (runCommand_ends runs ?_ : execLaneSet c port lane 1 s = _)
      simp [Nat.not_le.mpr isPort, Nat.not_le.mpr isLane]
    case status =>
      refine ⟨_, ?_, (runCommand_reports runs (if_neg (Nat.not_le.mpr isPort)) : execPortStatus c port s = _)⟩
      simp only [List.length_append, List.length_map, upFrom, List.length_range]
      omega
  · intro c s a
    dsimp only
    refine ⟨fun q runs => ?queue, fun runs => (runCommand_reports runs rfl : execBufStatus c s = _), fun i runs => ?policer,
      fun sub runs isSub => ?gate, fun sub runs beyond => ?badGate⟩
    case queue =>
      split
      · next isQueue =>
        exact (runCommand_reports runs (if_neg (Nat.not_le.mpr isQueue)) : execQueueStatus c q s = _)
      · next isQueue =>
        exact (runCommand_fails runs (if_pos (Nat.not_lt.mp isQueue)) : execQueueStatus c q s = _)
    case policer =>
      split
      · next isPolicer =>
        exact (runCommand_reports runs (if_neg (Nat.not_le.mpr isPolicer)) : execPolicerRead c i s = _)
      · next isPolicer =>
        exact (runCommand_fails runs (if_pos (Nat.not_lt.mp isPolicer)) : execPolicerRead c i s = _)
    case gate => exact (runCommand_reports runs (if_neg (Nat.not_le.mpr isSub)) : execGateStatus c sub s = _)
    case badGate => exact (runCommand_fails runs (if_pos beyond) : execGateStatus c sub s = _)

/-! The read of a bucket that is lost (R159). -/

@[simp] theorem bankAccess_unreported (s : State) (p a : Nat) : (bankAccess s p a).unreported = s.unreported := by
  simp [bankAccess]

theorem bucketAddr_unreported (s : State) (b : Nat) : bucketAddr s.unreported b = bucketAddr s b := rfl

theorem bucketAddr_congr {s t : State} (h : t.unreported = s.unreported) (b : Nat) : bucketAddr t b = bucketAddr s b := by
  rw [← bucketAddr_unreported t, h, bucketAddr_unreported]

theorem bucketRead_uncorrectable (s : State) (b : Nat) :
    (bucketRead s b .uncorrectable).2 = false ∧
      (bucketRead s b .uncorrectable).1 =
        courseUncorrectable (readAt s (bucketPier s b) (bucketAddr s b) .uncorrectable) (bucketPier s b) (bucketAddr s b)
          false := by
  have same : bucketAddr (readAt s (bucketPier s b) (bucketAddr s b) .uncorrectable) b = bucketAddr s b :=
    bucketAddr_congr (bankAccess_unreported ..) b
  simp [bucketRead, same]

/-! The lookup of a frame (R171, R177). -/

theorem lookupRecords_none {s : State} {f : Frame} (none_ : candidates s f.key = []) (fid : Nat) (rec0 rec1 : ReadOutcome) :
    lookupRecords s fid f rec0 rec1 = resolveMiss s fid f := by
  simp only [lookupRecords, none_]
  rfl

/-- The state in which the record of one candidate has been read without an error (R177). -/
def recordSeen (s : State) (k : Nat) : State :=
  readAt s (slotPier s (ixSlot (idxAt s k))) (recordAddr s (ixSlot (idxAt s k))) .clean

theorem lookupRecords_hit {s : State} {f : Frame} {k : Nat} (one : candidates s f.key = [k])
    (same : consistent (recordSeen s k) k = true) (found : matches_ (recordSeen s k) f k = true) (fid : Nat)
    (rec1 : ReadOutcome) : lookupRecords s fid f .clean rec1 = lookupHit (recordSeen s k) fid f k := by
  have read : recordRead s (k, .clean) = recordSeen s k := rfl
  have compared : compareCands (recordSeen s k) f [k] = (recordSeen s k, some k) := by
    simp [compareCands, same, found]
  simp only [lookupRecords, one, List.take_succ_cons, List.take_nil, List.zip_cons_cons, List.zip_nil_left,
    List.foldl_cons, List.foldl_nil, read, compared]
  rfl

/-- Settles O40: the outcomes of the reads and the number of candidates pick the branch. -/
theorem lookups : Obligations.Lookups := by
  intro s fid
  dsimp only
  refine ⟨fun f prim alt rec0 rec1 frame stage unknown => ?flow, fun b => bucketRead_uncorrectable s b,
    fun f rec0 rec1 none_ => lookupRecords_none none_ fid rec0 rec1, fun f rec1 k one gen key serves shown => ?hit,
    fun f prim alt fetch first => ?directory, fun f c cs r fetch cands back slot cold => ?record,
    fun f lpmBad aclBad frame counted unset => ?lpm, fun f req later frame counted reqs => ?secondary,
    fun gone o o2 o3 o4 => ⟨?_, ?_, ?_⟩⟩
  case flow =>
    change execFlowLookupResult fid prim alt rec0 rec1 s = _
    have runs : (!(f.stage == .slice) || flowKnown f) = false := by simp [stage, unknown]
    simp only [execFlowLookupResult, frame, runs, Bool.false_eq_true, if_false, decide_eq_true_eq, ne_eq, ite_not,
      apply_ite (Host.Outcome.next : State → Host.Outcome State Fault Refusal)]
  case hit =>
    have same : consistent (recordSeen s k) k = true := beq_iff_eq.mpr gen
    have found : matches_ (recordSeen s k) f k = true := by
      simp only [matches_, same, Bool.and_eq_true, Bool.not_eq_true', beq_iff_eq]
      exact ⟨⟨⟨trivial, key⟩, serves⟩, shown⟩
    exact lookupRecords_hit one same found fid rec1
  case directory =>
    change execTierBDirectoryReturn fid prim alt s = _
    simp only [execTierBDirectoryReturn, fetch, first]
    rfl
  case record =>
    change execTierBRecordReturn fid r s = _
    simp only [execTierBRecordReturn, fetch, cands, back, slot, cold]
    rfl
  case lpm =>
    change execLpmAclResult fid lpmBad aclBad s = _
    simp only [execLpmAclResult, frame, counted, unset]
    rfl
  case secondary =>
    change execSecondaryLookupResult fid s = _
    simp only [execSecondaryLookupResult, frame, counted, reqs]
    rfl
  · change execFlowLookupResult fid o o2 o3 o4 s = _
    simp only [execFlowLookupResult, gone]
  · change execLpmAclResult fid [] [] s = _
    simp only [execLpmAclResult, gone]
  · change execSecondaryLookupResult fid s = _
    simp only [execSecondaryLookupResult, gone]

end Sys2Proof.Machine
end

section
/-! Index moves, the sequencer, the buffer and the PUNT and INJ rings (R122 to R152, R230, R364 to R399, R464 to R467). -/

namespace Sys2Proof.Machine

/-- A state that no run from reset reaches: location 0 of the index is listed twice. -/
def locationListedTwice : State :=
  { ({} : State) with fs := { ({} : FsSt) with idx := [(0, 5), (0, 7)] } }

/-- Refutes O41: the statement speaks of every state, and in one whose store of index entries is not in canonical form the end
of a move that clears its source uncovers a second entry of the same location. -/
theorem not_flowUpdates : ¬Obligations.FlowUpdates := by
  intro h
  obtain ⟨-, -, -, -, -, -, -, -, -, -, -, flipped⟩ := h.1 locationListedTwice 0
  have cleared := (flipped { path := [0, 1], entry := 0, who := .insertion 0 } rfl (by decide)).1
  revert cleared
  decide +kernel

/-- Settles O42: a frame with a verdict outstanding runs, and the swap waits until its epoch is drained. -/
theorem sequencer : Obligations.Sequencer := by
  intro s fid
  dsimp only
  refine ⟨fun f e frame open_ context met => ⟨fun even => ?run, fun odd => ?check⟩, fun f e frame idle => ?idle,
    fun f frame open_ => ?fault, fun f frame closed => ?noFault, fun slice addr bad => rfl,
    fun w swap drained => ?drained, fun w swap running => ?running, fun c a runs noSwap still valid => ?swap,
    fun c a slice runs isSlice => ?status⟩
  case run =>
    change execSeqWordExecute fid e s = _
    simp only [execSeqWordExecute, frame, open_, context, met, even]
    rfl
  case check =>
    change execSeqWordExecute fid e s = _
    simp only [execSeqWordExecute, frame, open_, context, met, if_pos odd]
    rfl
  case idle =>
    change execSeqWordExecute fid e s = _
    rcases idle with closed | out
    · simp [execSeqWordExecute, frame, closed]
    · simp [execSeqWordExecute, frame, out]
  case fault =>
    change execDeadlineFault fid s = _
    simp only [execDeadlineFault, frame, open_, if_true]
  case noFault =>
    change execDeadlineFault fid s = _
    simp only [execDeadlineFault, frame, closed]
    rfl
  case drained =>
    change execSeqSwapDrained s = _
    simp only [execSeqSwapDrained, swap, drained, if_true]
  case running =>
    change execSeqSwapDrained s = _
    simp only [execSeqSwapDrained, swap, running]
    rfl
  case swap =>
    refine (runCommand_later runs ?_ : execSeqSwap c s = _)
    simp only [noSwap, still, valid]
    rfl
  case status =>
    exact ⟨_, (runCommand_reports runs (if_neg (by omega)) : execSliceStatus c slice s = _), rfl⟩

/-- A frame of a PUNT ring is ready to leave (R464). -/
theorem execPuntWrite_ready {s : State} {ring : Fin 16} {c : Copy} {cs : List Copy} {f : Frame} {addrs : List (BitVec 64)}
    {readOk writeOk : Bool} (head : (queueAt s (internalQ (0x10 + ring.val))).copies = c :: cs)
    (frame : frameAt s c.fid = some f) (whole : f.whole = true)
    (shaped : shaperOpen s (internalQ (0x10 + ring.val)) = true)
    (runs : ringRuns s (puntHost s f.epoch ring.val) (144 + ring.val) = true) :
    let h := puntHost s f.epoch ring.val
    let size := 256 * 2 ^ min (regField s .ringCfg (ringNo h (144 + ring.val)) 16 4) 6
    execPuntWrite ring addrs readOk writeOk s =
      if ringUsed (ringAt s h (144 + ring.val)) < ((puntBytes f c).length + size - 1) / size then
        .next (setRing s h (144 + ring.val) { ringAt s h (144 + ring.val) with waits := (ringAt s h (144 + ring.val)).waits + 1 })
      else if readOk = false then .next (ringError s h (144 + ring.val) 3)
      else .next (puntFrame s ring.val c f addrs writeOk) := by
  simp [execPuntWrite, head, frame, whole, shaped, runs]

/-- Settles O43: the frame, the ring or the entry that is there picks the branch. -/
theorem bufferAndRings : Obligations.BufferAndRings := by
  intro s
  dsimp only
  refine ⟨fun fid f frame policed plain => ?police, fun loc party => ?release, fun loc party aligned isCell => ?lost,
    fun off => if_pos off, fun on => if_neg on, fun walking => if_pos walking, fun k c f next => ?replicate,
    fun none_ => ?idle, fun ring addrs readOk writeOk c cs f head frame whole shaped runs => ⟨fun room ok => ?punt,
      fun full => ?puntWaits⟩,
    fun host ring entry frame t ready has least most isSlice serves room => ?inject,
    fun host ring entry frame ok ready has size => ?injectBad⟩
  case police =>
    change execPolicerResult fid s = _
    simp only [execPolicerResult, frame, policed, plain]
    rfl
  case release =>
    change execCellRelease ⟨loc, .clean⟩ party s = _
    have clean : ¬(ReadOutcome.clean = .uncorrectable ∧ loc.toNat % 256 = 0 ∧ loc.toNat / 256 < cellCount) :=
      fun corrupt => nomatch corrupt.1
    simp only [execCellRelease, if_neg clean]
  case lost => exact if_pos ⟨rfl, aligned, isCell⟩
  case replicate =>
    change execReplicate s = _
    simp only [execReplicate, next]
  case idle =>
    change execReplicate s = _
    simp only [execReplicate, none_]
  case punt =>
    refine (execPuntWrite_ready head frame whole shaped runs).trans ((if_neg (Nat.not_lt.mpr room)).trans ?_)
    simp [ok]
  case puntWaits => exact (execPuntWrite_ready head frame whole shaped runs).trans (if_pos full)
  case inject =>
    change execInjFetch host ring entry frame true true s = _
    have good : ¬(leAt entry 8 2 < 60 ∨ 10236 < leAt entry 8 2 ∨ 15 < leAt entry 10 1) := by omega
    simp only [execInjFetch, ready, has, if_neg good, serves, if_neg (Nat.not_le.mpr room)]
    rfl
  case injectBad =>
    change execInjFetch host ring entry frame true ok s = _
    have bad : leAt entry 8 2 < 60 ∨ 10236 < leAt entry 8 2 ∨ 15 < leAt entry 10 1 := by omega
    simp [execInjFetch, ready, has, bad]

end Sys2Proof.Machine
end

section
/-! Stacking: the cells of a bond link, the members and the commands (R533 to R561). -/

namespace Sys2Proof.Machine

/-- Settles O44: what a cell does is its receiver's, once `cellTaken` has taken it. -/
theorem bondCells : Obligations.BondCells := by
  intro s u sub cell ok
  dsimp only
  refine ⟨fun lost c isCell => ?lost, fun taken => ⟨fun here => ?hello, fun left => ?leftHello, ?credit, ?link,
    fun may => ?seed, fun isolated format => ?noSeed, ?record, ?ack, ?relay⟩, fun bond up here => ?send,
    fun plain => ⟨?noSend, if_neg (by simp [plain])⟩, fun bond => if_pos bond, fun cells => ⟨rfl, rfl⟩⟩
  case lost =>
    simp only [List.mem_cons, List.not_mem_nil, or_false] at isCell
    rcases isCell with rfl | rfl | rfl | rfl | rfl | rfl | rfl
    · change execBondHello sub cell ok s = _
      simp only [execBondHello, lost]
    · change execCredit sub cell ok s = _
      simp only [execCredit, lost]
    · change execLink sub cell ok s = _
      simp only [execLink, lost]
    · change execSeed sub cell ok s = _
      simp only [execSeed, lost]
    · change execRecord sub cell ok s = _
      simp only [execRecord, lost]
    · change execRecordAck sub cell ok s = _
      simp only [execRecordAck, lost]
    · change execRelay sub cell ok s = _
      simp only [execRelay, lost]
  case hello =>
    change execBondHello sub cell ok s = _
    simp only [execBondHello, taken, here]
    rfl
  case leftHello =>
    change execBondHello sub cell ok s = _
    simp only [execBondHello, taken, left, if_true]
  case credit =>
    change execCredit sub cell ok s = _
    simp only [execCredit, taken]
  case link =>
    change execLink sub cell ok s = _
    simp only [execLink, taken]
  case seed =>
    change execSeed sub cell ok s = _
    have joins : ¬(u.stk.isolated && u.stk.needFormat) = true := by
      rcases may with free | formatted
      · simp [free]
      · simp [formatted]
    simp only [execSeed, taken, if_neg joins]
  case noSeed =>
    change execSeed sub cell ok s = _
    simp only [execSeed, taken, isolated, format]
    rfl
  case record =>
    change execRecord sub cell ok s = _
    simp only [execRecord, taken]
  case ack =>
    change execRecordAck sub cell ok s = _
    simp only [execRecordAck, taken]
  case relay =>
    change execRelay sub cell ok s = _
    simp only [execRelay, taken]
  case send =>
    change execBondHelloSend sub s = _
    simp only [execBondHelloSend, bond, up, here]
    rfl
  case noSend =>
    change execBondHelloSend sub s = _
    simp only [execBondHelloSend, plain]
    rfl

/-- A member that was reached and is reached no more is lost as its ALIVE input and this device's own part of the stack say
(R541, R542). -/
theorem execMemberLoss_unreachable {s : State} {dev : Fin 4} (formed : s.stk.formed = true)
    (member : bit s.stk.members dev.val = true) (other : dev.val ≠ ownDev s) (gone : reachable s dev.val = false) :
    execMemberLoss dev s =
      if bit s.stk.aliveIn dev.val then
        if survives s then
          .next (((devsOf s.stk.members).filter (fun d => d != ownDev s && !reachable s d)).foldl loseMember s)
        else .next (isolate s)
      else .next (loseMember s dev.val) := by
  simp [execMemberLoss, formed, member, other, gone]

/-- Settles O45: the inputs, the reachable links and the tries of a record decide. -/
theorem stackMembers : Obligations.StackMembers := by
  intro s dev
  dsimp only
  refine ⟨fun level => rfl, fun formed member other gone => ⟨fun dead => ?lost, fun alive majority => ?survives,
    fun alive minority => ?isolates⟩, fun stays => ?stays, fun seq w rest found few => ?resend,
    fun seq w rest found many plain => ?abandon, fun id => rfl, fun aseq => rfl⟩
  case lost =>
    refine (execMemberLoss_unreachable formed member other gone).trans (if_neg ?_)
    simp [dead]
  case survives =>
    exact (execMemberLoss_unreachable formed member other gone).trans ((if_pos alive).trans (if_pos majority))
  case isolates =>
    refine (execMemberLoss_unreachable formed member other gone).trans ((if_pos alive).trans (if_neg ?_))
    simp [minority]
  case stays =>
    change execMemberLoss dev s = _
    rcases stays with apart | near
    · simp [execMemberLoss, apart]
    · simp [execMemberLoss, near]
  case resend =>
    change execMirrorAckTimeout dev seq s = _
    simp only [execMirrorAckTimeout, found, if_pos few]
  case abandon =>
    change execMirrorAckTimeout dev seq s = _
    simp only [execMirrorAckTimeout, found, if_neg (Nat.not_le.mpr many), plain]
    rfl

/-- Settles O46: a command of the stack answers by this device's part in it and by what it names. -/
theorem stackCommands : Obligations.StackCommands := by
  intro c s a dev
  dsimp only
  refine ⟨fun runs best => ?form, fun runs other => ?noForm, fun runs quoin isDev other reached => ?join,
    fun notQuoin => ⟨fun runs => ?noJoin, fun e runs => ?noMove, fun addr runs => ?noDigest⟩, fun runs => ?leave,
    fun x y desc payload runs quoin isDev other member reached => ?relay,
    fun space addr stage len data b ok r u runs formed isDev other isSpace short inside direct member reached read => ?stage,
    fun e runs quoin isEntry isDev global src dst idle moves => ?move, fun addr runs direct quoin alone => ?digest,
    fun runs => ?status⟩
  case form =>
    refine (runCommand_answers runs ((if_neg (Classical.not_not.mpr best)).trans rfl) rfl : execStackForm c s = _)
  case noForm => exact (runCommand_fails runs (if_pos other) : execStackForm c s = _)
  case join =>
    refine (runCommand_ends runs ?_ : execStackJoin c dev s = _)
    simp [quoin, Nat.not_le.mpr isDev, other, reached]
  case noJoin =>
    refine (runCommand_fails runs (if_pos ?_) : execStackJoin c dev s = _)
    simp [notQuoin]
  case noMove =>
    refine (runCommand_fails runs (if_pos ?_) : execStackMove c e dev s = _)
    simp [notQuoin]
  case noDigest =>
    refine (runCommand_fails runs (if_pos ?_) : execStackDigest c addr s = _)
    simp [notQuoin]
  case leave => exact (runCommand_ends runs rfl : execStackLeave c s = _)
  case relay =>
    refine (runCommand_later runs ?_ : execStackRelay c dev x y desc payload true s = _)
    simp [quoin, Nat.not_le.mpr isDev, other, member, reached]
  case stage =>
    refine (runCommand_ends runs ?_ : execStackStage c dev space addr stage len data ok r s = _)
    have named : ¬(4 ≤ dev.toNat ∨ dev.toNat = ownDev (begun c s a) ∨ 3 < space.toNat ∨ 2 ^ 24 < len.toNat ∨
        2 ^ 24 < stage.toNat + len.toNat) := by omega
    simp only [formed, if_neg named, direct, member, reached, read]
    rfl
  case move =>
    refine (runCommand_later runs ?_ : execStackMove c e dev s = _)
    have named : ¬(64 ≤ e.toNat ∨ 4 ≤ dev.toNat) := by omega
    simp only [quoin, if_neg named, global, src, dst, idle, if_neg moves]
    rfl
  case digest =>
    refine (runCommand_answersAt runs ?_ direct : execStackDigest c addr s = _)
    simp [quoin, alone]
  case status => exact (runCommand_reports runs rfl : execStackStatus c s = _)

end Sys2Proof.Machine
end

section
/-! The tables: learned entries, their upkeep and their commands (R256 to R289). -/

namespace Sys2Proof.Machine

/-- Settles O47: the end of a learning is judged in order, and a sweep reads the flags of its entry. -/
theorem learnedEntries : Obligations.LearnedEntries := by
  intro s mac ten
  dsimp only
  refine ⟨fun none_ => ?unknown, fun l found still => ⟨fun written => ?written, fun open_ limit => ?limit,
    fun open_ room full => ?full, fun i open_ room place => ?placed⟩, rfl, rfl,
    fun idx => ⟨fun skips => ?skips, fun ages valid fixed_ => ⟨fun hit => ?hit, fun quiet young => ?young,
      fun quiet aged direct => ?gone, fun quiet aged told => ?told⟩⟩⟩
  case unknown =>
    change execLearnInsertDone mac ten s = _
    simp only [execLearnInsertDone, none_]
  case written =>
    change execLearnInsertDone mac ten s = _
    simp only [execLearnInsertDone, found, still, written]
    rfl
  case limit =>
    change execLearnInsertDone mac ten s = _
    simp only [execLearnInsertDone, found, still, open_, limit]
    rfl
  case full =>
    change execLearnInsertDone mac ten s = _
    simp only [execLearnInsertDone, found, still, open_, room, full]
    rfl
  case placed =>
    change execLearnInsertDone mac ten s = _
    simp only [execLearnInsertDone, found, still, open_, room, place]
    rfl
  case skips =>
    refine (if_pos ?_ : execMacSweepVisit idx s = _)
    rcases skips with off | empty | static
    · simp [off]
    · simp [empty]
    · simp [static]
  case hit =>
    change execMacSweepVisit idx s = _
    simp only [execMacSweepVisit, ages, valid, fixed_, hit]
    rfl
  case young =>
    change execMacSweepVisit idx s = _
    simp only [execMacSweepVisit, ages, valid, fixed_, quiet, young]
    rfl
  case gone =>
    change execMacSweepVisit idx s = _
    simp only [execMacSweepVisit, ages, valid, fixed_, quiet, aged, direct]
    rfl
  case told =>
    change execMacSweepVisit idx s = _
    simp only [execMacSweepVisit, ages, valid, fixed_, quiet, aged, told]
    rfl

/-- A command that answers with a status and a number completes with them (R449, R557). -/
theorem runCommand_results {c : Cmd} {op : Nat} {body : Nat → State → Effect} {s t : State} {a : Accepted}
    (runs : CmdRuns c op s a) {status result : Nat}
    (answers : body a.aseq (begun c s a) = .done { status := status, result := result } t) :
    runCommand c op body s = .next (completeCmd t (asRun c a) { status := status, result := result }) :=
  runCommand_answers runs answers rfl

/-! The repair of the associative tables (R288 to R290). -/

/-- A compare of an entry that is not being retired (R290). -/
theorem execRepointCompare_standing {s : State} {inst : BitVec 8} {k : Nat} {t : TableInfo}
    (target : targetOf inst.toNat (if inst.toNat < 0x20 then 0x10 else 0x20) = some t) (repairs : repointing s = true)
    (inside : k < t.count)
    (stands : ∀ x, (entAt s (if inst.toNat < 0x20 then 0x10 else 0x20) inst.toNat k).st ≠ .retiring x) (found : Bytes)
    (bad : Bool) :
    let kind := if inst.toNat < 0x20 then 0x10 else 0x20
    execRepointCompare inst k found bad s =
      if bad then .next (postRepoint (count s 11 inst.toNat 1 1) inst.toNat kind k 1)
      else if cut found 0 t.size = cut (entAt s kind inst.toNat k).bytes 0 t.size then .next s
      else .next (postRepoint (count s 11 inst.toNat 0 1) inst.toNat kind k 0) := by
  have goesOn : ¬(repointing s = false ∨ t.count ≤ k) := by simp [repairs, inside]
  simp only [execRepointCompare, target, if_neg goesOn]

/-- Settles O48: a move is flipped along its path, and a read of the repair is reported by its outcome. -/
theorem tableUpkeep : Obligations.TableUpkeep := by
  intro s id inst k found
  dsimp only
  refine ⟨fun m moves => ⟨fun short => ?ends, fun long => ?goesOn⟩, fun none_ => ?noMove,
    fun t target repairs inside stands => ⟨?shadowBad, fun same => ?same, fun differs => ?differs⟩,
    fun t target repairs hashed inside => ?scrub,
    fun aseq => rfl⟩
  case ends =>
    change execHashedMoveFlip id k s = _
    have last : m.path.dropLast.length ≤ 1 := by simpa using short
    simp only [execHashedMoveFlip, moves, if_pos last]
  case goesOn =>
    change execHashedMoveFlip id k s = _
    have more : ¬m.path.dropLast.length ≤ 1 := by simpa using long
    simp only [execHashedMoveFlip, moves, if_neg more]
  case noMove =>
    change execHashedMoveFlip id k s = _
    simp only [execHashedMoveFlip, none_]
  case shadowBad => exact execRepointCompare_standing target repairs inside stands found true
  case same => exact (execRepointCompare_standing target repairs inside stands found false).trans (if_pos same)
  case differs => exact (execRepointCompare_standing target repairs inside stands found false).trans (if_neg differs)
  case scrub =>
    have goesOn : ¬(repointing s = false ∨ 0x30 ≤ id.toNat ∨ t.count ≤ k) := by simp [repairs, hashed, inside]
    refine ⟨?clean, ?corrected, fun exact_ => ?lost, fun ternary => ?kept⟩
    case clean =>
      change execEmScrubRead id inst k .clean s = _
      simp only [execEmScrubRead, target, if_neg goesOn]
    case corrected =>
      change execEmScrubRead id inst k .corrected s = _
      simp only [execEmScrubRead, target, if_neg goesOn]
    case lost =>
      change execEmScrubRead id inst k .uncorrectable s = _
      simp only [execEmScrubRead, target, if_neg goesOn, if_neg (Nat.not_le.mpr exact_)]
    case kept =>
      change execEmScrubRead id inst k .uncorrectable s = _
      simp only [execEmScrubRead, target, if_neg goesOn, if_pos ternary]

/-- A write of an entry that is valid waits until the frames that may read it are gone (R256). -/
theorem updateEntry_valid {s : State} {aseq winst inst id i : Nat} {bytes : Bytes}
    (valid : isValid (entAt s id inst i) = true) :
    updateEntry s aseq winst inst id i bytes =
      .later ((retireNow s inst id i).withTbl { (retireNow s inst id i).tbl with
        waits := (retireNow s inst id i).tbl.waits ++
          [{ aseq := aseq, inst := winst, fence := s.tbl.epoch, batch := false
             ops := [{ write := true, id := id, idx := i, bytes := bytes }] }] }) :=
  if_pos valid

theorem updateEntry_free {s : State} {aseq winst inst id i : Nat} {bytes : Bytes}
    (free : isValid (entAt s id inst i) = false) :
    updateEntry s aseq winst inst id i bytes =
      .done { result := (writeValidate s inst id i bytes).tbl.epoch } (writeValidate s inst id i bytes) :=
  if_neg (by simp [free])

/-- Settles O49: a command on a table of which none waits takes the branch of its table, place and entry. -/
theorem tableCommands : Obligations.TableCommands := by
  intro c s a table idx key entry
  dsimp only
  have isPlace (t : TableInfo) (named : t.keyLen ≠ 0 ∨ idx.toNat < t.count) :
      (decide (t.keyLen = 0) && decide (t.count ≤ idx.toNat)) = false := by
    rcases named with keyed | inside
    · simp [keyed]
    · simp [inside]
  refine ⟨fun idle => ⟨fun runs unknown => ?unknown, fun t i runs target place => ⟨fun valid => ?rewrite, fun free => ?write⟩,
      fun t runs target noPlace keyed full => ?full,
      fun t i runs target named place => ⟨fun free => ?notFound, fun valid => ?delete⟩,
      fun list n runs least most => ⟨fun k d failed => ?batchFails, fun good free => ?batchWrites,
        fun good valid => ?batchWaits⟩,
      fun addr t i runs direct target place => ?read⟩,
    fun busy => ⟨fun runs => ?writeWaits, fun runs => ?deleteWaits⟩, fun addr runs direct => ?digest,
    fun sub ten runs idle => ?flush⟩
  case unknown =>
    refine (runCommand_fails runs ?_ : execTableWrite c table idx key entry s = _)
    simp only [idle, unknown]
    rfl
  case rewrite =>
    refine (runCommand_later runs ?_ : execTableWrite c table idx key entry s = _)
    simp only [idle, target, place, updateEntry_valid valid]
    rfl
  case write =>
    refine (runCommand_results runs ?_ : execTableWrite c table idx key entry s = _)
    simp only [idle, target, place, updateEntry_free free]
    rfl
  case full =>
    refine (runCommand_results runs ?_ : execTableWrite c table idx key entry s = _)
    simp only [idle, target, noPlace, keyed, full]
    rfl
  case notFound =>
    refine (runCommand_results runs ?_ : execTableDelete c table idx key s = _)
    simp only [idle, target, isPlace t named, place, free]
    rfl
  case delete =>
    refine (runCommand_later runs ?_ : execTableDelete c table idx key s = _)
    simp only [idle, target, isPlace t named, place, valid]
    rfl
  case batchFails =>
    refine (runCommand_results runs ?_ : execTableBatch c list n s = _)
    have counted : ¬(n.toNat < 1 ∨ 4096 < n.toNat) := by omega
    simp only [idle, if_neg counted, failed]
    rfl
  case batchWrites =>
    refine (runCommand_results runs ?_ : execTableBatch c list n s = _)
    have counted : ¬(n.toNat < 1 ∨ 4096 < n.toNat) := by omega
    simp only [idle, if_neg counted, good, free]
    rfl
  case batchWaits =>
    refine (runCommand_later runs ?_ : execTableBatch c list n s = _)
    have counted : ¬(n.toNat < 1 ∨ 4096 < n.toNat) := by omega
    simp only [idle, if_neg counted, good, valid]
    rfl
  case read =>
    refine (runCommand_answersAt runs ?_ direct : execTableRead c table idx key addr s = _)
    simp only [idle, target, place]
    rfl
  case writeWaits => exact (runCommand_wait runs (if_pos busy) : execTableWrite c table idx key entry s = _)
  case deleteWaits => exact (runCommand_wait runs (if_pos busy) : execTableDelete c table idx key s = _)
  case digest => exact (runCommand_answersAt runs rfl direct : execDigestRead c addr s = _)
  case flush =>
    refine (runCommand_results runs ?_ : execMacFlush c sub ten s = _)
    simp only [idle]
    rfl

end Sys2Proof.Machine
end

section
/-! Courses of a pier (R158, R573 to R577), and the external memory (R499 to R512). -/

namespace Sys2Proof.Machine

theorem regField_congr {s t : State} (h : t.regs = s.regs) (r : Reg) (i lo w : Nat) : regField t r i lo w = regField s r i lo w := by
  rw [regField, regVal_congr (congrArg Regs.applied h), regField]

@[simp] theorem regField_postEvent (s : State) (grp num org : Nat) (body : Bytes) (r : Reg) (i lo w : Nat) :
    regField (postEvent s grp num org body) r i lo w = regField s r i lo w :=
  regField_congr (postEvent_regs ..) r i lo w

@[simp] theorem regField_setCourse (s : State) (p k : Nat) (x : Course) (r : Reg) (i lo w : Nat) :
    regField (setCourse s p k x) r i lo w = regField s r i lo w := rfl

@[simp] theorem regField_count (s : State) (kind num idx n : Nat) (r : Reg) (i lo w : Nat) :
    regField (count s kind num idx n) r i lo w = regField s r i lo w := rfl

/-- Settles O50: a window counts its run, and the rest reads the course in rebuild and how far its copy has come. -/
theorem courses : Obligations.Courses := by
  intro s pier
  dsimp only
  have number : (BitVec.ofNat 8 pier.val).toNat = pier.val := by
    have := pier.isLt
    simp only [BitVec.toNat_ofNat]
    omega
  refine ⟨fun course n => ⟨fun short => ?window, fun third manual => ?reported, fun third auto standing still => ?retires⟩,
    fun none_ => ⟨fun bank off bad => ?_, ?_, ?_⟩, fun k rebuilding => ⟨fun bank off bad fresh awake => ?granule,
      fun part => ⟨?rescanPart, ?completePart⟩, fun whole clean quiet => ?complete, fun whole some_ => ?rescan⟩,
    fun c a course u runs isCourse still standing => ⟨fun begins => ?begins, fun refused => ?refused⟩⟩
  case window => exact if_neg short
  case reported =>
    refine (if_pos third).trans (congrArg Host.Outcome.next (if_neg ?_))
    simp [manual]
  case retires =>
    refine (if_pos third).trans (congrArg Host.Outcome.next (if_pos ?_))
    simp [auto, standing, still]
  · change execRebuildGranuleCopy pier bank off bad s = _
    simp only [execRebuildGranuleCopy, none_]
  · change execBucketRescan pier s = _
    simp only [execBucketRescan, none_]
  · change execRebuildComplete pier s = _
    simp only [execRebuildComplete, none_]
  case granule =>
    change execRebuildGranuleCopy pier bank off bad s = _
    have goesOn : (decide (65536 * bank.val + off.toNat < (courseOf s pier.val k).copied) ||
        !isAwake s .course (7 * pier.val + 6)) = false := by
      simp [awake, fresh]
    simp only [execRebuildGranuleCopy, rebuilding, goesOn]
    cases bad <;> rfl
  case rescanPart =>
    change execBucketRescan pier s = _
    simp only [execBucketRescan, rebuilding, decide_eq_true part]
    rfl
  case completePart =>
    change execRebuildComplete pier s = _
    simp only [execRebuildComplete, rebuilding, decide_eq_true part]
    rfl
  case complete =>
    change execRebuildComplete pier s = _
    simp only [execRebuildComplete, rebuilding, decide_eq_false (Nat.not_lt.mpr whole), clean, quiet]
    rfl
  case rescan =>
    change execBucketRescan pier s = _
    have lost : (s.fs.lost.filter (fun b => bucketPier s b == pier.val)).isEmpty = false := by simpa using some_
    simp only [execBucketRescan, rebuilding, decide_eq_false (Nat.not_lt.mpr whole), lost]
    rfl
  case begins =>
    refine (runCommand_later runs ?_ : execCourseRetire c (BitVec.ofNat 8 pier.val) course s = _)
    have named : ¬(4 ≤ pier.val ∨ 6 ≤ course.toNat) := by omega
    simp only [number, if_neg named, still, standing, begins]
    rfl
  case refused =>
    refine (runCommand_fails runs ?_ : execCourseRetire c (BitVec.ofNat 8 pier.val) course s = _)
    have named : ¬(4 ≤ pier.val ∨ 6 ≤ course.toNat) := by omega
    simp only [number, if_neg named, still, standing, refused]
    rfl

/-! The channels of the external memory (R499 to R508). -/

section
variable {s : State} {ch : Fin 32} (training : (ddrCh s ch.val).st = .retraining)
include training

/-- A step of a channel that is being trained begins no training (R503). -/
theorem execRetrainStep_retraining (ok : Bool) :
    execRetrainStep ch ok s =
      if ok then
        if (ddrCh s ch.val).step = 15 then
          match (ddrCh s ch.val).trainAseq with
          | some a => .next (finish (setDdrCh s ch.val { ddrCh s ch.val with
              st := .inService, step := 0, failed := 0, trainedAt := timeNs s, trainAseq := none }) a {})
          | none => .next (setDdrCh s ch.val { ddrCh s ch.val with
              st := .inService, step := 0, failed := 0, trainedAt := timeNs s, trainAseq := none })
        else .next (setDdrCh s ch.val { ddrCh s ch.val with step := (ddrCh s ch.val).step + 1, failed := 0 })
      else if (ddrCh s ch.val).failed = 1 then
        .next (channelFault (abandonTraining (setDdrCh s ch.val { ddrCh s ch.val with st := .inService }) ch.val) ch.val 1)
      else .next (setDdrCh s ch.val { ddrCh s ch.val with failed := 1 }) := by
  have begins : ¬((ddrCh s ch.val).st = .inService ∧
      ((ddrCh s ch.val).due = true ∨ regField s .ddrTrainCfg 0 0 16 ≠ 0)) := by simp [training]
  have goesOn : ¬(ddrCh s ch.val).st ≠ .retraining := Classical.not_not.mpr training
  simp only [execRetrainStep, if_neg begins, if_neg goesOn] <;> rfl

end

/-- Settles O51: the state of the channel, its step and the granule that comes next pick the branch. -/
theorem ddrEvents : Obligations.DdrEvents := by
  intro s ch
  dsimp only
  refine ⟨(apply_ite Host.Outcome.next _ _ _).symm, rfl, fun training part => ?step, fun training last => ?trained,
    fun training first => ?failsOnce, fun training again => ?fails, fun idle out ok => ?idle, fun sub bank => ⟨rfl, rfl⟩,
    fun stays r => if_pos stays, fun moving whole r => ?finished, fun moving r more => ?copies⟩
  case step =>
    refine (execRetrainStep_retraining training true).trans ?_
    simp [Nat.ne_of_lt part]
  case trained =>
    refine (execRetrainStep_retraining training true).trans ?_
    simp only [last, if_true]
    cases (ddrCh s ch.val).trainAseq <;> rfl
  case failsOnce =>
    refine (execRetrainStep_retraining training false).trans ?_
    simp [first]
  case fails =>
    refine (execRetrainStep_retraining training false).trans ?_
    simp [again]
  case idle =>
    change execRetrainStep ch ok s = _
    simp [execRetrainStep, idle, out]
  case finished => exact (if_neg (Classical.not_not.mpr moving)).trans (if_pos whole)
  case copies => exact (if_neg (Classical.not_not.mpr moving)).trans (if_neg (Nat.not_le.mpr more))

/-- Settles O52: a command of the memory or of the counters answers by its operands. -/
theorem memoryAndCounterCommands : Obligations.MemoryAndCounterCommands := by
  intro c s a
  dsimp only
  refine ⟨fun ch isCh => ⟨fun u vs runs sampled => ?status, fun runs serves alone free => ?retrain,
      fun runs out idle => ?noRetrain, fun runs may => ?retire⟩,
    fun ch beyond => ⟨fun runs => ?badStatus, fun runs => ?badRetrain, fun runs => ?badRetire⟩,
    fun kind num clear addr runs direct => ?read, fun list n clear addr runs direct some_ most known => ?scan,
    fun mask action start runs named good => ?control, rfl, fun addr runs direct => ?pmcs⟩
  case status =>
    refine (runCommand_reports runs ((if_neg (Nat.not_le.mpr isCh)).trans ?_) : execDdrStatus c ch s = _)
    simp only [sampled]
  case retrain =>
    refine (runCommand_later runs ((if_neg (Nat.not_le.mpr isCh)).trans ?_) : execDdrRetrain c ch s = _)
    simp [serves, alone, free]
  case noRetrain =>
    exact (runCommand_fails runs ((if_neg (Nat.not_le.mpr isCh)).trans (if_pos ⟨out, idle⟩)) : execDdrRetrain c ch s = _)
  case retire =>
    refine (runCommand_later runs ((if_neg (Nat.not_le.mpr isCh)).trans ?_) : execDdrRetire c ch s = _)
    simp only [may]
  case badStatus => exact (runCommand_fails runs (if_pos beyond) : execDdrStatus c ch s = _)
  case badRetrain => exact (runCommand_fails runs (if_pos beyond) : execDdrRetrain c ch s = _)
  case badRetire => exact (runCommand_fails runs (if_pos beyond) : execDdrRetire c ch s = _)
  case read =>
    change execCounterRead c kind num clear addr s = _
    cases vals : groupVals (begun c s a) kind.toNat num.toNat with
    | none =>
      refine runCommand_fails runs ?_
      simp only [vals]
    | some vs =>
      refine runCommand_answersAt runs ?_ direct
      simp only [vals]
  case scan =>
    refine (runCommand_answersAt runs (if_neg ?_) direct : execCounterScan c list n clear addr s = _)
    simp only [not_or]
    exact ⟨some_, Nat.not_lt.mpr most, by simp [known]⟩
  case control =>
    refine (runCommand_ends runs (if_neg ?_) : execPmcControl c mask action start s = _)
    rintro (beyond | ⟨starts, bad⟩)
    · omega
    · rcases good with other | good
      · exact other starts
      · exact Bool.false_ne_true (good.symm.trans bad)
  case pmcs =>
    refine (runCommand_answersAt runs ?_ direct : execPmcRead c addr s = _)
    generalize pmcEntries (begun c s a) (List.range 64) = read
    rfl

end Sys2Proof.Machine
end

section
/-! Network time (R407 to R431), and power (R519 to R531). -/

namespace Sys2Proof.Machine

/-- Settles O53: a command of a time domain answers by its operands, and an edge by the state of its input. -/
theorem time : Obligations.Time := by
  intro c s a
  dsimp only
  refine ⟨fun dom off runs isDom => ?offset, fun dom runs isDom => ?acquire,
    ⟨fun runs locked near => ?switch, fun runs unlocked => ?noSwitch, fun runs far => ?tooFar⟩, fun addr runs direct => ?status,
    fun out role mode secs ns period width pol runs isOut isRole isMode isPol isNs ok => ?pulse,
    fun inp edges role on runs isInp isEdges isRole isOn => ?capture, fun dom => ⟨fun locked => ?heldLocked, fun locking => ?heldLocking⟩,
    fun out => rfl, fun on => if_neg on, fun inp falling enabled both => ⟨fun t last soon => ?bounce, fun first => ?taken⟩⟩
  case offset => exact (runCommand_reports runs (if_neg (Nat.not_le.mpr isDom)) : execTimeOffset c dom off s = _)
  case acquire => exact (runCommand_ends runs (if_neg (Nat.not_le.mpr isDom)) : execTimeAcquire c dom s = _)
  case switch => exact (runCommand_ends runs (if_pos ⟨locked, near⟩) : execTimeSwitch c s = _)
  case noSwitch => exact (runCommand_fails runs (if_neg (fun may => unlocked may.1)) : execTimeSwitch c s = _)
  case tooFar => exact (runCommand_fails runs (if_neg (fun may => absurd may.2 (Int.not_le.mpr far))) : execTimeSwitch c s = _)
  case status => exact (runCommand_answersAt runs rfl direct : execTimeStatus c addr s = _)
  case pulse =>
    refine (runCommand_ends runs (if_neg ?_) : execTimePulse c out role mode secs ns period width pol s = _)
    simp only [not_or, ok]
    exact ⟨Nat.not_le.mpr isOut, Nat.not_le.mpr isRole, Nat.not_le.mpr isMode, Nat.not_le.mpr isPol, Nat.not_le.mpr isNs,
      nofun⟩
  case capture =>
    refine (runCommand_ends runs (if_neg ?_) : execTimeCapture c inp edges role on s = _)
    omega
  case heldLocked =>
    change execHoldoverTimeout dom s = _
    simp only [execHoldoverTimeout, locked]
  case heldLocking =>
    change execHoldoverTimeout dom s = _
    simp only [execHoldoverTimeout, locking]
  case bounce =>
    change execCaptureEdge inp falling s = _
    simp [execCaptureEdge, enabled, both, last, soon]
  case taken =>
    change execCaptureEdge inp falling s = _
    simp [execCaptureEdge, enabled, both, first]

/-! A block that wakes, and POWER_WAKE of one (R519 to R526). -/

section
variable {s : State} {k : BlockKind} {n : Nat} (waking : (blkAt s k n).st = .waking)
include waking

theorem execBlockReady_slice (slice : k = .slice) : execBlockReady k n s = .next (sliceReady (blockReady s k n) n) := by
  subst slice
  simp [execBlockReady, waking]

theorem execBlockReady_other (notSlice : k ≠ .slice) (notEngine : k ≠ .engine) :
    execBlockReady k n s = .next (blockReady s k n) := by
  cases k
  case slice => exact absurd rfl notSlice
  case engine => exact absurd rfl notEngine
  all_goals simp [execBlockReady, waking]

end

section
variable {c : Cmd} {s : State} {a : Accepted} {kind : BitVec 8} {num : BitVec 16} {k : BlockKind}
  (runs : CmdRuns c 0x0D02 s a) (named : namedBlock kind num = some k)
  (asleep : (blkAt (begun c s a) k num.toNat).st ≠ .awake)
include runs named asleep

/-- A sleeping block that cannot be asked to wake answers ERROR (R526). -/
theorem execPowerWake_unaskable (none_ : askable (begun c s a) k [num.toNat] = []) :
    execPowerWake c kind num s = .next (completeCmd (begun c s a) (asRun c a) (err 5)) := by
  refine runCommand_fails runs ?_
  simp only [named, none_]
  cases st : (blkAt (begun c s a) k num.toNat).st
  case awake => exact absurd st asleep
  all_goals rfl

/-- A block that sleeps is asked to wake, and the command waits for it (R526). -/
theorem execPowerWake_asks (present : (blkAt (begun c s a) k num.toNat).st ≠ .gone)
    (some_ : askable (begun c s a) k [num.toNat] ≠ []) :
    execPowerWake c kind num s =
      (let u := wakeRequest (begun c s a) k [num.toNat] false
       .next (setBlk u k num.toNat { blkAt u k num.toNat with wakers := (blkAt u k num.toNat).wakers ++ [a.aseq] })) := by
  refine runCommand_later runs ?_
  have asks : (askable (begun c s a) k [num.toNat]).isEmpty = false := by simpa using some_
  simp only [named, asks]
  cases st : (blkAt (begun c s a) k num.toNat).st
  case awake => exact absurd st asleep
  case gone => exact absurd st present
  all_goals rfl

end

/-- Settles O54: the budget and the state of the block decide. -/
theorem wakingAndSleep : Obligations.WakingAndSleep := by
  intro s k n
  dsimp only
  refine ⟨fun nums sub => rfl, fun r first => ⟨fun room => ?grant, fun full => ?noGrant⟩, fun x xs grants => ?credit,
    fun other => ⟨if_pos other, if_pos other⟩, fun waking slice => execBlockReady_slice waking slice,
    fun waking notSlice notEngine => execBlockReady_other waking notSlice notEngine, fun waking early => ?late,
    fun waking late => ?fails, fun power inside => ⟨fun may idle => ?sleeps, fun busy => ?busy⟩,
    fun temps rails bad cool => ?health, fun c a kind num named => ⟨fun runs => ?status, fun runs awake => ?isAwake,
      fun runs gone => ?gone, fun runs asleep none_ => execPowerWake_unaskable runs named asleep none_,
      fun runs asleep present some_ => execPowerWake_asks runs named asleep present some_, fun hold runs isHold => ?hold,
      fun addr runs direct => ?healthStatus, fun runs => ?wakeStatus⟩⟩
  case grant =>
    change execWakeGrant s = _
    simp only [execWakeGrant, first, if_pos room]
  case noGrant =>
    change execWakeGrant s = _
    simp only [execWakeGrant, first, if_neg (Nat.not_le.mpr full)]
  case credit =>
    change execCreditReturn s = _
    simp only [execCreditReturn, grants]
  case late =>
    refine (if_neg (Classical.not_not.mpr waking)).trans (if_neg ?_)
    simp [early]
  case fails => exact (if_neg (Classical.not_not.mpr waking)).trans (if_pos late)
  case sleeps =>
    refine (if_neg (Nat.not_le.mpr inside)).trans (if_pos ?_)
    rw [may, idle]
    rfl
  case busy =>
    refine (if_neg (Nat.not_le.mpr inside)).trans (if_neg ?_)
    simp [busy]
  case health =>
    refine (if_neg ?_ : execHealthSample temps rails bad s = _)
    have noTrip : temps.any (fun t => decide (115 ≤ t)) = false := by
      simpa using cool
    simp [noTrip]
  case status =>
    refine (runCommand_reports runs ?_ : execPowerStatus c kind num s = _)
    simp only [named]
  case isAwake =>
    refine (runCommand_ends runs ?_ : execPowerWake c kind num s = _)
    simp only [named, awake]
  case gone =>
    refine (runCommand_fails runs ?_ : execPowerWake c kind num s = _)
    simp only [named, gone]
  case hold =>
    refine (runCommand_ends runs ?_ : execPowerHold c kind num hold s = _)
    simp only [named, if_neg (Nat.not_le.mpr isHold)]
  case healthStatus => exact (runCommand_answersAt runs rfl direct : execHealthStatus c addr s = _)
  case wakeStatus => exact (runCommand_reports runs rfl : execWakeStatus c s = _)

end Sys2Proof.Machine
end

section
/-! The fault machinery (R569 to R588). -/

namespace Sys2Proof.Machine

/-- The lane of no subport ends its recalibration at once (R572). -/
theorem execRecalibrationDone_spare {s : State} {lane : LaneNo} {r : Recal} {rest : List Recal}
    (found : takeFirst (fun (r : Recal) => r.port * 8 + r.lane == lane.val) s.ft.recals = some (r, rest))
    (spare : laneSub s lane.val = none) (pass : Bool) :
    execRecalibrationDone lane pass s =
      (let u := s.withFt { s.ft with recals := rest }
       let w := if r.path = 2 ∧ pass = true then restoreLane u lane.val else sleepLanes u [lane.val]
       .next (finish (postEvent w 0x0F 8 (laneOrigin w lane.val) (le 1 (flag (!pass)) ++ le 1 r.path)) r.aseq
        { result := flag (!pass) })) := by
  have noSub : laneSub (s.withFt { s.ft with recals := rest }) lane.val = none := spare
  simp [execRecalibrationDone, found, noSub]

/-- Settles O55: the work that ends is the one the state names. -/
theorem faultEvents : Obligations.FaultEvents := by
  intro s
  dsimp only
  refine ⟨fun m switch begun_ judged => ?ends, fun m switch waits => ?waits, fun none_ => ?noSwitch,
    fun n aseq test => ⟨?failed, fun spare => ?home, fun own => ?returned⟩,
    fun lane pass r rest found spare => ?recal, fun t aseq reclaim => ?reclaim⟩
  case ends =>
    change execSliceSwitchAdmit s = _
    simp only [execSliceSwitchAdmit, switch, begun_, judged]
    rfl
  case waits =>
    change execSliceSwitchAdmit s = _
    rcases waits with early | holds
    · simp [execSliceSwitchAdmit, switch, early]
    · simp [execSliceSwitchAdmit, switch, holds]
  case noSwitch =>
    change execSliceSwitchAdmit s = _
    simp only [execSliceSwitchAdmit, none_]
  case failed =>
    change execSliceSelfTestDone false s = _
    simp only [execSliceSelfTestDone, test]
    rfl
  case home =>
    change execSliceSelfTestDone true s = _
    simp only [execSliceSelfTestDone, test, if_true, if_pos spare]
  case returned =>
    change execSliceSelfTestDone true s = _
    simp only [execSliceSelfTestDone, test, if_true, if_neg own]
  case recal =>
    refine (execRecalibrationDone_spare found spare pass).trans ?_
    cases pass <;> rfl
  case reclaim =>
    change execReclaimWalkEnd s = _
    simp only [execReclaimWalkEnd, reclaim]

/-- Settles O56: a command on a unit in the state it needs takes the branch of its operands. -/
theorem faultCommands : Obligations.FaultCommands := by
  intro c s a
  dsimp only
  refine ⟨fun addr runs direct => ?status, fun slice runs isSlice kept noSwitch noTest noWait => ⟨fun taken => ?noSpare,
      fun free alone => ?joins, fun k free served => ?plans, fun away => ?tests, fun home => ?noTest⟩,
    fun cl runs isCluster unserved works noRemap unused => ?remap,
    fun port lane force runs isPort isLane => ⟨fun busy => ?recalWaits, fun idle => ⟨fun spare => ?recalSpare,
      fun n inUse wide => ⟨?recalRefused, fun forced => ?recalForced⟩⟩⟩,
    fun port i runs isPort staged => ?apply, fun port runs isPort none_ => ?noImage,
    fun tag runs => ⟨fun unknown => ?badTag, fun quiet free => ?reclaims, fun busy free => ?tagBusy⟩⟩
  case status => exact (runCommand_answersAt runs rfl direct : execFaultStatus c addr s = _)
  case noSpare =>
    refine (runCommand_fails runs ?_ : execSliceSwitch c slice 0 s = _)
    simp [Nat.not_le.mpr isSlice, kept, noSwitch, noTest, noWait, taken]
  case joins =>
    refine (runCommand_later runs ?_ : execSliceSwitch c slice 0 s = _)
    simp [Nat.not_le.mpr isSlice, kept, noSwitch, noTest, noWait, free, alone]
  case plans =>
    refine (runCommand_later runs ?_ : execSliceSwitch c slice 0 s = _)
    simp [Nat.not_le.mpr isSlice, kept, noSwitch, noTest, noWait, free, served]
  case tests =>
    refine (runCommand_later runs ?_ : execSliceSwitch c slice 1 s = _)
    simp [Nat.not_le.mpr isSlice, kept, noSwitch, noTest, noWait, away]
  case noTest =>
    refine (runCommand_fails runs ?_ : execSliceSwitch c slice 1 s = _)
    simp [Nat.not_le.mpr isSlice, kept, noSwitch, noTest, noWait, home]
  case remap =>
    refine (runCommand_later runs ((if_neg (Nat.not_le.mpr isCluster)).trans ?_) : execClusterRemap c cl s = _)
    simp only [unserved, works, noRemap, unused]
    rfl
  case recalWaits =>
    refine (runCommand_wait runs ((if_neg ?_).trans (if_pos busy)) : execLaneRecal c port lane force s = _)
    omega
  case recalSpare =>
    refine (runCommand_later runs ((if_neg ?_).trans ?_) : execLaneRecal c port lane force s = _)
    · omega
    · simp only [idle, spare]
      rfl
  case recalRefused =>
    refine (runCommand_fails runs ((if_neg ?_).trans ?_) : execLaneRecal c port lane 0 s = _)
    · omega
    · simp only [idle, inUse, wide]
      rfl
  case recalForced =>
    refine (runCommand_later runs ((if_neg ?_).trans ?_) : execLaneRecal c port lane force s = _)
    · omega
    · simp only [idle, inUse, wide, if_neg forced]
      rfl
  case apply =>
    refine (runCommand_ends runs ((if_neg (Nat.not_le.mpr isPort)).trans ?_) : execSerdesApply c port s = _)
    simp only [staged]
  case noImage =>
    refine (runCommand_fails runs ((if_neg (Nat.not_le.mpr isPort)).trans ?_) : execSerdesApply c port s = _)
    simp only [none_]
  case badTag =>
    refine (runCommand_fails runs ?_ : execCellReclaim c tag s = _)
    simp only [unknown]
  case reclaims =>
    refine (runCommand_later runs ?_ : execCellReclaim c tag s = _)
    simp only [quiet, free]
    rfl
  case tagBusy =>
    refine (runCommand_fails runs ?_ : execCellReclaim c tag s = _)
    simp only [busy, free]
    rfl

end Sys2Proof.Machine
end

section
/-! Images, identity and attestation (R591 to R606). -/

namespace Sys2Proof.Machine

/-! The first bytes of a block, and those that follow. -/

theorem cut_append {n : Nat} {x : Bytes} (size : x.length = n) (y : Bytes) : cut (x ++ y) 0 n = x := by
  subst size
  simp [cut]

theorem cut_append_skip {n m : Nat} {x y : Bytes} (skipped : x.length = m) (size : y.length = n) (z : Bytes) :
    cut (x ++ (y ++ z)) m n = y := by
  subst skipped size
  simp [cut]

theorem infoBytes_length (i : ImgInfo) : (infoBytes (some i)).length = 56 := by
  simp [infoBytes]

/-- A restart of the footing on an image of a slot (R598). -/
theorem execFootingRestartReady_slot {s : State} {aseq slot : Nat} {i : ImgInfo}
    (restart : s.img.restart = some (aseq, i, slot)) (flash : slot < 2) :
    execFootingRestartReady s = .next (finish (showKeyStatus (imageActivated (s.withImg { s.img with
      restart := none, running := i, pushed := false, runSlot := slot }) slot i)) aseq {}) := by
  have notPushed : slot ≠ 2 := Nat.ne_of_lt flash
  have notTwo : (slot == 2) = false := beq_eq_false_iff_ne.mpr notPushed
  simp only [execFootingRestartReady, restart, notTwo, if_neg notPushed]

/-- Settles O57: an image command hands its image to the check, and the ends of the work name what they end. -/
theorem images : Obligations.Images := by
  intro c s a image takes
  dsimp only
  refine ⟨fun runs noSwap checks => ?seqLoad, fun runs swap => ?noSeqLoad,
    fun en runs named mapped => ⟨fun drained checks => ?engLoad, fun serves => ?noEngLoad⟩,
    fun runs checks => (runCommand_later runs checks : execSerdesLoad c image s = _),
    fun runs checks => (runCommand_later runs checks : execFwFlash c image s = _), fun runs checking => ?activateWaits,
    fun runs checked noFlash => ⟨fun none_ => ?noActivate, fun i slot image => ?activate⟩,
    fun aseq i slot restart => ⟨execFootingRestartReady_slot restart, ?fallback⟩, fun nonce addr runs noQuote => ?quote,
    fun q quote running => ?signed, fun first n addr runs direct least most => ?log, fun addr runs direct => ?identity,
    fun addr runs direct => ?status, fun aseq slot flashing ok => ?flashed⟩
  case seqLoad =>
    refine (runCommand_later runs ?_ : execSeqLoad c image s = _)
    simp only [noSwap, checks]
    rfl
  case noSeqLoad => exact (runCommand_fails runs (if_pos (Option.isSome_iff_ne_none.mpr swap)) : execSeqLoad c image s = _)
  case engLoad =>
    refine (runCommand_later runs ((onEngine_eq _ named mapped).trans ?_) : execEngLoad c en image s = _)
    rw [if_pos drained, checks]
  case noEngLoad =>
    refine (runCommand_fails runs ((onEngine_eq _ named mapped).trans (if_neg ?_)) : execEngLoad c en image s = _)
    simp [serves]
  case activateWaits =>
    refine (runCommand_wait runs (if_pos ?_) : execFwActivate c s = _)
    simp [checking]
  case noActivate =>
    refine (runCommand_fails runs ?_ : execFwActivate c s = _)
    simp [checked, noFlash, none_]
  case activate =>
    refine (runCommand_later runs ?_ : execFwActivate c s = _)
    simp [checked, noFlash, image]
  case fallback =>
    change execFootingFallback s = _
    simp only [execFootingFallback, restart]
  case quote =>
    refine (runCommand_later runs (if_neg ?_) : execAttestQuote c nonce addr s = _)
    simp [noQuote]
  case signed =>
    change execQuoteSigned s = _
    simp only [execQuoteSigned, quote, running]
    rfl
  case log =>
    refine (runCommand_answersAt runs ((if_neg ?_).trans ?_) direct : execLogRead c first n addr s = _)
    · omega
    · simp
  case identity => exact (runCommand_answersAt runs rfl direct : execIdRead c addr s = _)
  case status =>
    refine ⟨_, ?_, (runCommand_answersAt runs rfl direct : execImgStatus c addr s = _)⟩
    simp only [List.append_assoc]
    exact cut_append (infoBytes_length _) _
  case flashed =>
    change execFlashWriteComplete ok s = _
    simp only [execFlashWriteComplete, flashing]

end Sys2Proof.Machine
end

section
/-! The commands on the flow store, and those that read it and its accounts (R152, R203, R209, R245, R254, R618). -/

namespace Sys2Proof.Machine

/-- POLICY_WRITE of an entry inside its table and the region writes it at once, or when the frames that may read the old one
are gone (R225, R253, R256). -/
theorem execPolicyWrite_inRegion {c : Cmd} {s : State} {a : Accepted} {table : BitVec 16} {idx : BitVec 32} {data : Bytes}
    {t : TableInfo} (runs : CmdRuns c 0x0604 s a)
    (idle : (begun c s a).tbl.waits.any (fun w => w.inst == 0x30) = false) (least : 0x30 ≤ table.toNat)
    (most : table.toNat ≤ 0x33) (info : tableInfo table.toNat = some t) (inTable : idx.toNat < t.count)
    (inRegion : policyOffset table.toNat + (idx.toNat + 1) * t.size ≤ (policyRegion (begun c s a)).2) :
    let s0 := begun c s a
    let bytes := cut data 0 t.size
    let u := retireNow s0 0 table.toNat idx.toNat
    let w : TableWait := { aseq := a.aseq, inst := 0x30, fence := s0.tbl.epoch, batch := false
                           ops := [{ write := true, id := table.toNat, idx := idx.toNat, bytes := bytes }] }
    (isValid (entAt s0 table.toNat 0 idx.toNat) = false → execPolicyWrite c table idx data s =
      .next (completeCmd (writeValidate s0 0 table.toNat idx.toNat bytes) (asRun c a) {})) ∧
    (isValid (entAt s0 table.toNat 0 idx.toNat) = true →
      execPolicyWrite c table idx data s = .next (u.withTbl { u.tbl with waits := u.tbl.waits ++ [w] })) := by
  have named : ¬(table.toNat < 0x30 ∨ 0x33 < table.toNat) := by omega
  have within : ¬(t.count ≤ idx.toNat ∨
      (policyRegion (begun c s a)).2 < policyOffset table.toNat + (idx.toNat + 1) * t.size) := by omega
  refine ⟨fun free => ?now, fun valid => ?later⟩
  case now =>
    refine (runCommand_ends runs ?_ : execPolicyWrite c table idx data s = _)
    simp only [idle, Bool.false_eq_true, if_false, if_neg named, info, if_neg within, updateEntry_free free]
  case later =>
    refine (runCommand_later runs ?_ : execPolicyWrite c table idx data s = _)
    simp only [idle, Bool.false_eq_true, if_false, if_neg named, info, if_neg within, updateEntry_valid valid]

/-- Settles O58: each command takes the branch of the place in which its record, its entry or its tenant stands. -/
theorem flowCommands : Obligations.FlowCommands := by
  refine ⟨fun c s a key => ?_, fun c s a key ten addr => ?_⟩
  · dsimp only
    refine ⟨fun runs idle => ⟨fun fits => ?format, fun fails => ?noFormat⟩, fun x formatting => ?formatted,
      fun n noPromotion noDemotion hot => ⟨fun runs pinned => ?demotePinned, fun runs free onlyA size pend taking => ?demote⟩,
      fun runs moving => ?demoteMoving, fun record runs => (runCommand_later runs rfl : execFlowInsert c record s = _),
      fun runs => ⟨fun target => ?missing, fun target => ?busy, fun target => ?promoted, fun n target => ?hot,
        fun k target => ?cold⟩,
      fun ten runs => ⟨fun none_ => ?purgeNone, fun some_ => ?purge⟩,
      fun table idx data t runs idle least most info inTable inRegion =>
        execPolicyWrite_inRegion runs idle least most info inTable inRegion,
      fun n hot runs => ⟨fun fold => ?exportWaits, fun noFold => ?exportHot⟩, fun k noHot cold runs => ?exportCold,
      fun noHot noCold runs => ?exportNone⟩
    case format =>
      refine (runCommand_later runs ?_ : execFsFormat c s = _)
      simp [idle, fits]
    case noFormat =>
      refine (runCommand_fails runs ?_ : execFsFormat c s = _)
      simp [idle, fails]
    case formatted =>
      change execFsFormatComplete s = _
      simp only [execFsFormatComplete, formatting]
    case demotePinned =>
      refine (runCommand_fails runs ?_ : execFlowDemote c key s = _)
      simp [noPromotion, noDemotion, hot, pinned]
    case demote =>
      refine (runCommand_later runs ?_ : execFlowDemote c key s = _)
      simp [noPromotion, noDemotion, hot, free, onlyA, size, pend, taking]
    case demoteMoving =>
      refine (runCommand_results runs (if_pos ?_) : execFlowDemote c key s = _)
      simpa [Option.isSome_iff_ne_none] using moving
    case missing =>
      refine (runCommand_results runs ?_ : execFlowDelete c key s = _)
      rw [target]
    case busy =>
      refine (runCommand_results runs ?_ : execFlowDelete c key s = _)
      rw [target]
    case promoted =>
      refine (runCommand_wait runs ?_ : execFlowDelete c key s = _)
      rw [target]
    case hot =>
      refine (runCommand_later runs ?_ : execFlowDelete c key s = _)
      rw [target]
    case cold =>
      refine (runCommand_later runs ?_ : execFlowDelete c key s = _)
      rw [target]
    case purgeNone =>
      refine (runCommand_ends runs ?_ : execTenantPurge c ten s = _)
      rw [none_]
    case purge =>
      refine (runCommand_later runs ?_ : execTenantPurge c ten s = _)
      generalize purgeKeys (begun c s a) ten.toNat = keys at some_
      cases keys with
      | nil => exact absurd rfl some_
      | cons k ks => rfl
    case exportWaits =>
      refine (runCommand_wait runs ?_ : execFlowExport c key s = _)
      simp [hot, fold]
    case exportHot =>
      refine (runCommand_ends runs ?_ : execFlowExport c key s = _)
      simp [hot, noFold]
    case exportCold =>
      refine (runCommand_ends runs ?_ : execFlowExport c key s = _)
      simp [noHot, cold]
    case exportNone =>
      refine (runCommand_results runs ?_ : execFlowExport c key s = _)
      simp [noHot, noCold]
  · dsimp only
    refine ⟨fun n runs direct hot noFold => ?readHot, fun k runs direct noHot cold => ?readCold,
      fun runs noHot noCold => ?readNone, fun runs => ?budget, fun pier runs named => ?status,
      fun runs => (runCommand_reports runs rfl : execFsTenantStatus c ten s = _),
      fun runs => (runCommand_reports runs rfl : execTenantAccount c ten s = _)⟩
    case readHot =>
      refine (runCommand_answersAt runs ?_ direct : execFlowRead c key addr s = _)
      simp [hot, noFold]
    case readCold =>
      refine (runCommand_answersAt runs ?_ direct : execFlowRead c key addr s = _)
      simp [noHot, cold]
    case readNone =>
      refine (runCommand_results runs ?_ : execFlowRead c key addr s = _)
      simp [noHot, noCold]
    case budget =>
      refine (runCommand_reports runs ?_ : execDlBudgetStatus c ten s = _)
      dsimp only
    case status =>
      refine ⟨_, ?_, (runCommand_reports runs (if_neg (Nat.not_le.mpr named)) : execFsStatus c pier s = _)⟩
      simp only [List.append_assoc]
      exact cut_append (le_length ..) _

end Sys2Proof.Machine
end

section
/-! Resets, boot and the commands of the boot group (R565, R592 to R661). -/

namespace Sys2Proof.Machine

/-- The place of BOOT_PUSH_CTRL is the one of a boot register (R643). -/
theorem regAt_bootPushCtrl : regAt (Reg.off .bootPushCtrl 0) = some (.bootPushCtrl, 0) := by decide

/-- Before READY an access to a boot register does not answer to the ownership rules (R640). -/
theorem fileAccess_bootPushCtrl {s : State} (early : s.boot.phase ≠ .ready) (m : Nat) (f : State → State) :
    fileAccess s m (Reg.off .bootPushCtrl 0) f = f (dropOther s m (Reg.off .bootPushCtrl 0)) := by
  have boot : isBootReg .bootPushCtrl = true := rfl
  simp only [fileAccess, regAt_bootPushCtrl, boot, Bool.true_and, bne_iff_ne, if_pos early]

/-- A boot whose devices all train puts the 32 channels in service (R505). -/
theorem execBootTrainingDone_all {s : State} (training : s.boot.phase = .training) (untrained : s.boot.trained = false)
    (density : Fin 5) (two : Bool) :
    let u := setRegField (setRegField s .ddrCfg 0 0 3 density.val) .ddrCfg 0 3 1 (flag two)
    let w := (List.range 32).foldl
      (fun s c => setDdrCh s c { ddrCh s c with st := .inService, trainedAt := timeNs s }) u
    execBootTrainingDone density two [] s = .next (stepEnds (w.withBoot { w.boot with trained := true }) 4) := by
  have due : ¬(s.boot.phase ≠ .training ∨ s.boot.trained = true) := by simp [training, untrained]
  have noneBad : (List.range 32).filter (fun c => ([] : List (Fin 32)).any (fun f => f.val == c)) = [] :=
    List.filter_eq_nil_iff.mpr (fun _ _ => Bool.false_ne_true)
  have allGood : (List.range 32).filter (fun c => !([] : List Nat).contains c) = List.range 32 :=
    List.filter_eq_self.mpr (fun _ _ => rfl)
  have few : ¬4 < ([] : List Nat).length := by decide
  simp only [execBootTrainingDone, if_neg due, noneBad, if_neg few, allGood, List.foldl_nil]

/-- The first time that a rail comes in range is noted; with the last rail of its step, the next step of the boot is due
(R659). -/
theorem execRailInRange_first {s : State} {rail : Fin 7} (phase : s.boot.phase = .rails)
    (raised : railRaised s rail.val = true) (fresh : s.boot.railsOk.contains rail.val = false) :
    let ok := s.boot.railsOk ++ [rail.val]
    let u := s.withBoot { s.boot with railsOk := ok }
    execRailInRange rail s =
      if (stepRails s.boot.railStep).all (fun r => ok.contains r) ∧ s.boot.nextRails.isNone then
        if s.boot.railStep = 4 then .next (beginStepFour (stepEnds u 3))
        else .next (u.withBoot { u.boot with nextRails := some (s.clk.cc + 150000) })
      else .next u := by
  have due : ¬(s.boot.phase ≠ .rails ∨ railRaised s rail.val = false) := by simp [phase, raised]
  rw [execRailInRange, if_neg due, fresh, if_neg Bool.false_ne_true]
  rfl

/-- Settles O59: each event of the boot takes the branch of its phase, and each command that of the readiness it needs. -/
theorem boot : Obligations.Boot := by
  intro s
  dsimp only
  refine ⟨fun code => ⟨fun phase => ?fatal, fun phase => ?fatalInReset⟩, fun image cert => ?checkDone, rfl, rfl, rfl,
    fun straps slotA slotB cert hot => ⟨fun phase => (if_pos phase : execFootingResetRelease straps slotA slotB cert hot s = _),
      fun phase => ?release⟩,
    fun phase => (if_pos phase : execThermalBootHoldEnd s = _),
    fun rail phase raised fresh => ⟨?timeout, fun left => ?railOk, fun all_ notSet => ?stepOk⟩,
    fun m len phase present => ?pushGo, fun unit pass phase untested free => ?selfTest,
    fun dir phase trained => ?ready, fun density two phase untrained => execBootTrainingDone_all phase untrained density two,
    fun t due => ?coreBegin, fun c a => ⟨fun addr runs direct => ?info, fun mask form runs named banks =>
      ⟨fun opens => ?opened, fun full notReady => ?notOpened⟩, fun runs alive => ?noCore, fun runs alive => ?core⟩⟩
  case fatal =>
    change execDeviceFatal code s = _
    obtain phase | phase := phase <;> simp only [execDeviceFatal, phase]
  case fatalInReset =>
    change execDeviceFatal code s = _
    simp only [execDeviceFatal, phase]
  case checkDone => exact (apply_ite Host.Outcome.next _ _ _).symm
  case release =>
    change execFootingResetRelease straps slotA slotB cert hot s = _
    rw [execFootingResetRelease, if_neg (Classical.not_not.mpr phase), apply_ite Host.Outcome.next]
  case timeout =>
    refine (if_neg ?_ : execRailTimeout rail s = _)
    rw [phase, raised, fresh]
    decide
  case railOk =>
    refine (execRailInRange_first phase raised fresh).trans (if_neg ?_)
    rw [left]
    exact fun both => Bool.false_ne_true both.1
  case stepOk =>
    refine (execRailInRange_first phase raised fresh).trans ((if_pos ⟨all_, Option.isNone_iff_eq_none.mpr notSet⟩).trans ?_)
    rw [apply_ite Host.Outcome.next]
  case pushGo =>
    refine (if_pos present : execBootPushGo m len s = _).trans ?_
    rw [fileAccess_bootPushCtrl phase]
  case selfTest =>
    refine (if_neg ?_ : execBootSelfTestDone unit pass s = _)
    rw [phase, untested, free]
    decide
  case ready =>
    refine (if_neg ?_ : execBootReady dir s = _)
    simp [phase, trained]
  case coreBegin =>
    change execCoreResetBegin s = _
    simp only [execCoreResetBegin, due]
  case info =>
    refine ⟨_, ?_, (runCommand_answersAt runs rfl direct : execBootInfo c addr s = _)⟩
    simp only [List.append_assoc]
    exact cut_append_skip (flatMap_length_const (fun _ _ => le_length ..)) (le_length ..) _
  case opened =>
    refine (runCommand_ends runs ((if_neg (Nat.not_lt.mpr named)).trans (if_neg ?_)) : execTrafficOpen c mask form s = _)
    obtain stateless | ready := opens
    · simp [banks, stateless]
    · simp [banks, ready]
  case notOpened =>
    refine (runCommand_fails runs ((if_neg (Nat.not_lt.mpr named)).trans (if_pos ?_)) : execTrafficOpen c mask form s = _)
    simp [full, notReady]
  case noCore => exact (runCommand_fails runs (if_pos alive) : execCoreReset c s = _)
  case core => exact (runCommand_ends runs (if_neg (Bool.eq_false_iff.mp alive)) : execCoreReset c s = _)

end Sys2Proof.Machine
end
